-- ==== Sys2Proof/Word.lean ====
section
/-! DEFINITION. The word types of the device and the one way a field is read from a number of bits. -/

namespace Sys2Proof

/-- A scalar register, a control register, an instruction word or a device virtual address (R3, R79, R160). -/
abbrev W64 := BitVec 64

/-- An FP32 word, an accumulator element or a 4-byte unit (R213). -/
abbrev W32 := BitVec 32

/-- A byte of memory (R3). -/
abbrev Byte := BitVec 8

/-- A register specifier of Table 12.2: FILE in bits 7:6, INDEX in bits 5:0 (R229). -/
abbrev Spec := BitVec 8

/-- A vector register (R160). -/
abbrev VReg := BitVec 1024

/-- A mask register, one bit per 8-bit lane (R160). -/
abbrev KReg := BitVec 128

/-- Field `x[lo + len - 1 : lo]` of the number `x` (R3). -/
def fld (x lo len : Nat) : Nat := x / 2 ^ lo % 2 ^ len

end Sys2Proof
end

