-- ==== Sys2Proof/Config.lean ====
section
/-! DEFINITION. What an implementation fixes and the manual leaves open. A constant without a body is a free value: no
proof can see what it is. A constant with a body is a figure of the manual or a choice that a log entry names. -/

namespace Sys2Proof.Config

/-- The bytes of package memory (R6, R80). -/
def packageBytes : Nat := 384000000000

/-- First physical address of the loft (Table 5.1). -/
def loftBase : Nat := 0x800000000000

/-- First physical address of the queue register pages (Table 5.1). -/
def queuePages : Nat := 0xC00000000000

/-- First physical address of the context register pages (Table 5.1). -/
def contextPages : Nat := 0xC00000400000

/-- What a byte of package memory that nothing has written reads as. DESIGN CHOICE (log 2): the manual gives package
memory no contents after power-on. Unsafe: a proof can lean on the zero. -/
def unwritten : Byte := 0

/-- DEV_FEAT[0]: all ten features of Table 2.6 are presented. DESIGN CHOICE (log 8). -/
def devFeat0 : W64 := 0x3FF

/-- SHAKE256 digest of the verification key, fused in the boot ROM (R32). Free value (DESIGN CHOICE, log 10). -/
opaque fusedKeyDigest : BitVec 512

/-- The fused minimum security version number (R32). Free value (DESIGN CHOICE, log 10). -/
opaque minimumSvn : Nat

/-- The device certificate that SPDM reports (R33). Free value (DESIGN CHOICE, log 10). -/
opaque deviceCertificate : List Byte

/-- The device identity key's SLH-DSA signature over a report (R33). Free value (DESIGN CHOICE, log 10). -/
opaque deviceSignature (report : List Byte) : List Byte

/-- The calibration factor that step 0x08 measures, as a fraction of 1,000 (R22, R73). Free value (DESIGN CHOICE, log 10). -/
opaque calibration : Nat

/-- The step below the nominal main clock that is taken at a temperature of 105 °C or above, in 0.1 °C (R10, R24). Free value
(DESIGN CHOICE, log 10). -/
opaque throttleStep : Int → Nat

/-- An element that a stream reads past the end of its pattern (R311, R312), by the count of free values. Free value
(DESIGN CHOICE, log 10). -/
opaque freeElement : Nat → Nat

/-- How many vectors a stream transfer unit prefetches or holds for one q register. DESIGN CHOICE (log 11): the manual
gives no depth; a sparse row that an array draws takes six (R320). -/
def streamDepth : Nat := 8

/-- Jobs of one yard that a unit holds (R315). -/
def unitQueue : Nat := 32

/-- Live continuation records the dispatch queues hold (R60). -/
def dispatchCapacity : Nat := 1048576

end Sys2Proof.Config
end

