-- ==== Sys2Proof/Syntax.lean ====
section
/-! DEFINITION. The steps of the device as data: one constructor of Instr per row of spec/opcode_table.json. A core
instruction carries the fields of its format (Table 12.1), a bank-command word those of Table 17.1, and a device event
the values that the outside world or the schedule brings to it. -/

namespace Sys2Proof

/-- Format A3 (Table 12.1). -/
structure A3 where
  d : Spec
  a : Spec
  ea : Bool
  b : Spec
  eb : Bool
  c : Spec
  ec : Bool
  modA : BitVec 12
  fn : BitVec 5
  pred : BitVec 4
  deriving DecidableEq, Repr

/-- Format I32 (Table 12.1). -/
structure I32 where
  d : Spec
  a : Spec
  ea : Bool
  fn : BitVec 3
  imm : BitVec 32
  pred : BitVec 4
  deriving DecidableEq, Repr

/-- Format M (Table 12.1, R234). -/
structure MemF where
  d : Spec
  base : Spec
  eb : Bool
  size : BitVec 2
  atom : BitVec 2
  order : BitVec 2
  scope : BitVec 4
  off : BitVec 25
  pred : BitVec 4
  deriving DecidableEq, Repr

/-- Format B (Table 12.1, R235). -/
structure BrF where
  cond : BitVec 4
  null : BitVec 2
  a : Spec
  ea : Bool
  b : Spec
  eb : Bool
  disp : BitVec 28
  pred : BitVec 4
  deriving DecidableEq, Repr

/-- Format E (Table 12.1, R236). -/
structure EngF where
  d : Spec
  desc : Spec
  e : Bool
  waitsem : BitVec 8
  sigsem : BitVec 8
  tag : BitVec 6
  stampOff : BitVec 12
  stampEn : Bool
  pred : BitVec 4
  deriving DecidableEq, Repr

/-- Format S (Table 12.1). -/
structure SysF where
  d : Spec
  a : Spec
  ea : Bool
  ctl : BitVec 12
  imm : BitVec 23
  pred : BitVec 4
  deriving DecidableEq, Repr

/-- Format L (Table 12.1, R237). -/
structure LoopF where
  a : Spec
  ea : Bool
  ii : BitVec 6
  sc : BitVec 4
  rsv : BitVec 33
  pred : BitVec 4
  deriving DecidableEq, Repr

/-- The fields of a bank-command word beside its opcode (Table 17.1). -/
structure BankF where
  rep : BitVec 16
  step : BitVec 16
  operand : BitVec 8
  deriving DecidableEq, Repr

/-- Who makes a request on the link: the host or a peer, and the selective IDE stream that it arrived on, of the four, if it did
(R15, R20). -/
structure Requester where
  peer : Bool
  stream : Option (Fin 4)
  deriving DecidableEq, Repr

/-- The PCIe AtomicOps of R19. -/
inductive PcieAtomic where
  | fetchAdd
  | swap
  | cas
  deriving DecidableEq, Repr

/-- Which half of a 64-bit register an access covers (R17). -/
inductive RegPart where
  | whole
  | low
  | high
  deriving DecidableEq, Repr

/-- The four engine classes that entries are metered in (R69). -/
inductive MeterClass where
  | cores
  | matrix
  | bank
  | copy
  deriving DecidableEq, Repr

/-- A translation cache: one per yard and one per MCS (R96). -/
inductive CacheId where
  | yard (y : Fin 8)
  | mcs (d : Fin 48)
  deriving DecidableEq, Repr

/-- A unit whose running item a pre-emption displaces (R64, Table 4.2). -/
inductive PreemptUnit where
  | core (c : Fin 64)
  | matrix (y : Fin 8)
  | bank (job : Nat)
  deriving DecidableEq, Repr

/-- The payload of SET_KEY (Table 3.12). -/
structure KeyRequest where
  slot : BitVec 8
  ctx : BitVec 8
  zero : BitVec 16
  stream : BitVec 32
  nextCtr : BitVec 64
  key : BitVec 256
  deriving DecidableEq, Repr

/-- The steps of the device, one constructor per row of spec/opcode_table.json: first the rows that carry operands, in
the table's order, then the device events that act on the unit, entry or job whose turn it is (Subject in
Machine/State.lean). -/
inductive Instr where
  /-- BOOT_CTL_COLD_START (R25). A BOOT_CTL write with KEY 0x4B59 and CMD 1 aborts any start and begins a cold start. -/
  | bootCtlColdStart (key : BitVec 16)
  /-- BOOT_CTL_WARM_START (R25). A BOOT_CTL write with KEY 0x4B59 and CMD 2 requests a warm start, or a cold start when the retention flag is clear. -/
  | bootCtlWarmStart (key : BitVec 16)
  /-- FEAT_COMMIT (R36). A write of 1 to FEAT_COMMIT latches ACC_FEAT and enters READY, or is remembered until step 0x09. -/
  | featCommit (value : BitVec 64)
  /-- MAILBOX_BAD_COMMAND (R34). An MB_CMD write of an undefined value completes with MB_STATUS 3. -/
  | mailboxBadCommand (cmd : BitVec 64)
  /-- BIND_CONTEXT (R55). A secured-session request binds a live context to the TDI. -/
  | bindContext (ctx : BitVec 8)
  /-- UNBIND_CONTEXT (R55). A secured-session request clears a context's binding and empties its key slots. -/
  | unbindContext (ctx : BitVec 8)
  /-- SET_KEY (R55). A secured-session request installs an AES-256 key slot with its stream and NEXT_CTR. -/
  | setKey (req : KeyRequest)
  /-- CLEAR_KEY (R55). A secured-session request empties a key slot and zeroes its key. -/
  | clearKey (slot : BitVec 8)
  /-- TDI_EXIT_RUN (R55). The TDI leaves LOCKED or RUN for CONFIG_UNLOCKED or ERROR, which clears every binding and key slot. -/
  | tdiExitRun (toError : Bool)
  /-- LINEAR_WINDOW_READ (R18). A host or peer read through the linear window reaches package memory, or completes with Unsupported Request. -/
  | linearWindowRead (src : Requester) (off len : Nat)
  /-- LINEAR_WINDOW_WRITE (R18). A host or peer posted write through the linear window is performed at package scope, or is dropped and logged. -/
  | linearWindowWrite (src : Requester) (off : Nat) (data : List (BitVec 8))
  /-- LINEAR_WINDOW_ATOMICOP (R19). A PCIe AtomicOp to the linear window executes at the MCS write queue. -/
  | linearWindowAtomicop (src : Requester) (op : PcieAtomic) (off size : Nat) (v1 v2 : BitVec 64)
  /-- REGISTER_WINDOW_ATOMICOP (R17). An AtomicOp to the register window completes with Unsupported Request. -/
  | registerWindowAtomicop (src : Requester) (off : Nat)
  /-- REGISTER_WRITE (R17). A host write to a register-window register that has no behaviour of its own stores its RW fields, or is dropped and logged. -/
  | registerWrite (src : Requester) (off size : Nat) (value : BitVec 64)
  /-- QCFG_WRITE (R39). A QCFG write configures, enables, halts or disables a queue, under its conditions. -/
  | qcfgWrite (queue : Nat) (part : RegPart) (value : BitVec 64)
  /-- TAIL_WRITE (R40). A TAIL write publishes entries, is ignored as stale or no-op, or sets TAIL_OVERRUN. -/
  | tailWrite (queue : Nat) (part : RegPart) (value : BitVec 64)
  /-- QRESET (R50). A write of 1 to QRESET.REQ stops consumption and cancels the queue's work. -/
  | qreset (queue : Nat) (value : BitVec 64)
  /-- CTX_ROOT_WRITE (R85). A CTX_ROOT write sets the root table, DLCLASS and LIVE, under its restrictions. -/
  | ctxRootWrite (ctx : Nat) (part : RegPart) (value : BitVec 64)
  /-- CTX_INVALIDATE (R87). A CTX_INVAL write with GO starts a translation-cache invalidation of the chosen scope. -/
  | ctxInvalidate (ctx : Nat) (part : RegPart) (value : BitVec 64)
  /-- CTX_RESUME (R99). A write of 1 to CTX_RESUME clears VALID and replays the context's suspended engine jobs. -/
  | ctxResume (ctx : Nat) (value : BitVec 64)
  /-- SEM_ASSIGN_WRITE (R298). A SEM_ASSIGN write assigns a semaphore to a context and resets its counter to 0. -/
  | semAssignWrite (sem : Nat) (part : RegPart) (value : BitVec 64)
  /-- PREEMPTION (R64). A ready item with an earlier key and no idle unit pre-empts the running item with the latest key. -/
  | preemption (unit : PreemptUnit)
  /-- BUDGET_OVERRUN (R70). A meter first exceeds its budget, and the trap, demote or abort policy applies. -/
  | budgetOverrun (cls : MeterClass)
  /-- PAGE_WALK (R83). A walker walks the four-level table, updating ACCESSED and DIRTY, and returns a leaf or a fault to every joined access. -/
  | pageWalk (cache : CacheId) (ctx : Nat) (va : BitVec 64) (write : Bool)
  /-- PER_BANK_REFRESH (R130). The MCS issues a per-bank refresh at its interval, and that group's BGU pauses. -/
  | perBankRefresh (bank cycles : Nat)
  /-- STREAM_TRANSFER (R173). A stream transfer unit fills or drains a bound q register on the STREAM path. -/
  | streamTransfer (q : Fin 16)
  /-- FULL_EMPTY_RESULT_FILL (R166). A full/empty result arrives, is written and marks its destination full. -/
  | fullEmptyResultFill (index : Nat)
  /-- ADD (R248). Adds two scalars modulo 2^64. -/
  | add (w : A3)
  /-- SUB (R248). Subtracts two scalars modulo 2^64. -/
  | sub (w : A3)
  /-- MUL (R248). Gives the low 64 bits of the unsigned product. -/
  | mul (w : A3)
  /-- MULHI (R248). Gives the high 64 bits of the unsigned product. -/
  | mulhi (w : A3)
  /-- MULHS (R248). Gives the high 64 bits of the signed product. -/
  | mulhs (w : A3)
  /-- DIV (R249). Unsigned divide with a full/empty result; division by zero gives all ones. -/
  | div (w : A3)
  /-- DIVS (R249). Signed divide rounding toward zero, with defined results for zero and overflow. -/
  | divs (w : A3)
  /-- REM (R249). Unsigned remainder; division by zero gives the dividend. -/
  | rem (w : A3)
  /-- REMS (R249). Signed remainder with the dividend's sign. -/
  | rems (w : A3)
  /-- AND (R248). Bitwise AND of two scalars. -/
  | and (w : A3)
  /-- OR (R248). Bitwise OR of two scalars. -/
  | or (w : A3)
  /-- XOR (R248). Bitwise XOR of two scalars. -/
  | xor (w : A3)
  /-- SHL (R250). Shifts left by a register amount. -/
  | shl (w : A3)
  /-- SHR (R250). Logical shift right by a register amount. -/
  | shr (w : A3)
  /-- SRA (R250). Arithmetic shift right by a register amount. -/
  | sra (w : A3)
  /-- ROT (R250). Rotates left by n mod 64. -/
  | rot (w : A3)
  /-- CLZ (R248). Counts leading zero bits. -/
  | clz (w : A3)
  /-- CTZ (R248). Counts trailing zero bits. -/
  | ctz (w : A3)
  /-- POPC (R248). Counts one bits. -/
  | popc (w : A3)
  /-- BEXT (R251). Extracts a bit field described by a control word. -/
  | bext (w : A3)
  /-- BINS (R251). Inserts a bit field described by a control word. -/
  | bins (w : A3)
  /-- MIN (R248). Unsigned minimum. -/
  | min (w : A3)
  /-- MAX (R248). Unsigned maximum. -/
  | max (w : A3)
  /-- MINS (R248). Signed minimum. -/
  | mins (w : A3)
  /-- MAXS (R248). Signed maximum. -/
  | maxs (w : A3)
  /-- CMP (R248). Writes 1 if the condition holds, else 0. -/
  | cmp (w : A3)
  /-- SEL (R248). Selects S[b] or S[c] according to S[a]. -/
  | sel (w : A3)
  /-- ADDI (R252). Adds a sign-extended immediate. -/
  | addi (w : I32)
  /-- ANDI (R252). ANDs with a sign-extended immediate. -/
  | andi (w : I32)
  /-- ORI (R252). ORs with a sign-extended immediate. -/
  | ori (w : I32)
  /-- XORI (R252). XORs with a sign-extended immediate. -/
  | xori (w : I32)
  /-- SHLI (R252). Shifts left by an immediate of 0 to 63. -/
  | shli (w : I32)
  /-- SHRI (R252). Logical shift right by an immediate. -/
  | shri (w : I32)
  /-- SRAI (R252). Arithmetic shift right by an immediate. -/
  | srai (w : I32)
  /-- LDI (R252). Loads a sign-extended immediate. -/
  | ldi (w : I32)
  /-- LDIH (R252). Sets the high 32 bits from the immediate and keeps the low half of S[a]. -/
  | ldih (w : I32)
  /-- LEA (R252). Writes its own address plus the displacement. -/
  | lea (w : I32)
  /-- BR (R253). Conditional branch with two delay slots and optional nullification. -/
  | br (w : BrF)
  /-- J (R253). Unconditional jump with delay slots. -/
  | j (w : BrF)
  /-- CALL (R253). Unconditional call; writes the link address + 24 to s63. -/
  | call (w : BrF)
  /-- JR (R254). Jumps to a register address. -/
  | jr (w : A3)
  /-- CALLR (R254). Calls a register address and writes the link. -/
  | callr (w : A3)
  /-- RET (R254). Jumps to S[63]. -/
  | ret (w : A3)
  /-- LOOPM (R256). Runs a modulo-scheduled body for T iterations under the sequencer. -/
  | loopm (w : LoopF)
  /-- LD (R292). Loads and zero-extends a scalar value. -/
  | ld (w : MemF)
  /-- LDX (R292). Loads and sign-extends a scalar value. -/
  | ldx (w : MemF)
  /-- ST (R292). Stores a scalar; an aperture store starts a template copy (R306). -/
  | st (w : MemF)
  /-- PREF (R292). Prefetch hint with no architectural effect. -/
  | pref (w : MemF)
  /-- VLD (R293). Loads 128 bytes into a vector, predicated per lane. -/
  | vld (w : MemF)
  /-- VST (R293). Stores a vector's active lanes in ascending order. -/
  | vst (w : MemF)
  /-- VLDS (R294). Strided vector load. -/
  | vlds (w : A3)
  /-- VGATH (R294). Indexed vector gather. -/
  | vgath (w : A3)
  /-- VSCAT (R294). Indexed vector scatter in ascending lane order. -/
  | vscat (w : A3)
  /-- AADD (R295). Atomic add at the coherence point, returning the old value. -/
  | aadd (w : MemF)
  /-- AMIN (R295). Atomic signed minimum. -/
  | amin (w : MemF)
  /-- AMAX (R295). Atomic signed maximum. -/
  | amax (w : MemF)
  /-- AAND (R295). Atomic AND. -/
  | aand (w : MemF)
  /-- AOR (R295). Atomic OR. -/
  | aor (w : MemF)
  /-- AXOR (R295). Atomic XOR. -/
  | axor (w : MemF)
  /-- AXCHG (R295). Atomic exchange. -/
  | axchg (w : MemF)
  /-- ACAS (R295). Atomic compare-and-swap. -/
  | acas (w : MemF)
  /-- AFADD (R295). Atomic FP32 add with RNE. -/
  | afadd (w : MemF)
  /-- AFAMAX (R296). Atomic FP32 absolute maximum fold. -/
  | afamax (w : MemF)
  /-- FENCE (R107). Orders CORE-path accesses at a scope. -/
  | fence (w : SysF)
  /-- XFENCE (R111). Orders path A accesses before path B accesses at a scope. -/
  | xfence (w : SysF)
  /-- MARK (R103). Orders accesses at yard scope. -/
  | mark (w : SysF)
  /-- SEMW (R299). Waits in queue order for c units of a semaphore and takes them as an acquire. -/
  | semw (w : SysF)
  /-- SEMS (R299). Adds c to a semaphore as a release and wakes satisfiable takes. -/
  | sems (w : SysF)
  /-- SEMI (R299). Sets a semaphore counter to a value. -/
  | semi (w : SysF)
  /-- SEMR (R299). Waits for the continuation's jobs naming the semaphore to end, then zeroes it. -/
  | semr (w : SysF)
  /-- PBAR (R300). Arrives at a pen barrier and waits for its generation to complete. -/
  | pbar (w : SysF)
  /-- ACQS (R301). Waits for a stage with the expected FULL and this core as owner, and claims its context. -/
  | acqs (w : SysF)
  /-- RELS (R301). Sets a stage's FULL, next owner and DATA. -/
  | rels (w : SysF)
  /-- WAITT_ANY (R305). Waits until any masked copy tag is set. -/
  | waittAny (w : SysF)
  /-- WAITT_ALL (R305). Waits until all masked copy tags are set. -/
  | waittAll (w : SysF)
  /-- FFRT (R305). Returns the index of the least set masked tag. -/
  | ffrt (w : SysF)
  /-- VADD (R273). Vector integer add. -/
  | vadd (w : A3)
  /-- VSUB (R273). Vector integer subtract. -/
  | vsub (w : A3)
  /-- VMUL (R273). Vector integer multiply, low bits. -/
  | vmul (w : A3)
  /-- VMAD (R273). Vector integer multiply-add. -/
  | vmad (w : A3)
  /-- VMIN (R273). Vector signed minimum. -/
  | vmin (w : A3)
  /-- VMAX (R273). Vector signed maximum. -/
  | vmax (w : A3)
  /-- VAND (R273). Vector bitwise AND. -/
  | vand (w : A3)
  /-- VOR (R273). Vector bitwise OR. -/
  | vor (w : A3)
  /-- VXOR (R273). Vector bitwise XOR. -/
  | vxor (w : A3)
  /-- VSHL (R273). Vector shift left per lane. -/
  | vshl (w : A3)
  /-- VSHR (R273). Vector logical shift right per lane. -/
  | vshr (w : A3)
  /-- VSRA (R273). Vector arithmetic shift right per lane. -/
  | vsra (w : A3)
  /-- VCMP (R274). Compares integer lanes into a mask. -/
  | vcmp (w : A3)
  /-- VSEL (R273). Selects lanes by a mask. -/
  | vsel (w : A3)
  /-- VABS (R273). Vector integer absolute value. -/
  | vabs (w : A3)
  /-- VPOPC (R273). Counts one bits per lane. -/
  | vpopc (w : A3)
  /-- VCLZ (R273). Counts leading zeros per lane. -/
  | vclz (w : A3)
  /-- VFADD (R276). Vector floating-point add. -/
  | vfadd (w : A3)
  /-- VFSUB (R276). Vector floating-point subtract. -/
  | vfsub (w : A3)
  /-- VFMUL (R276). Vector floating-point multiply. -/
  | vfmul (w : A3)
  /-- VFMA (R276). Fused multiply-add rounded once. -/
  | vfma (w : A3)
  /-- VFMIN (R276). Vector floating-point minimum. -/
  | vfmin (w : A3)
  /-- VFMAX (R276). Vector floating-point maximum. -/
  | vfmax (w : A3)
  /-- VFCMP (R277). Compares floating-point lanes into a mask. -/
  | vfcmp (w : A3)
  /-- VFABS (R276). Clears the sign bit per lane. -/
  | vfabs (w : A3)
  /-- VFNEG (R276). Inverts the sign bit per lane. -/
  | vfneg (w : A3)
  /-- VEXP2 (R279). Correctly rounded 2^x per lane. -/
  | vexp2 (w : A3)
  /-- VLOG2 (R279). Correctly rounded log2 per lane. -/
  | vlog2 (w : A3)
  /-- VRCP (R279). Correctly rounded reciprocal per lane. -/
  | vrcp (w : A3)
  /-- VRSQ (R279). Correctly rounded reciprocal square root per lane. -/
  | vrsq (w : A3)
  /-- VSQRT (R279). Correctly rounded square root per lane. -/
  | vsqrt (w : A3)
  /-- VEADD (R278). Scales lanes by a power of two. -/
  | veadd (w : A3)
  /-- VMOV (R280). Copies lanes, or reads a stream vector. -/
  | vmov (w : A3)
  /-- VBCAST (R280). Broadcasts a scalar to every lane. -/
  | vbcast (w : A3)
  /-- VEXT (R280). Extracts one lane to a scalar. -/
  | vext (w : A3)
  /-- VINS (R280). Inserts a scalar into one lane. -/
  | vins (w : A3)
  /-- VPERM (R280). Permutes lanes by an index vector. -/
  | vperm (w : A3)
  /-- VCOMP (R281). Compresses the active lanes to the low lanes. -/
  | vcomp (w : A3)
  /-- VIOTA (R280). Writes base + lane index per lane. -/
  | viota (w : A3)
  /-- VCVT (R286). Converts between scalar formats with PART selection. -/
  | vcvt (w : SysF)
  /-- VQNT (R287). Quantises a register group into a block's element bytes. -/
  | vqnt (w : SysF)
  /-- VQNT_SC (R287). Quantises a register group and writes the block's scale code to a scalar. -/
  | vqntSc (w : SysF)
  /-- VDQNT (R288). Decodes block elements without their scale. -/
  | vdqnt (w : SysF)
  /-- VSCL (R289). Applies an E8M0 block scale to a vector in place. -/
  | vscl (w : SysF)
  /-- KAND (R290). Mask AND. -/
  | kand (w : A3)
  /-- KOR (R290). Mask OR. -/
  | kor (w : A3)
  /-- KXOR (R290). Mask XOR. -/
  | kxor (w : A3)
  /-- KNOT (R290). Mask NOT. -/
  | knot (w : A3)
  /-- KMOV (R290). Copies one mask to another. -/
  | kmov (w : A3)
  /-- KMOV_L64_TO_MASK (R290). Writes a scalar into bits 63:0 of a mask. -/
  | kmovL64ToMask (w : A3)
  /-- KMOV_H64_TO_MASK (R290). Writes a scalar into bits 127:64 of a mask. -/
  | kmovH64ToMask (w : A3)
  /-- KMOV_L64_TO_SCALAR (R290). Reads bits 63:0 of a mask into a scalar. -/
  | kmovL64ToScalar (w : A3)
  /-- KMOV_H64_TO_SCALAR (R290). Reads bits 127:64 of a mask into a scalar. -/
  | kmovH64ToScalar (w : A3)
  /-- KPOP (R290). Counts the set lanes of a mask. -/
  | kpop (w : A3)
  /-- KFF (R290). Finds the first set lane of a mask. -/
  | kff (w : A3)
  /-- VRSUM (R282). Exact integer sum of the active lanes. -/
  | vrsum (w : A3)
  /-- VRMAX (R282). Integer maximum of the active lanes. -/
  | vrmax (w : A3)
  /-- VRMIN (R282). Integer minimum of the active lanes. -/
  | vrmin (w : A3)
  /-- VRFSUM (R283). Fixed pairwise-tree FP32 sum. -/
  | vrfsum (w : A3)
  /-- VRFMAX (R283). Fixed-tree floating-point maximum. -/
  | vrfmax (w : A3)
  /-- VRAMAX (R283). Fixed-tree absolute maximum. -/
  | vramax (w : A3)
  /-- VRARG (R284). Least index of the greatest active lane. -/
  | vrarg (w : A3)
  /-- MLDS (R318). Loads the shadow plane from the loft or package memory. -/
  | mlds (w : EngF)
  /-- MSWAP (R190). Exchanges the stationary and shadow planes. -/
  | mswap (w : EngF)
  /-- MSTRM (R320). Streams rows past the stationary plane into accumulator rows. -/
  | mstrm (w : EngF)
  /-- MDRN (R321). Converts accumulator rows and writes them to the loft. -/
  | mdrn (w : EngF)
  /-- MZERO (R321). Zeroes accumulator rows and makes them not live. -/
  | mzero (w : EngF)
  /-- MEADD (R321). Adds an exponent to accumulator rows. -/
  | meadd (w : EngF)
  /-- MSCL (R322). Binds the streamed-scale FIFO. -/
  | mscl (w : EngF)
  /-- MSTAT (R323). Returns the array state word and clears the returned sticky flags. -/
  | mstat (w : EngF)
  /-- MLUNGE (R324). Starts a lunge-mode run. -/
  | mlunge (w : EngF)
  /-- MWAITD (R325). Claims the earliest unclaimed lunge demand, or returns END. -/
  | mwaitd (w : A3)
  /-- MFEED (R326). Answers a row's operand demand with a loft address. -/
  | mfeed (w : SysF)
  /-- MDACK (R327). Frees a drained lunge group. -/
  | mdack (w : SysF)
  /-- MSTOP (R208). Ends the lunge run at the end of the current group. -/
  | mstop (w : EngF)
  /-- STRB (R311). Binds a q register to a stream descriptor. -/
  | strb (w : SysF)
  /-- STRU (R312). Unbinds a stream after its writes are performed. -/
  | stru (w : SysF)
  /-- STRQ (R312). Returns a stream's position. -/
  | strq (w : SysF)
  /-- STRS (R312). Advances a stream's position. -/
  | strs (w : SysF)
  /-- BTEG (R310). Gathers up to 32 rows by index with one completion. -/
  | bteg (w : EngF)
  /-- TMPLI (R309). Invalidates cached copy templates. -/
  | tmpli (w : SysF)
  /-- BCALL (R328). Starts a bank-command job on a set of MCS ports. -/
  | bcall (w : EngF)
  /-- BSTAT (R329). Returns a bank job slot's status or poison bits. -/
  | bstat (w : A3)
  /-- KVHO (R330). Hands FP16 key and value rows over to KV8 blocks through a block table. -/
  | kvho (w : EngF)
  /-- BTINV (R331). Invalidates a cached block table. -/
  | btinv (w : EngF)
  /-- EXPF (R332). Starts a fetch of an absent expert. -/
  | expf (w : SysF)
  /-- EXPQ (R332). Reads half of an expert directory entry. -/
  | expq (w : SysF)
  /-- LXJOB (R333). Starts a layout-engine job from an INGEST record. -/
  | lxjob (w : EngF)
  /-- PXHASH (R335). Computes one prefix digest chain step. -/
  | pxhash (w : A3)
  /-- PXHASH_ROOT (R335). Computes the root digest D0 of a prefix chain. -/
  | pxhashRoot (w : A3)
  /-- PXLOOK (R336). Looks up a digest in the prefix index. -/
  | pxlook (w : A3)
  /-- PXINS (R336). Looks up a digest or inserts a BUILDING entry, possibly evicting one. -/
  | pxins (w : A3)
  /-- PXPUB (R337). Publishes a built prefix entry and signals its waiters. -/
  | pxpub (w : A3)
  /-- PXREL (R337). Releases a prefix reference, or abandons a building entry. -/
  | pxrel (w : A3)
  /-- TRAP (R259). Raises the given fault code precisely. -/
  | trap (w : SysF)
  /-- RETI (R261). Returns from trap mode after in-flight results land. -/
  | reti (w : SysF)
  /-- HALT (R262). Waits for the continuation's jobs, releases its stores, counts down the hardware join and frees the core. -/
  | halt (w : SysF)
  /-- CONT (R263). Ends the continuation and enqueues a successor, optionally gated on a semaphore. -/
  | cont (w : SysF)
  /-- NOP (R264). Does nothing. -/
  | nop (w : SysF)
  /-- BKPT (R259). Raises BREAKPOINT precisely. -/
  | bkpt (w : SysF)
  /-- YIELD (R264). Saves and re-enqueues the continuation if another one precedes it. -/
  | yield (w : SysF)
  /-- CKPT (R265). Names a live-range table, restarts the interval and serves a pending pre-emption. -/
  | ckpt (w : SysF)
  /-- MFC (R266). Reads a control register. -/
  | mfc (w : SysF)
  /-- MTC (R266). Writes a control register, with the effects of Table 13.6. -/
  | mtc (w : SysF)
  /-- BEAT (R267). Reads the 64-bit beat counter untorn. -/
  | beat (w : SysF)
  /-- SPAWN (R302). Creates a child continuation and increments the hardware join. -/
  | spawn (w : A3)
  /-- JOIN (R303). Ends the continuation and decrements its join block, enqueueing the parent at zero. -/
  | join (w : SysF)
  /-- NOPW (R355). Idles the port for n cycles. -/
  | nopw (w : BankF)
  /-- BSET (R345). Sets a port register. -/
  | bset (w : BankF)
  /-- BSET_ADD (R345). Adds an immediate to a port register. -/
  | bsetAdd (w : BankF)
  /-- LOOPW (R355). Pushes a loop entry. -/
  | loopw (w : BankF)
  /-- ENDW (R355). Decrements the loop count and branches back, or pops. -/
  | endw (w : BankF)
  /-- JMPW (R355). Jumps by a word displacement. -/
  | jmpw (w : BankF)
  /-- HALTW (R355). Ends the port's program. -/
  | haltw (w : BankF)
  /-- SEMWW (R356). Takes c semaphore units as an acquire. -/
  | semww (w : BankF)
  /-- SEMSW (R356). Adds c to a semaphore as a release. -/
  | semsw (w : BankF)
  /-- MARKW (R357). Waits until earlier BANK and ORD accesses are performed at memory-die scope. -/
  | markw (w : BankF)
  /-- RESW (R358). Takes a reference to a resident expert, or suspends while it is fetched. -/
  | resw (w : BankF)
  /-- BCAST (R346). Loads A8 blocks into the broadcast buffers. -/
  | bcast (w : BankF)
  /-- ACCZ (R352). Frees and zeroes row slots. -/
  | accz (w : BankF)
  /-- DOT_K4 (R348). Multiplies K4 weight rows by broadcast activations into newly assigned slots. -/
  | dotK4 (w : BankF)
  /-- DOT_K4_CONT (R348). Continues K4 products into already assigned slots. -/
  | dotK4Cont (w : BankF)
  /-- DOT_KV (R349). Forms attention scores against KV8 key blocks. -/
  | dotKv (w : BankF)
  /-- AXPY (R350). Accumulates probability-weighted value rows along a chain across ports. -/
  | axpy (w : BankF)
  /-- CVT (R351). Waits until the port's conversion stages are empty. -/
  | cvt (w : BankF)
  /-- DRN (R353). Writes the results of assigned slots as 16-byte records. -/
  | drn (w : BankF)
  /-- KVW_K (R354). Appends KV8 key head-rows into their blocks. -/
  | kvwK (w : BankF)
  /-- KVW_V (R354). Appends KV8 value head-rows into their blocks. -/
  | kvwV (w : BankF)
  /-- RDW (R347). Reads columns into the move buffer. -/
  | rdw (w : BankF)
  /-- WRW (R347). Writes move-buffer columns to the die. -/
  | wrw (w : BankF)
  /-- SPDM_SECURED_SESSION (R55). An SPDM secured session is established between the device and the host's trusted security manager under the device certificate. -/
  | spdmSecuredSession (up : Bool)
  /-- HOST_LINK_TRAINING (R14). The host link trains, or retrains, to a width and rate, in FLIT or non-flit mode, which fixes the tag size and the limit on outstanding requests. -/
  | hostLinkTraining (lanes rate : Nat) (flit : Bool)
  /-- REGISTER_WINDOW_READ (R17). A host or peer read of the register window returns the register or half, or completes with Unsupported Request for a bad size or alignment, or off a bound IDE stream while the TDI is LOCKED or RUN, and is then logged. -/
  | registerWindowRead (src : Requester) (off size : Nat)
  /-- ILLEGAL_OPCODE (R238). A core issues a word whose opcode is 0x00, 0xFF, unassigned, or belongs to a feature that is not accepted, and ILLEGAL_OPCODE is raised precisely. -/
  | illegalOpcode (word : BitVec 64)
  /-- ILLEGAL_WORD (R127). A port begins a bank-command word with an undefined opcode, and the job stops with ILLEGAL_OPCODE, logs the error and signals its error semaphore. -/
  | illegalWord (word : BitVec 48)
  /-- POWER_ON (R25). Power is applied and a cold start begins, clearing FAIL_COUNT. -/
  | powerOn
  /-- POWER_LOSS (R25). Power is lost, which clears the always-on retention flag. -/
  | powerLoss
  /-- PCIE_FUNDAMENTAL_RESET (R25). A PCIe fundamental reset begins a cold start. -/
  | pcieFundamentalReset
  /-- FUNCTION_LEVEL_RESET (R25). A Function Level Reset requests a warm start (ignored in COLD_ONLY) and resets the function's configuration state. -/
  | functionLevelReset
  /-- BOOT_ROM_SELF_CHECK (R27). Start step 0x01 runs: the beat counter is cleared, DRV_FEAT is cleared and the boot ROM checks itself. -/
  | bootRomSelfCheck
  /-- READ_BOARD_LIMITS (R23). Start step 0x02 reads and checks the board limits block and loads BOARD_PWR with defaults, clamps or fallback values. -/
  | readBoardLimits
  /-- MEASURE_IMAGE (R33). Start step 0x04 measures the firmware image and verifies its signature, ending in progress, RECOVERY or rejection. -/
  | measureImage
  /-- TRAIN_CHANNELS (R27). Start step 0x05 trains the 96 memory channels, failing with TRAIN_FAIL on error. -/
  | trainChannels
  /-- BGU_SELF_TEST (R27). Start step 0x06 runs every bank-command word on every BGU and checks residue-error detection. -/
  | bguSelfTest
  /-- CLEAR_LOFT (R27). Start step 0x07 clears the loft to zero. -/
  | clearLoft
  /-- CALIBRATE_LOAD_MODEL (R22). Start step 0x08 calibrates the governor load model. -/
  | calibrateLoadModel
  /-- FEATURE_NEGOTIATION (R36). Start step 0x09 begins, acting on a remembered commit or waiting for FEAT_COMMIT. -/
  | featureNegotiation
  /-- STEP_TIMEOUT (R27). A start step exceeds its bound and fails with STEP_TIMEOUT. -/
  | stepTimeout
  /-- LOAD_IMAGE (R32). The LOAD_IMAGE mailbox command reads the firmware image from host memory and checks its format. -/
  | loadImage
  /-- RESYNC (R37). The RESYNC mailbox command captures the 4,096-byte summary on one beat and writes it to host memory. -/
  | resync
  /-- SPDM_MEASUREMENT_REPORT (R33). An SPDM request is answered with the signed measurement, device certificate and accepted feature words. -/
  | spdmMeasurementReport
  /-- QUEUE_RESET_DONE (R50). A queue reset finishes: HEAD and TAIL are cleared, ENABLE, HALT, CONTAINED and QSTAT are cleared, and DONE is set. -/
  | queueResetDone
  /-- CTX_INVALIDATE_DONE (R87). The invalidation has removed its entries and drained their accesses, and BUSY clears. -/
  | ctxInvalidateDone
  /-- WORK_ENTRY_READ (R41). Firmware reads the entry at HEAD, compares SEQNO, checks it and admits, rejects or contains it. -/
  | workEntryRead
  /-- ENTRY_REREAD (R41). The 2,600-beat timer expires and firmware re-reads an entry that was not yet written. -/
  | entryReread
  /-- OPERATOR_RECORD_EXPAND (R47). The front end reads and checks the next operator record and places its register writes in the shadow bank. -/
  | operatorRecordExpand
  /-- LAUNCH (R58). A LAUNCH record swaps in, loads pens and templates, and makes COUNT continuation records ready. -/
  | launch
  /-- COPY (R53). A COPY record swaps in and the BTE copies the source to the destination, with optional conversion and CRC checks. -/
  | copy
  /-- COPY_END (R53). A COPY finishes or stops on a CRC mismatch, writes RESULT, signals SIGSEM or ERRSEM and retires. -/
  | copyEnd
  /-- CONF_COPY (R56). A CONF_COPY record advances NEXT_CTR, holds the staging range and reads ciphertext over the IDE stream. -/
  | confCopy
  /-- CONF_COPY_TAG_CHECK (R56). The GCM tag is checked: the range is released and RESULT written, or the range is scrubbed and the entry ends TAG_FAIL. -/
  | confCopyTagCheck
  /-- INGEST (R136). An INGEST record places rows in bank-striped form, registering an expert where EXPERT names one. -/
  | ingest
  /-- INGEST_END (R137). The layout engine finishes placing the rows or fails, writes RESULT and signals SIGSEM or ERRSEM. -/
  | ingestEnd
  /-- HANDLE_SET (R51). A HANDLE_SET record makes a FREE slot SET and writes the handle to RESULT. -/
  | handleSet
  /-- HANDLE_FREE (R51). A HANDLE_FREE record makes a SET slot FREEING, or fails the entry with HANDLE_STALE. -/
  | handleFree
  /-- LAUNCH_RETIRE (R59). The launch's hardware join reaches zero and its jobs have drained, so the LAUNCH retires and the next record swaps in. -/
  | launchRetire
  /-- ENTRY_COMPLETION (R57). The entry's work has drained; the completion record is written in two parts, then SIGSEM is signalled and VECTOR sent. -/
  | entryCompletion
  /-- CONTINUATION_POP (R63). An idle core pops the first eligible continuation in key order, sets up its state and begins at CODE, or resumes saved state. -/
  | continuationPop
  /-- ENGINE_JOB_DISPATCH (R63). An idle engine takes its next job by dispatch key under the power condition. -/
  | engineJobDispatch
  /-- ENGINE_JOB_END (R315). An engine job ends, signalling its sig clause and setting its tag, or charging its fault as a deferred engine fault. -/
  | engineJobEnd
  /-- FORCED_SAVE (R182). CKPTINT expires before a CKPT, so the core saves its full state and yields. -/
  | forcedSave
  /-- DEADLINE_MISS (R71). An admitted entry has not drained by DEADLINE, and the continue or abort policy applies on the next beat. -/
  | deadlineMiss
  /-- THERMAL_SAMPLE (R24). Every 260 beats, temperature is sampled and ThermalBudget, clock throttling and shutdown are updated. -/
  | thermalSample
  /-- MODELLED_POWER_SAMPLE (R73). Every 260 beats, modelled power is evaluated and ballast is run where activity fell below the window floor. -/
  | modelledPowerSample
  /-- GOVERNOR_WINDOW_START (R74). A new governor window begins: the envelope is set from P_n, and ramp slots are granted to waiting launches. -/
  | governorWindowStart
  /-- REFRESH_END (R13). A refresh completes, and the paused BGU resumes its bank-program work. -/
  | refreshEnd
  /-- ORDINARY_ACCESS (R128). A waiting ordinary access is served in an ORD_SHARE cycle of the channel. -/
  | ordinaryAccess
  /-- REDUCTION_BLOCK_CONVERT (R123). A finished reduction block is residue-checked, converted and added to its accumulator. -/
  | reductionBlockConvert
  /-- BANK_JOB_END (R360). Every port has halted; writes are performed, SEQLEN is updated and expert references are released. -/
  | bankJobEnd
  /-- EXPERT_FETCH_COMPLETE (R143). The fetch's rows are placed, so the expert becomes RESIDENT and suspended jobs take references; or it fails. -/
  | expertFetchComplete
  /-- EXPERT_TIMEOUT (R144). A job stalled on an expert passes 1,024 × EXPERT_TIMEOUT beats, so it stops and its entry fails. -/
  | expertTimeout
  /-- MATRIX_ROW_LAND (R191). A streamed row's sums land in the accumulator 16 beats after it streams. -/
  | matrixRowLand
  /-- MSTRM_STAMP_START (R194). A stamped MSTRM reaches its start beat and begins, or raises SCHEDULE_MISS. -/
  | mstrmStampStart
  /-- LUNGE_OPERAND_DEMAND (R204). At due beat minus A, the array raises an operand demand for a row. -/
  | lungeOperandDemand
  /-- LUNGE_ROW_DUE (R206). A lunge row's due beat arrives; the row streams if on time, or else misses its beat. -/
  | lungeRowDue
  /-- INTERRUPT (R180). The core's INTSEM take is granted at a boundary, decrementing the semaphore and taking INTERRUPT. -/
  | interrupt
  /-- TDI_LOCK (R15). The TDI enters the LOCKED state, from which window requests off a bound selective IDE stream are refused and contexts may be bound. -/
  | tdiLock
  /-- TDI_START (R15). The TDI moves from LOCKED to RUN, the state that CONF_COPY requires. -/
  | tdiStart
  /-- INSTRUCTION_FETCH_FAULT (R227). The fetch of the word at F0 faults with TRANSLATION, PERMISSION or MEMTYPE, and the core traps before any instruction issues. -/
  | instructionFetchFault
  deriving DecidableEq, Repr

end Sys2Proof
end

