-- ==== Sys2Proof/Machine/Checks.lean ====
section
/-! DEFINITION. The decoding checks of R238 that look at the word alone: register specifiers (R229), e-bits (R230), the
source modifier (R231), fn (R232), the predicate (R233) and the M, B, E, S and L fields (R234-R237), one check per
instruction. A word that fails its check raises RESERVED_FIELD (0x02). -/

namespace Sys2Proof

/-- What a register field of an instruction accepts (R229): nothing, one file, a v or q register (shown V in the
manual's tables, R269), or a V register or a scalar (R278). -/
inductive Accepts where
  | none
  | s
  | v
  | q
  | k
  | vq
  | vqs
  deriving DecidableEq, Repr

/-- Specifier FILE field: 0 scalar, 1 vector, 2 stream, 3 mask (Table 12.2). -/
def specFile (x : Spec) : Nat := x.toNat / 64

/-- Specifier INDEX field (Table 12.2). -/
def specIdx (x : Spec) : Nat := x.toNat % 64

def isS (x : Spec) : Bool := specFile x == 0
def isV (x : Spec) : Bool := specFile x == 1 && decide (specIdx x < 32)
def isQ (x : Spec) : Bool := specFile x == 2 && decide (specIdx x < 16)
def isK (x : Spec) : Bool := specFile x == 3 && decide (specIdx x < 8)

/-- The specifier check of R229. -/
def regOk : Accepts → Spec → Bool
  | .none, x => x == 0
  | .s, x => isS x
  | .v, x => isV x
  | .q, x => isQ x
  | .k, x => isK x
  | .vq, x => isV x || isQ x
  | .vqs, x => isV x || isQ x || isS x

/-- A source field with its e-bit (R229, R230): the e-bit is 0 on an unused field and on a k or q register. -/
def srcOk (accepts : Accepts) (x : Spec) (e : Bool) : Bool :=
  regOk accepts x && (!e || (accepts != .none && (isS x || isV x)))

/-- The predicate 0b1000 is reserved (R233). -/
def predOk (p : BitVec 4) : Bool := p != 8

/-- The three integer element types .b, .h and .w (Table 12.4). -/
def intFn (fn : BitVec 5) : Bool := fn == 1 || fn == 2 || fn == 3

/-- The three floating-point element types .f32, .bf16 and .f16 (R275). -/
def fpFn (fn : BitVec 5) : Bool := fn == 8 || fn == 9 || fn == 10

/-- Lanes of a vector register at an integer element type (R270). -/
def intLanes (fn : BitVec 5) : Nat := if fn == 1 then 128 else if fn == 2 then 64 else 32

/-- Lanes of a vector register at a floating-point element type (R270). -/
def fpLanes (fn : BitVec 5) : Nat := if fn == 8 then 32 else 64

/-- The register fields, their e-bits and the predicate of an A3 word. -/
def A3.regs (w : A3) (kd ka kb kc : Accepts) : Bool :=
  regOk kd w.d && srcOk ka w.a w.ea && srcOk kb w.b w.eb && srcOk kc w.c w.ec && predOk w.pred

/-- No source modifier (R231). -/
def A3.plainMod (w : A3) : Bool := w.modA == 0

/-- A source modifier that R231 accepts at `n` lanes: none, or one on a v register with a segment of at most `n`
lanes and a distance inside it. -/
def A3.modOk (w : A3) (n : Nat) : Bool :=
  w.modA == 0 ||
    (isV w.a && fld w.modA.toNat 10 2 != 0 && decide (fld w.modA.toNat 6 4 ≤ 7)
      && decide (2 ^ fld w.modA.toNat 6 4 ≤ n) && decide (fld w.modA.toNat 0 6 < 2 ^ fld w.modA.toNat 6 4))

/-- The limits on q registers of R269: one field of a word at most, and a q destination only under the predicate 0. -/
def A3.streamsOk (w : A3) : Bool :=
  (!(isQ w.d) || (w.pred == 0 && w.d != w.a && w.d != w.b && w.d != w.c))
    && (!(isQ w.a) || (w.a != w.b && w.a != w.c)) && (!(isQ w.b) || w.b != w.c)

def I32.regs (w : I32) (kd ka : Accepts) : Bool := regOk kd w.d && srcOk ka w.a w.ea && predOk w.pred

def BrF.regs (w : BrF) (ka kb : Accepts) : Bool := srcOk ka w.a w.ea && srcOk kb w.b w.eb && predOk w.pred

def MemF.regs (w : MemF) (kd : Accepts) : Bool := regOk kd w.d && srcOk .s w.base w.eb && predOk w.pred

/-- The order and scope fields (R105, R104): which orders the instruction takes, scopes 0-11, and no scope on a plain
access. -/
def MemF.orderOk (w : MemF) (acq rel ar : Bool) : Bool :=
  (w.order == 0 && w.scope == 0
    || w.order == 1 && acq || w.order == 2 && rel || w.order == 3 && ar) && decide (w.scope.toNat < 12)

/-- The atomicity field of a scalar access (R234): 0b11 is reserved, and .a8 and .a16 need size .d. -/
def MemF.atomOk (w : MemF) : Bool := w.atom == 0 || (w.atom != 3 && w.size == 3)

/-- A 16-byte scalar access uses an even register pair below s63 (R292). -/
def MemF.pairOk (w : MemF) : Bool := w.atom != 2 || (w.d.toNat % 2 == 0 && decide (w.d.toNat < 63))

/-- The operand sizes an atomic accepts (R295). -/
def MemF.atomicSize (w : MemF) (d64 d128 : Bool) : Bool :=
  (w.size == 2 && w.atom == 0) || (w.size == 3 && (w.atom == 0 || w.atom == 1) && d64)
    || (w.size == 3 && w.atom == 2 && d128)

def SysF.regs (w : SysF) (kd ka : Accepts) : Bool := regOk kd w.d && srcOk ka w.a w.ea && predOk w.pred

/-- The scope of a FENCE or XFENCE (R297): 0-11 but not 4 or 5, which R104 refuses there. -/
def fenceScope (ctl : BitVec 12) : Bool :=
  decide (ctl.toNat % 16 < 12) && ctl.toNat % 16 != 4 && ctl.toNat % 16 != 5

/-- The width in bits of a scalar format, by its FORMAT code (Table 5.7, R285). -/
def fmtWidth (f : Nat) : Nat :=
  if f == 1 || f == 8 then 32 else if f == 2 || f == 3 then 16 else if f == 6 then 4 else 8

/-- ctl of vcvt (Table 14.6, R286): two different scalar formats and a PART below wide / narrow. -/
def cvtCtl (ctl : Nat) : Bool :=
  let s := fld ctl 4 4
  let d := fld ctl 0 4
  decide (fld ctl 11 1 = 0 ∧ 1 ≤ s ∧ s ≤ 8 ∧ 1 ≤ d ∧ d ≤ 8 ∧ s ≠ d)
    && decide (fld ctl 8 3 < max (fmtWidth s) (fmtWidth d) / min (fmtWidth s) (fmtWidth d))

/-- Elements of a block of a block format: 256 for K4, 128 for A8 and KV8 (Table 11.3). -/
def blockElems (f : Nat) : Nat := if f == 9 then 256 else 128

/-- Registers that a vqnt group spans (R287). -/
def groupRegs (s d : Nat) : Nat := max 1 (blockElems d * fmtWidth s / 1024)

/-- ctl and the group registers of vqnt (Table 14.6, R287). -/
def qntCtl (ctl : Nat) (a : Spec) (scode : Bool) : Bool :=
  let s := fld ctl 4 4
  let d := fld ctl 0 4
  (fld ctl 11 1 == 1) == scode && fld ctl 8 3 == 0 && decide (1 ≤ s ∧ s ≤ 8 ∧ 9 ≤ d ∧ d ≤ 11)
    && specIdx a % groupRegs s d == 0 && decide (specIdx a + groupRegs s d ≤ 32)

/-- ctl of vdqnt (Table 14.6, R288). -/
def dqntCtl (ctl : Nat) : Bool :=
  let s := fld ctl 4 4
  let d := fld ctl 0 4
  decide (fld ctl 11 1 = 0 ∧ 9 ≤ s ∧ s ≤ 11 ∧ 1 ≤ d ∧ d ≤ 3)
    && decide (fld ctl 8 3 < blockElems s / (1024 / fmtWidth d))

def EngF.regs (w : EngF) (kd kdesc : Accepts) : Bool := regOk kd w.d && srcOk kdesc w.desc w.e && predOk w.pred

/-- No start stamp (R236). -/
def EngF.noStamp (w : EngF) : Bool := !w.stampEn && w.stampOff == 0

/-- A start stamp is allowed; without it the offset is 0 (R236). -/
def EngF.stampOk (w : EngF) : Bool := w.stampEn || w.stampOff == 0

/-- No clause at all (Table 16.1). -/
def EngF.noClauses (w : EngF) : Bool := w.noStamp && w.waitsem == 0 && w.sigsem == 0 && w.tag == 0

/-- The destination pair of pxlook and pxins: even, s2 to s62 (R336). -/
def pxPair (d : Spec) : Bool := d.toNat % 2 == 0 && decide (2 ≤ d.toNat)

/-- The control register numbers of Table 9.1 and R92. -/
def ctlListed (n : Nat) : Bool :=
  decide (n ≤ 0x00C ∨ (0x010 ≤ n ∧ n ≤ 0x01C) ∨ (0x020 ≤ n ∧ n ≤ 0x023) ∨ n = 0x030 ∨ n = 0x031
    ∨ (0x040 ≤ n ∧ n ≤ 0x042) ∨ (0x400 ≤ n ∧ n ≤ 0x43F))

/-- The encoding checks of ADD (R248, R238). -/
def checkAdd (w : A3) : Bool :=
  w.regs .s .s .s .none && w.fn == 0 && w.plainMod

/-- The encoding checks of SUB (R248, R238). -/
def checkSub (w : A3) : Bool :=
  w.regs .s .s .s .none && w.fn == 0 && w.plainMod

/-- The encoding checks of MUL (R248, R238). -/
def checkMul (w : A3) : Bool :=
  w.regs .s .s .s .none && w.fn == 0 && w.plainMod

/-- The encoding checks of MULHI (R248, R238). -/
def checkMulhi (w : A3) : Bool :=
  w.regs .s .s .s .none && w.fn == 0 && w.plainMod

/-- The encoding checks of MULHS (R248, R238). -/
def checkMulhs (w : A3) : Bool :=
  w.regs .s .s .s .none && w.fn == 0 && w.plainMod

/-- The encoding checks of DIV (R249, R238). -/
def checkDiv (w : A3) : Bool :=
  w.regs .s .s .s .none && w.fn == 0 && w.plainMod

/-- The encoding checks of DIVS (R249, R238). -/
def checkDivs (w : A3) : Bool :=
  w.regs .s .s .s .none && w.fn == 0 && w.plainMod

/-- The encoding checks of REM (R249, R238). -/
def checkRem (w : A3) : Bool :=
  w.regs .s .s .s .none && w.fn == 0 && w.plainMod

/-- The encoding checks of REMS (R249, R238). -/
def checkRems (w : A3) : Bool :=
  w.regs .s .s .s .none && w.fn == 0 && w.plainMod

/-- The encoding checks of AND (R248, R238). -/
def checkAnd (w : A3) : Bool :=
  w.regs .s .s .s .none && w.fn == 0 && w.plainMod

/-- The encoding checks of OR (R248, R238). -/
def checkOr (w : A3) : Bool :=
  w.regs .s .s .s .none && w.fn == 0 && w.plainMod

/-- The encoding checks of XOR (R248, R238). -/
def checkXor (w : A3) : Bool :=
  w.regs .s .s .s .none && w.fn == 0 && w.plainMod

/-- The encoding checks of SHL (R250, R238). -/
def checkShl (w : A3) : Bool :=
  w.regs .s .s .s .none && w.fn == 0 && w.plainMod

/-- The encoding checks of SHR (R250, R238). -/
def checkShr (w : A3) : Bool :=
  w.regs .s .s .s .none && w.fn == 0 && w.plainMod

/-- The encoding checks of SRA (R250, R238). -/
def checkSra (w : A3) : Bool :=
  w.regs .s .s .s .none && w.fn == 0 && w.plainMod

/-- The encoding checks of ROT (R250, R238). -/
def checkRot (w : A3) : Bool :=
  w.regs .s .s .s .none && w.fn == 0 && w.plainMod

/-- The encoding checks of CLZ (R248, R238). -/
def checkClz (w : A3) : Bool :=
  w.regs .s .s .none .none && w.fn == 0 && w.plainMod

/-- The encoding checks of CTZ (R248, R238). -/
def checkCtz (w : A3) : Bool :=
  w.regs .s .s .none .none && w.fn == 0 && w.plainMod

/-- The encoding checks of POPC (R248, R238). -/
def checkPopc (w : A3) : Bool :=
  w.regs .s .s .none .none && w.fn == 0 && w.plainMod

/-- The encoding checks of BEXT (R251, R238). -/
def checkBext (w : A3) : Bool :=
  w.regs .s .s .s .none && w.fn == 0 && w.plainMod

/-- The encoding checks of BINS (R251, R238). -/
def checkBins (w : A3) : Bool :=
  w.regs .s .s .s .s && w.fn == 0 && w.plainMod

/-- The encoding checks of MIN (R248, R238). -/
def checkMin (w : A3) : Bool :=
  w.regs .s .s .s .none && w.fn == 0 && w.plainMod

/-- The encoding checks of MAX (R248, R238). -/
def checkMax (w : A3) : Bool :=
  w.regs .s .s .s .none && w.fn == 0 && w.plainMod

/-- The encoding checks of MINS (R248, R238). -/
def checkMins (w : A3) : Bool :=
  w.regs .s .s .s .none && w.fn == 0 && w.plainMod

/-- The encoding checks of MAXS (R248, R238). -/
def checkMaxs (w : A3) : Bool :=
  w.regs .s .s .s .none && w.fn == 0 && w.plainMod

/-- The encoding checks of CMP (R248, R238). -/
def checkCmp (w : A3) : Bool :=
  w.regs .s .s (if w.fn.toNat < 6 then .s else .none) .none && decide (w.fn.toNat < 8) && w.plainMod

/-- The encoding checks of SEL (R248, R238). -/
def checkSel (w : A3) : Bool :=
  w.regs .s .s .s .s && w.fn == 0 && w.plainMod

/-- The encoding checks of ADDI (R252, R238). -/
def checkAddi (w : I32) : Bool :=
  w.regs .s .s && w.fn == 0

/-- The encoding checks of ANDI (R252, R238). -/
def checkAndi (w : I32) : Bool :=
  w.regs .s .s && w.fn == 0

/-- The encoding checks of ORI (R252, R238). -/
def checkOri (w : I32) : Bool :=
  w.regs .s .s && w.fn == 0

/-- The encoding checks of XORI (R252, R238). -/
def checkXori (w : I32) : Bool :=
  w.regs .s .s && w.fn == 0

/-- The encoding checks of SHLI (R252, R238). -/
def checkShli (w : I32) : Bool :=
  w.regs .s .s && w.fn == 0 && decide (w.imm.toNat < 64)

/-- The encoding checks of SHRI (R252, R238). -/
def checkShri (w : I32) : Bool :=
  w.regs .s .s && w.fn == 0 && decide (w.imm.toNat < 64)

/-- The encoding checks of SRAI (R252, R238). -/
def checkSrai (w : I32) : Bool :=
  w.regs .s .s && w.fn == 0 && decide (w.imm.toNat < 64)

/-- The encoding checks of LDI (R252, R238). -/
def checkLdi (w : I32) : Bool :=
  w.regs .s .none && w.fn == 0

/-- The encoding checks of LDIH (R252, R238). -/
def checkLdih (w : I32) : Bool :=
  w.regs .s .s && w.fn == 0

/-- The encoding checks of LEA (R252, R238). -/
def checkLea (w : I32) : Bool :=
  w.regs .s .none && w.fn == 0

/-- The encoding checks of BR (R253, R238). -/
def checkBr (w : BrF) : Bool :=
  w.regs .s (if w.cond.toNat < 6 then .s else .none) && decide (w.cond.toNat < 8) && w.null != 3

/-- The encoding checks of J (R253, R238). -/
def checkJ (w : BrF) : Bool :=
  w.regs .none .none && w.cond == 0 && (w.null == 0 || w.null == 2)

/-- The encoding checks of CALL (R253, R238). -/
def checkCall (w : BrF) : Bool :=
  w.regs .none .none && w.cond == 0 && (w.null == 0 || w.null == 2)

/-- The encoding checks of JR (R254, R238). -/
def checkJr (w : A3) : Bool :=
  w.regs .none .s .none .none && (w.fn == 0 || w.fn == 2) && w.plainMod

/-- The encoding checks of CALLR (R254, R238). -/
def checkCallr (w : A3) : Bool :=
  w.regs .none .s .none .none && (w.fn == 0 || w.fn == 2) && w.plainMod

/-- The encoding checks of RET (R254, R238). -/
def checkRet (w : A3) : Bool :=
  w.regs .none .none .none .none && (w.fn == 0 || w.fn == 2) && w.plainMod

/-- The encoding checks of LOOPM (R256, R238). -/
def checkLoopm (w : LoopF) : Bool :=
  srcOk .s w.a w.ea && w.ii != 0 && w.sc != 0 && w.rsv == 0 && decide (w.ii.toNat * w.sc.toNat ≤ 256) && predOk w.pred

/-- The encoding checks of LD (R292, R238). -/
def checkLd (w : MemF) : Bool :=
  w.regs .s && w.orderOk true false false && w.atomOk && w.pairOk

/-- The encoding checks of LDX (R292, R238). -/
def checkLdx (w : MemF) : Bool :=
  w.regs .s && w.orderOk true false false && w.atomOk && w.pairOk

/-- The encoding checks of ST (R292, R238). -/
def checkSt (w : MemF) : Bool :=
  w.regs .s && w.orderOk false true false && w.atomOk && w.pairOk

/-- The encoding checks of PREF (R292, R238). -/
def checkPref (w : MemF) : Bool :=
  w.regs .none && w.size == 0 && w.atom == 0 && w.order == 0 && w.scope == 0

/-- The encoding checks of VLD (R293, R238). -/
def checkVld (w : MemF) : Bool :=
  w.regs .v && w.orderOk true false false && w.atom != 3 && w.size != 3

/-- The encoding checks of VST (R293, R238). -/
def checkVst (w : MemF) : Bool :=
  w.regs .v && w.orderOk false true false && w.atom != 3 && w.size != 3

/-- The encoding checks of VLDS (R294, R238). -/
def checkVlds (w : A3) : Bool :=
  w.regs .v .s .s .none && intFn w.fn && w.plainMod

/-- The encoding checks of VGATH (R294, R238). -/
def checkVgath (w : A3) : Bool :=
  w.regs .v .s .v .none && intFn w.fn && w.plainMod

/-- The encoding checks of VSCAT (R294, R238). -/
def checkVscat (w : A3) : Bool :=
  w.regs .v .s .v .none && intFn w.fn && w.plainMod

/-- The encoding checks of AADD (R295, R238). -/
def checkAadd (w : MemF) : Bool :=
  w.regs .s && w.orderOk true true true && w.atomicSize true false

/-- The encoding checks of AMIN (R295, R238). -/
def checkAmin (w : MemF) : Bool :=
  w.regs .s && w.orderOk true true true && w.atomicSize true false

/-- The encoding checks of AMAX (R295, R238). -/
def checkAmax (w : MemF) : Bool :=
  w.regs .s && w.orderOk true true true && w.atomicSize true false

/-- The encoding checks of AAND (R295, R238). -/
def checkAand (w : MemF) : Bool :=
  w.regs .s && w.orderOk true true true && w.atomicSize true false

/-- The encoding checks of AOR (R295, R238). -/
def checkAor (w : MemF) : Bool :=
  w.regs .s && w.orderOk true true true && w.atomicSize true false

/-- The encoding checks of AXOR (R295, R238). -/
def checkAxor (w : MemF) : Bool :=
  w.regs .s && w.orderOk true true true && w.atomicSize true false

/-- The encoding checks of AXCHG (R295, R238). -/
def checkAxchg (w : MemF) : Bool :=
  w.regs .s && w.orderOk true true true && w.atomicSize true true && (w.atom != 2 || w.d.toNat % 2 == 0)

/-- The encoding checks of ACAS (R295, R238). -/
def checkAcas (w : MemF) : Bool :=
  w.regs .s && w.orderOk true true true && w.atomicSize true true && w.d.toNat % (if w.atom == 2 then 4 else 2) == 0

/-- The encoding checks of AFADD (R295, R238). -/
def checkAfadd (w : MemF) : Bool :=
  w.regs .s && w.orderOk true true true && w.atomicSize false false

/-- The encoding checks of AFAMAX (R296, R238). -/
def checkAfamax (w : MemF) : Bool :=
  w.regs .s && w.orderOk true true true && w.atomicSize false false

/-- The encoding checks of FENCE (R107, R238). -/
def checkFence (w : SysF) : Bool :=
  w.regs .none .none && w.imm == 0 && fenceScope w.ctl && decide (w.ctl.toNat < 16)

/-- The encoding checks of XFENCE (R111, R238). -/
def checkXfence (w : SysF) : Bool :=
  w.regs .none .none && w.imm == 0 && fenceScope w.ctl && decide (fld w.ctl.toNat 4 3 < 6) && decide (fld w.ctl.toNat 7 3 < 6) && decide (w.ctl.toNat < 1024)

/-- The encoding checks of MARK (R103, R238). -/
def checkMark (w : SysF) : Bool :=
  w.regs .none .none && w.imm == 0 && w.ctl == 0

/-- The encoding checks of SEMW (R299, R238). -/
def checkSemw (w : SysF) : Bool :=
  w.regs .none .none && decide (w.ctl.toNat < 256) && decide (w.imm.toNat < 65536) && w.imm != 0

/-- The encoding checks of SEMS (R299, R238). -/
def checkSems (w : SysF) : Bool :=
  w.regs .none .none && decide (w.ctl.toNat < 256) && decide (w.imm.toNat < 65536) && w.imm != 0

/-- The encoding checks of SEMI (R299, R238). -/
def checkSemi (w : SysF) : Bool :=
  w.regs .none .none && decide (w.ctl.toNat < 256) && decide (w.imm.toNat < 65536)

/-- The encoding checks of SEMR (R299, R238). -/
def checkSemr (w : SysF) : Bool :=
  w.regs .none .none && decide (w.ctl.toNat < 256) && w.imm == 0

/-- The encoding checks of PBAR (R300, R238). -/
def checkPbar (w : SysF) : Bool :=
  w.regs .none .none && decide (w.ctl.toNat < 256) && w.imm == 0

/-- The encoding checks of ACQS (R301, R238). -/
def checkAcqs (w : SysF) : Bool :=
  w.regs .none .none && decide (w.ctl.toNat < 16) && w.imm == 0

/-- The encoding checks of RELS (R301, R238). -/
def checkRels (w : SysF) : Bool :=
  w.regs .none .s && decide (w.ctl.toNat < 128) && w.imm == 0

/-- The encoding checks of WAITT_ANY (R305, R238). -/
def checkWaittAny (w : SysF) : Bool :=
  w.regs .none .s && w.ctl == 0 && w.imm == 0

/-- The encoding checks of WAITT_ALL (R305, R238). -/
def checkWaittAll (w : SysF) : Bool :=
  w.regs .none .s && w.ctl == 1 && w.imm == 0

/-- The encoding checks of FFRT (R305, R238). -/
def checkFfrt (w : SysF) : Bool :=
  w.regs .s .s && w.ctl == 0 && w.imm == 0

/-- The encoding checks of VADD (R273, R238). -/
def checkVadd (w : A3) : Bool :=
  w.regs .vq .vq .vq .none && intFn w.fn && w.modOk (intLanes w.fn) && w.streamsOk

/-- The encoding checks of VSUB (R273, R238). -/
def checkVsub (w : A3) : Bool :=
  w.regs .vq .vq .vq .none && intFn w.fn && w.modOk (intLanes w.fn) && w.streamsOk

/-- The encoding checks of VMUL (R273, R238). -/
def checkVmul (w : A3) : Bool :=
  w.regs .vq .vq .vq .none && intFn w.fn && w.modOk (intLanes w.fn) && w.streamsOk

/-- The encoding checks of VMAD (R273, R238). -/
def checkVmad (w : A3) : Bool :=
  w.regs .vq .vq .vq .vq && intFn w.fn && w.modOk (intLanes w.fn) && w.streamsOk

/-- The encoding checks of VMIN (R273, R238). -/
def checkVmin (w : A3) : Bool :=
  w.regs .vq .vq .vq .none && intFn w.fn && w.modOk (intLanes w.fn) && w.streamsOk

/-- The encoding checks of VMAX (R273, R238). -/
def checkVmax (w : A3) : Bool :=
  w.regs .vq .vq .vq .none && intFn w.fn && w.modOk (intLanes w.fn) && w.streamsOk

/-- The encoding checks of VAND (R273, R238). -/
def checkVand (w : A3) : Bool :=
  w.regs .vq .vq .vq .none && intFn w.fn && w.modOk (intLanes w.fn) && w.streamsOk

/-- The encoding checks of VOR (R273, R238). -/
def checkVor (w : A3) : Bool :=
  w.regs .vq .vq .vq .none && intFn w.fn && w.modOk (intLanes w.fn) && w.streamsOk

/-- The encoding checks of VXOR (R273, R238). -/
def checkVxor (w : A3) : Bool :=
  w.regs .vq .vq .vq .none && intFn w.fn && w.modOk (intLanes w.fn) && w.streamsOk

/-- The encoding checks of VSHL (R273, R238). -/
def checkVshl (w : A3) : Bool :=
  w.regs .vq .vq .vq .none && intFn w.fn && w.modOk (intLanes w.fn) && w.streamsOk

/-- The encoding checks of VSHR (R273, R238). -/
def checkVshr (w : A3) : Bool :=
  w.regs .vq .vq .vq .none && intFn w.fn && w.modOk (intLanes w.fn) && w.streamsOk

/-- The encoding checks of VSRA (R273, R238). -/
def checkVsra (w : A3) : Bool :=
  w.regs .vq .vq .vq .none && intFn w.fn && w.modOk (intLanes w.fn) && w.streamsOk

/-- The encoding checks of VCMP (R274, R238). -/
def checkVcmp (w : A3) : Bool :=
  w.regs .k .vq (if w.fn.toNat % 8 < 6 then .vq else .none) .none && decide (w.fn.toNat < 24) && w.modOk (128 / 2 ^ (w.fn.toNat / 8)) && w.streamsOk

/-- The encoding checks of VSEL (R273, R238). -/
def checkVsel (w : A3) : Bool :=
  w.regs .vq .k .vq .vq && intFn w.fn && w.plainMod && w.streamsOk

/-- The encoding checks of VABS (R273, R238). -/
def checkVabs (w : A3) : Bool :=
  w.regs .vq .vq .none .none && intFn w.fn && w.modOk (intLanes w.fn) && w.streamsOk

/-- The encoding checks of VPOPC (R273, R238). -/
def checkVpopc (w : A3) : Bool :=
  w.regs .vq .vq .none .none && intFn w.fn && w.modOk (intLanes w.fn) && w.streamsOk

/-- The encoding checks of VCLZ (R273, R238). -/
def checkVclz (w : A3) : Bool :=
  w.regs .vq .vq .none .none && intFn w.fn && w.modOk (intLanes w.fn) && w.streamsOk

/-- The encoding checks of VFADD (R276, R238). -/
def checkVfadd (w : A3) : Bool :=
  w.regs .vq .vq .vq .none && fpFn w.fn && w.modOk (fpLanes w.fn) && w.streamsOk

/-- The encoding checks of VFSUB (R276, R238). -/
def checkVfsub (w : A3) : Bool :=
  w.regs .vq .vq .vq .none && fpFn w.fn && w.modOk (fpLanes w.fn) && w.streamsOk

/-- The encoding checks of VFMUL (R276, R238). -/
def checkVfmul (w : A3) : Bool :=
  w.regs .vq .vq .vq .none && fpFn w.fn && w.modOk (fpLanes w.fn) && w.streamsOk

/-- The encoding checks of VFMA (R276, R238). -/
def checkVfma (w : A3) : Bool :=
  w.regs .vq .vq .vq .vq && fpFn w.fn && w.modOk (fpLanes w.fn) && w.streamsOk

/-- The encoding checks of VFMIN (R276, R238). -/
def checkVfmin (w : A3) : Bool :=
  w.regs .vq .vq .vq .none && fpFn w.fn && w.modOk (fpLanes w.fn) && w.streamsOk

/-- The encoding checks of VFMAX (R276, R238). -/
def checkVfmax (w : A3) : Bool :=
  w.regs .vq .vq .vq .none && fpFn w.fn && w.modOk (fpLanes w.fn) && w.streamsOk

/-- The encoding checks of VFCMP (R277, R238). -/
def checkVfcmp (w : A3) : Bool :=
  w.regs .k .vq (if w.fn.toNat % 8 < 6 then .vq else .none) .none && decide (w.fn.toNat < 24) && w.fn.toNat % 8 != 4 && w.fn.toNat % 8 != 5 && w.modOk (if w.fn.toNat < 8 then 32 else 64) && w.streamsOk

/-- The encoding checks of VFABS (R276, R238). -/
def checkVfabs (w : A3) : Bool :=
  w.regs .vq .vq .none .none && fpFn w.fn && w.modOk (fpLanes w.fn) && w.streamsOk

/-- The encoding checks of VFNEG (R276, R238). -/
def checkVfneg (w : A3) : Bool :=
  w.regs .vq .vq .none .none && fpFn w.fn && w.modOk (fpLanes w.fn) && w.streamsOk

/-- The encoding checks of VEXP2 (R279, R238). -/
def checkVexp2 (w : A3) : Bool :=
  w.regs .vq .vq .none .none && fpFn w.fn && w.modOk (fpLanes w.fn) && w.streamsOk

/-- The encoding checks of VLOG2 (R279, R238). -/
def checkVlog2 (w : A3) : Bool :=
  w.regs .vq .vq .none .none && fpFn w.fn && w.modOk (fpLanes w.fn) && w.streamsOk

/-- The encoding checks of VRCP (R279, R238). -/
def checkVrcp (w : A3) : Bool :=
  w.regs .vq .vq .none .none && fpFn w.fn && w.modOk (fpLanes w.fn) && w.streamsOk

/-- The encoding checks of VRSQ (R279, R238). -/
def checkVrsq (w : A3) : Bool :=
  w.regs .vq .vq .none .none && fpFn w.fn && w.modOk (fpLanes w.fn) && w.streamsOk

/-- The encoding checks of VSQRT (R279, R238). -/
def checkVsqrt (w : A3) : Bool :=
  w.regs .vq .vq .none .none && fpFn w.fn && w.modOk (fpLanes w.fn) && w.streamsOk

/-- The encoding checks of VEADD (R278, R238). -/
def checkVeadd (w : A3) : Bool :=
  w.regs .vq .vq .vqs .none && fpFn w.fn && w.modOk (fpLanes w.fn) && w.streamsOk

/-- The encoding checks of VMOV (R280, R238). -/
def checkVmov (w : A3) : Bool :=
  w.regs .vq .vq .none .none && intFn w.fn && w.modOk (intLanes w.fn) && w.streamsOk

/-- The encoding checks of VBCAST (R280, R238). -/
def checkVbcast (w : A3) : Bool :=
  w.regs .vq .s .none .none && intFn w.fn && w.plainMod && w.streamsOk

/-- The encoding checks of VEXT (R280, R238). -/
def checkVext (w : A3) : Bool :=
  w.regs .s .vq .s .none && intFn w.fn && w.modOk (intLanes w.fn) && w.streamsOk

/-- The encoding checks of VINS (R280, R238). -/
def checkVins (w : A3) : Bool :=
  w.regs .v .s .s .none && intFn w.fn && w.plainMod

/-- The encoding checks of VPERM (R280, R238). -/
def checkVperm (w : A3) : Bool :=
  w.regs .vq .vq .vq .none && intFn w.fn && w.modOk (intLanes w.fn) && w.streamsOk

/-- The encoding checks of VCOMP (R281, R238). -/
def checkVcomp (w : A3) : Bool :=
  w.regs .vq .vq .none .none && intFn w.fn && w.modOk (intLanes w.fn) && w.streamsOk

/-- The encoding checks of VIOTA (R280, R238). -/
def checkViota (w : A3) : Bool :=
  w.regs .vq .s .none .none && intFn w.fn && w.plainMod && w.streamsOk

/-- The encoding checks of VCVT (R286, R238). -/
def checkVcvt (w : SysF) : Bool :=
  w.regs .v .v && w.imm == 0 && cvtCtl w.ctl.toNat

/-- The encoding checks of VQNT (R287, R238). -/
def checkVqnt (w : SysF) : Bool :=
  w.regs .v .v && w.imm == 0 && qntCtl w.ctl.toNat w.a false && w.pred == 0

/-- The encoding checks of VQNT_SC (R287, R238). -/
def checkVqntSc (w : SysF) : Bool :=
  w.regs .s .v && w.imm == 0 && qntCtl w.ctl.toNat w.a true && w.pred == 0

/-- The encoding checks of VDQNT (R288, R238). -/
def checkVdqnt (w : SysF) : Bool :=
  w.regs .v .v && w.imm == 0 && dqntCtl w.ctl.toNat

/-- The encoding checks of VSCL (R289, R238). -/
def checkVscl (w : SysF) : Bool :=
  w.regs .v .s && w.imm == 0 && decide (1 ≤ w.ctl.toNat) && decide (w.ctl.toNat ≤ 3)

/-- The encoding checks of KAND (R290, R238). -/
def checkKand (w : A3) : Bool :=
  w.regs .k .k .k .none && w.fn == 0 && w.plainMod

/-- The encoding checks of KOR (R290, R238). -/
def checkKor (w : A3) : Bool :=
  w.regs .k .k .k .none && w.fn == 0 && w.plainMod

/-- The encoding checks of KXOR (R290, R238). -/
def checkKxor (w : A3) : Bool :=
  w.regs .k .k .k .none && w.fn == 0 && w.plainMod

/-- The encoding checks of KNOT (R290, R238). -/
def checkKnot (w : A3) : Bool :=
  w.regs .k .k .none .none && w.fn == 0 && w.plainMod

/-- The encoding checks of KMOV (R290, R238). -/
def checkKmov (w : A3) : Bool :=
  w.regs .k .k .none .none && w.fn == 0 && w.plainMod

/-- The encoding checks of KMOV_L64_TO_MASK (R290, R238). -/
def checkKmovL64ToMask (w : A3) : Bool :=
  w.regs .k .s .none .none && w.fn == 1 && w.plainMod

/-- The encoding checks of KMOV_H64_TO_MASK (R290, R238). -/
def checkKmovH64ToMask (w : A3) : Bool :=
  w.regs .k .s .none .none && w.fn == 2 && w.plainMod

/-- The encoding checks of KMOV_L64_TO_SCALAR (R290, R238). -/
def checkKmovL64ToScalar (w : A3) : Bool :=
  w.regs .s .k .none .none && w.fn == 3 && w.plainMod

/-- The encoding checks of KMOV_H64_TO_SCALAR (R290, R238). -/
def checkKmovH64ToScalar (w : A3) : Bool :=
  w.regs .s .k .none .none && w.fn == 4 && w.plainMod

/-- The encoding checks of KPOP (R290, R238). -/
def checkKpop (w : A3) : Bool :=
  w.regs .s .k .none .none && intFn w.fn && w.plainMod

/-- The encoding checks of KFF (R290, R238). -/
def checkKff (w : A3) : Bool :=
  w.regs .s .k .none .none && intFn w.fn && w.plainMod

/-- The encoding checks of VRSUM (R282, R238). -/
def checkVrsum (w : A3) : Bool :=
  w.regs .s .vq .none .none && intFn w.fn && w.modOk (intLanes w.fn) && w.streamsOk

/-- The encoding checks of VRMAX (R282, R238). -/
def checkVrmax (w : A3) : Bool :=
  w.regs .s .vq .none .none && intFn w.fn && w.modOk (intLanes w.fn) && w.streamsOk

/-- The encoding checks of VRMIN (R282, R238). -/
def checkVrmin (w : A3) : Bool :=
  w.regs .s .vq .none .none && intFn w.fn && w.modOk (intLanes w.fn) && w.streamsOk

/-- The encoding checks of VRFSUM (R283, R238). -/
def checkVrfsum (w : A3) : Bool :=
  w.regs .s .vq .none .none && fpFn w.fn && w.modOk (fpLanes w.fn) && w.streamsOk

/-- The encoding checks of VRFMAX (R283, R238). -/
def checkVrfmax (w : A3) : Bool :=
  w.regs .s .vq .none .none && fpFn w.fn && w.modOk (fpLanes w.fn) && w.streamsOk

/-- The encoding checks of VRAMAX (R283, R238). -/
def checkVramax (w : A3) : Bool :=
  w.regs .s .vq .none .none && fpFn w.fn && w.modOk (fpLanes w.fn) && w.streamsOk

/-- The encoding checks of VRARG (R284, R238). -/
def checkVrarg (w : A3) : Bool :=
  w.regs .s .vq .none .none && (intFn w.fn || fpFn w.fn) && w.modOk (if intFn w.fn then intLanes w.fn else fpLanes w.fn) && w.streamsOk

/-- The encoding checks of MLDS (R318, R238). -/
def checkMlds (w : EngF) : Bool :=
  w.regs .none .s && w.noStamp

/-- The encoding checks of MSWAP (R190, R238). -/
def checkMswap (w : EngF) : Bool :=
  w.regs .none .none && w.noStamp

/-- The encoding checks of MSTRM (R320, R238). -/
def checkMstrm (w : EngF) : Bool :=
  w.regs (if w.stampEn then .s else .none) .s && w.stampOk

/-- The encoding checks of MDRN (R321, R238). -/
def checkMdrn (w : EngF) : Bool :=
  w.regs .none .s && w.noStamp

/-- The encoding checks of MZERO (R321, R238). -/
def checkMzero (w : EngF) : Bool :=
  w.regs .none .s && w.noStamp

/-- The encoding checks of MEADD (R321, R238). -/
def checkMeadd (w : EngF) : Bool :=
  w.regs .none .s && w.noStamp

/-- The encoding checks of MSCL (R322, R238). -/
def checkMscl (w : EngF) : Bool :=
  w.regs .none .s && w.noStamp

/-- The encoding checks of MSTAT (R323, R238). -/
def checkMstat (w : EngF) : Bool :=
  w.regs .s .none && w.noClauses

/-- The encoding checks of MLUNGE (R324, R238). -/
def checkMlunge (w : EngF) : Bool :=
  w.regs (if w.stampEn then .s else .none) .s && w.stampOk

/-- The encoding checks of MWAITD (R325, R238). -/
def checkMwaitd (w : A3) : Bool :=
  w.regs .s .none .none .none && w.fn == 0 && w.plainMod

/-- The encoding checks of MFEED (R326, R238). -/
def checkMfeed (w : SysF) : Bool :=
  w.regs .s .s && decide (w.ctl.toNat < 8) && w.imm == 0

/-- The encoding checks of MDACK (R327, R238). -/
def checkMdack (w : SysF) : Bool :=
  w.regs .none .s && w.ctl == 0 && w.imm == 0

/-- The encoding checks of MSTOP (R208, R238). -/
def checkMstop (w : EngF) : Bool :=
  w.regs .none .none && w.noClauses

/-- The encoding checks of STRB (R311, R238). -/
def checkStrb (w : SysF) : Bool :=
  w.regs .q .s && w.ctl == 0 && w.imm == 0

/-- The encoding checks of STRU (R312, R238). -/
def checkStru (w : SysF) : Bool :=
  w.regs .q .none && w.ctl == 0 && w.imm == 0

/-- The encoding checks of STRQ (R312, R238). -/
def checkStrq (w : SysF) : Bool :=
  w.regs .s .q && w.ctl == 0 && w.imm == 0

/-- The encoding checks of STRS (R312, R238). -/
def checkStrs (w : SysF) : Bool :=
  w.regs .q .s && w.ctl == 0 && w.imm == 0

/-- The encoding checks of BTEG (R310, R238). -/
def checkBteg (w : EngF) : Bool :=
  w.regs .v .s && w.noStamp

/-- The encoding checks of TMPLI (R309, R238). -/
def checkTmpli (w : SysF) : Bool :=
  w.regs .none .none && decide (w.ctl.toNat < 2048) && w.imm == 0

/-- The encoding checks of BCALL (R328, R238). -/
def checkBcall (w : EngF) : Bool :=
  w.regs .none .s && w.noStamp

/-- The encoding checks of BSTAT (R329, R238). -/
def checkBstat (w : A3) : Bool :=
  w.regs .s .s .s .none && w.fn == 0 && w.plainMod

/-- The encoding checks of KVHO (R330, R238). -/
def checkKvho (w : EngF) : Bool :=
  w.regs .none .s && w.noStamp

/-- The encoding checks of BTINV (R331, R238). -/
def checkBtinv (w : EngF) : Bool :=
  w.regs .none .s && w.noStamp && w.waitsem == 0

/-- The encoding checks of EXPF (R332, R238). -/
def checkExpf (w : SysF) : Bool :=
  w.regs .none .s && w.ctl == 0 && w.imm == 0

/-- The encoding checks of EXPQ (R332, R238). -/
def checkExpq (w : SysF) : Bool :=
  w.regs .s .s && decide (w.ctl.toNat < 2) && w.imm == 0

/-- The encoding checks of LXJOB (R333, R238). -/
def checkLxjob (w : EngF) : Bool :=
  w.regs .none .s && w.noStamp

/-- The encoding checks of PXHASH (R335, R238). -/
def checkPxhash (w : A3) : Bool :=
  w.regs .v .v .v .none && w.fn == 0 && w.plainMod && w.pred == 0

/-- The encoding checks of PXHASH_ROOT (R335, R238). -/
def checkPxhashRoot (w : A3) : Bool :=
  w.regs .v .v .none .none && w.fn == 1 && w.plainMod && w.pred == 0

/-- The encoding checks of PXLOOK (R336, R238). -/
def checkPxlook (w : A3) : Bool :=
  w.regs .s .v .none .none && w.fn == 0 && w.plainMod && pxPair w.d

/-- The encoding checks of PXINS (R336, R238). -/
def checkPxins (w : A3) : Bool :=
  w.regs .s .v .s .s && w.fn == 0 && w.plainMod && pxPair w.d

/-- The encoding checks of PXPUB (R337, R238). -/
def checkPxpub (w : A3) : Bool :=
  w.regs .s .s .none .none && w.fn == 0 && w.plainMod

/-- The encoding checks of PXREL (R337, R238). -/
def checkPxrel (w : A3) : Bool :=
  w.regs .s .s .none .none && w.fn == 0 && w.plainMod

/-- The encoding checks of TRAP (R259, R238). -/
def checkTrap (w : SysF) : Bool :=
  w.regs .none .none && w.ctl == 0 && (decide (1 ≤ w.imm.toNat ∧ w.imm.toNat ≤ 11) || w.imm == 0x3E)

/-- The encoding checks of RETI (R261, R238). -/
def checkReti (w : SysF) : Bool :=
  w.regs .none .none && w.ctl == 0 && w.imm == 0

/-- The encoding checks of HALT (R262, R238). -/
def checkHalt (w : SysF) : Bool :=
  w.regs .none .none && w.ctl == 0 && w.imm == 0

/-- The encoding checks of CONT (R263, R238). -/
def checkCont (w : SysF) : Bool :=
  w.regs .none .s && decide (w.ctl.toNat < 256) && w.imm == 0

/-- The encoding checks of NOP (R264, R238). -/
def checkNop (w : SysF) : Bool :=
  w.regs .none .none && w.ctl == 0 && w.imm == 0

/-- The encoding checks of BKPT (R259, R238). -/
def checkBkpt (w : SysF) : Bool :=
  w.regs .none .none && w.ctl == 0 && decide (w.imm.toNat < 65536)

/-- The encoding checks of YIELD (R264, R238). -/
def checkYield (w : SysF) : Bool :=
  w.regs .none .s && w.ctl == 0

/-- The encoding checks of CKPT (R265, R238). -/
def checkCkpt (w : SysF) : Bool :=
  w.regs .none .s && w.ctl == 0

/-- The encoding checks of MFC (R266, R238). -/
def checkMfc (w : SysF) : Bool :=
  w.regs .s .none && ctlListed w.ctl.toNat && w.imm == 0

/-- The encoding checks of MTC (R266, R238). -/
def checkMtc (w : SysF) : Bool :=
  w.regs .none .s && ctlListed w.ctl.toNat && w.imm == 0

/-- The encoding checks of BEAT (R267, R238). -/
def checkBeat (w : SysF) : Bool :=
  w.regs .s .none && w.ctl == 0 && w.imm == 0

/-- The encoding checks of SPAWN (R302, R238). -/
def checkSpawn (w : A3) : Bool :=
  w.regs .none .s .s .s && (w.fn == 0 || w.fn == 1) && w.plainMod

/-- The encoding checks of JOIN (R303, R238). -/
def checkJoin (w : SysF) : Bool :=
  w.regs .none .none && w.ctl == 0 && w.imm == 0

/-- REPEAT as a count: 0 means 65,536 (R339). -/
def BankF.count (w : BankF) : Nat := if w.rep == 0 then 65536 else w.rep.toNat

/-- A count of 1 to 64 whose items, from index `q`, stay below 64 (Table 17.2). -/
def BankF.upTo64 (w : BankF) (q : Nat) : Bool :=
  decide (1 ≤ w.rep.toNat ∧ w.rep.toNat ≤ 64 ∧ q + w.rep.toNat ≤ 64)

/-- The BSET codes that take ADD (Table 17.3). -/
def bsetAddable (code : Nat) : Bool :=
  code == 0 || code == 2 || (decide (7 ≤ code ∧ code ≤ 10)) || decide (13 ≤ code ∧ code ≤ 15)

/-- The limits of NOPW on its own fields (R355, R339, Table 17.2). -/
def checkNopw (w : BankF) : Bool :=
  w.step == 0 && w.operand == 0

/-- The limits of BSET on its own fields (R345, R339, Table 17.2). -/
def checkBset (w : BankF) : Bool :=
  fld w.operand.toNat 4 4 == 0

/-- The limits of BSET_ADD on its own fields (R345, R339, Table 17.2). -/
def checkBsetAdd (w : BankF) : Bool :=
  fld w.operand.toNat 4 4 == 8 && bsetAddable (fld w.operand.toNat 0 4)

/-- The limits of LOOPW on its own fields (R355, R339, Table 17.2). -/
def checkLoopw (w : BankF) : Bool :=
  w.step == 0 && w.operand == 0

/-- The limits of ENDW on its own fields (R355, R339, Table 17.2). -/
def checkEndw (w : BankF) : Bool :=
  w.rep == 0 && w.step == 0 && w.operand == 0

/-- The limits of JMPW on its own fields (R355, R339, Table 17.2). -/
def checkJmpw (w : BankF) : Bool :=
  w.rep == 0 && w.operand == 0

/-- The limits of HALTW on its own fields (R355, R339, Table 17.2). -/
def checkHaltw (w : BankF) : Bool :=
  w.rep == 0 && w.step == 0 && w.operand == 0

/-- The limits of SEMWW on its own fields (R356, R339, Table 17.2). -/
def checkSemww (w : BankF) : Bool :=
  w.rep != 0 && w.step == 0

/-- The limits of SEMSW on its own fields (R356, R339, Table 17.2). -/
def checkSemsw (w : BankF) : Bool :=
  w.rep != 0 && w.step == 0

/-- The limits of MARKW on its own fields (R357, R339, Table 17.2). -/
def checkMarkw (w : BankF) : Bool :=
  w.rep == 0 && w.step == 0 && w.operand == 0

/-- The limits of RESW on its own fields (R358, R339, Table 17.2). -/
def checkResw (w : BankF) : Bool :=
  w.rep == 0 && w.operand == 0 && decide (w.step.toNat < 4096)

/-- The limits of BCAST on its own fields (R346, R339, Table 17.2). -/
def checkBcast (w : BankF) : Bool :=
  w.step == 0 && w.upTo64 (w.operand.toNat / 4)

/-- The limits of ACCZ on its own fields (R352, R339, Table 17.2). -/
def checkAccz (w : BankF) : Bool :=
  w.step == 0 && w.upTo64 w.operand.toNat

/-- The limits of DOT_K4 on its own fields (R348, R339, Table 17.2). -/
def checkDotK4 (w : BankF) : Bool :=
  w.operand == 0

/-- The limits of DOT_K4_CONT on its own fields (R348, R339, Table 17.2). -/
def checkDotK4Cont (w : BankF) : Bool :=
  w.operand == 2

/-- The limits of DOT_KV on its own fields (R349, R339, Table 17.2). -/
def checkDotKv (w : BankF) : Bool :=
  w.operand == 1 && w.step == 0

/-- The limits of AXPY on its own fields (R350, R339, Table 17.2). -/
def checkAxpy (w : BankF) : Bool :=
  w.step == 0 && decide (w.operand.toNat < 2)

/-- The limits of CVT on its own fields (R351, R339, Table 17.2). -/
def checkCvt (w : BankF) : Bool :=
  w.rep == 0 && w.step == 0 && w.operand == 0

/-- The limits of DRN on its own fields (R353, R339, Table 17.2). -/
def checkDrn (w : BankF) : Bool :=
  w.step == 0 && w.upTo64 w.operand.toNat

/-- The limits of KVW_K on its own fields (R354, R339, Table 17.2). -/
def checkKvwK (w : BankF) : Bool :=
  w.step == 0 && w.operand == 0

/-- The limits of KVW_V on its own fields (R354, R339, Table 17.2). -/
def checkKvwV (w : BankF) : Bool :=
  w.step == 0 && w.operand == 1

/-- The limits of RDW on its own fields (R347, R339, Table 17.2). -/
def checkRdw (w : BankF) : Bool :=
  w.upTo64 w.operand.toNat

/-- The limits of WRW on its own fields (R347, R339, Table 17.2). -/
def checkWrw (w : BankF) : Bool :=
  w.upTo64 w.operand.toNat

end Sys2Proof
end

