-- ==== Sys2Proof/WellFormed.lean ====
section
/-! DEFINITION. Which instructions are well formed: a core word or bank-command word that passes the checks made on its
own fields (R238, R359), and a device event whose operands name units that exist. -/

namespace Sys2Proof

/-- Opcodes that Table 12.6 assigns. -/
def assignedOpcode (op : Nat) : Bool :=
  decide ((0x01 ≤ op ∧ op ≤ 0x1B) ∨ (0x20 ≤ op ∧ op ≤ 0x29) ∨ (0x30 ≤ op ∧ op ≤ 0x36) ∨ (0x40 ≤ op ∧ op ≤ 0x5E)
    ∨ (0x60 ≤ op ∧ op ≤ 0x70) ∨ (0x78 ≤ op ∧ op ≤ 0x86) ∨ (0x88 ≤ op ∧ op ≤ 0x8E) ∨ (0xA0 ≤ op ∧ op ≤ 0xA3)
    ∨ (0xA8 ≤ op ∧ op ≤ 0xAE) ∨ (0xB0 ≤ op ∧ op ≤ 0xB6) ∨ (0xC0 ≤ op ∧ op ≤ 0xDE) ∨ (0xE0 ≤ op ∧ op ≤ 0xEC))

/-- Opcodes of bank-command words that Table 17.2 lists. -/
def assignedWord (op : Nat) : Bool :=
  decide ((0x01 ≤ op ∧ op ≤ 0x06) ∨ (0x08 ≤ op ∧ op ≤ 0x0B) ∨ (0x10 ≤ op ∧ op ≤ 0x15) ∨ (0x18 ≤ op ∧ op ≤ 0x1A))

/-- The checks on an instruction's own fields. -/
def Instr.wellFormed : Instr → Bool
  | .powerOn => true
  | .powerLoss => true
  | .pcieFundamentalReset => true
  | .functionLevelReset => true
  | .bootCtlColdStart _ => true
  | .bootCtlWarmStart _ => true
  | .bootRomSelfCheck => true
  | .readBoardLimits => true
  | .measureImage => true
  | .trainChannels => true
  | .bguSelfTest => true
  | .clearLoft => true
  | .calibrateLoadModel => true
  | .featureNegotiation => true
  | .stepTimeout => true
  | .featCommit _ => true
  | .loadImage => true
  | .resync => true
  | .mailboxBadCommand _ => true
  | .spdmMeasurementReport => true
  | .bindContext ctx => decide (ctx.toNat < 64)
  | .unbindContext ctx => decide (ctx.toNat < 64)
  | .setKey req => decide (req.slot.toNat < 16) && decide (req.ctx.toNat < 64) && req.zero == 0
  | .clearKey slot => decide (slot.toNat < 16)
  | .tdiExitRun _ => true
  | .linearWindowRead _ _ _ => true
  | .linearWindowWrite _ _ _ => true
  | .linearWindowAtomicop _ _ _ _ _ _ => true
  | .registerWindowAtomicop _ _ => true
  | .registerWrite _ _ _ _ => true
  | .qcfgWrite queue _ _ => decide (queue < 1024)
  | .tailWrite queue _ _ => decide (queue < 1024)
  | .qreset queue _ => decide (queue < 1024)
  | .queueResetDone => true
  | .ctxRootWrite ctx _ _ => decide (ctx < 64)
  | .ctxInvalidate ctx _ _ => decide (ctx < 64)
  | .ctxInvalidateDone => true
  | .ctxResume ctx _ => decide (ctx < 64)
  | .semAssignWrite sem _ _ => decide (sem < 256)
  | .workEntryRead => true
  | .entryReread => true
  | .operatorRecordExpand => true
  | .launch => true
  | .copy => true
  | .copyEnd => true
  | .confCopy => true
  | .confCopyTagCheck => true
  | .ingest => true
  | .ingestEnd => true
  | .handleSet => true
  | .handleFree => true
  | .launchRetire => true
  | .entryCompletion => true
  | .continuationPop => true
  | .engineJobDispatch => true
  | .engineJobEnd => true
  | .preemption _ => true
  | .forcedSave => true
  | .budgetOverrun _ => true
  | .deadlineMiss => true
  | .thermalSample => true
  | .modelledPowerSample => true
  | .governorWindowStart => true
  | .pageWalk _ ctx _ _ => decide (ctx < 64)
  | .perBankRefresh bank _ => decide (bank < 4)
  | .refreshEnd => true
  | .ordinaryAccess => true
  | .reductionBlockConvert => true
  | .bankJobEnd => true
  | .expertFetchComplete => true
  | .expertTimeout => true
  | .matrixRowLand => true
  | .mstrmStampStart => true
  | .lungeOperandDemand => true
  | .lungeRowDue => true
  | .streamTransfer _ => true
  | .fullEmptyResultFill _ => true
  | .interrupt => true
  | .add w => checkAdd w
  | .sub w => checkSub w
  | .mul w => checkMul w
  | .mulhi w => checkMulhi w
  | .mulhs w => checkMulhs w
  | .div w => checkDiv w
  | .divs w => checkDivs w
  | .rem w => checkRem w
  | .rems w => checkRems w
  | .and w => checkAnd w
  | .or w => checkOr w
  | .xor w => checkXor w
  | .shl w => checkShl w
  | .shr w => checkShr w
  | .sra w => checkSra w
  | .rot w => checkRot w
  | .clz w => checkClz w
  | .ctz w => checkCtz w
  | .popc w => checkPopc w
  | .bext w => checkBext w
  | .bins w => checkBins w
  | .min w => checkMin w
  | .max w => checkMax w
  | .mins w => checkMins w
  | .maxs w => checkMaxs w
  | .cmp w => checkCmp w
  | .sel w => checkSel w
  | .addi w => checkAddi w
  | .andi w => checkAndi w
  | .ori w => checkOri w
  | .xori w => checkXori w
  | .shli w => checkShli w
  | .shri w => checkShri w
  | .srai w => checkSrai w
  | .ldi w => checkLdi w
  | .ldih w => checkLdih w
  | .lea w => checkLea w
  | .br w => checkBr w
  | .j w => checkJ w
  | .call w => checkCall w
  | .jr w => checkJr w
  | .callr w => checkCallr w
  | .ret w => checkRet w
  | .loopm w => checkLoopm w
  | .ld w => checkLd w
  | .ldx w => checkLdx w
  | .st w => checkSt w
  | .pref w => checkPref w
  | .vld w => checkVld w
  | .vst w => checkVst w
  | .vlds w => checkVlds w
  | .vgath w => checkVgath w
  | .vscat w => checkVscat w
  | .aadd w => checkAadd w
  | .amin w => checkAmin w
  | .amax w => checkAmax w
  | .aand w => checkAand w
  | .aor w => checkAor w
  | .axor w => checkAxor w
  | .axchg w => checkAxchg w
  | .acas w => checkAcas w
  | .afadd w => checkAfadd w
  | .afamax w => checkAfamax w
  | .fence w => checkFence w
  | .xfence w => checkXfence w
  | .mark w => checkMark w
  | .semw w => checkSemw w
  | .sems w => checkSems w
  | .semi w => checkSemi w
  | .semr w => checkSemr w
  | .pbar w => checkPbar w
  | .acqs w => checkAcqs w
  | .rels w => checkRels w
  | .waittAny w => checkWaittAny w
  | .waittAll w => checkWaittAll w
  | .ffrt w => checkFfrt w
  | .vadd w => checkVadd w
  | .vsub w => checkVsub w
  | .vmul w => checkVmul w
  | .vmad w => checkVmad w
  | .vmin w => checkVmin w
  | .vmax w => checkVmax w
  | .vand w => checkVand w
  | .vor w => checkVor w
  | .vxor w => checkVxor w
  | .vshl w => checkVshl w
  | .vshr w => checkVshr w
  | .vsra w => checkVsra w
  | .vcmp w => checkVcmp w
  | .vsel w => checkVsel w
  | .vabs w => checkVabs w
  | .vpopc w => checkVpopc w
  | .vclz w => checkVclz w
  | .vfadd w => checkVfadd w
  | .vfsub w => checkVfsub w
  | .vfmul w => checkVfmul w
  | .vfma w => checkVfma w
  | .vfmin w => checkVfmin w
  | .vfmax w => checkVfmax w
  | .vfcmp w => checkVfcmp w
  | .vfabs w => checkVfabs w
  | .vfneg w => checkVfneg w
  | .vexp2 w => checkVexp2 w
  | .vlog2 w => checkVlog2 w
  | .vrcp w => checkVrcp w
  | .vrsq w => checkVrsq w
  | .vsqrt w => checkVsqrt w
  | .veadd w => checkVeadd w
  | .vmov w => checkVmov w
  | .vbcast w => checkVbcast w
  | .vext w => checkVext w
  | .vins w => checkVins w
  | .vperm w => checkVperm w
  | .vcomp w => checkVcomp w
  | .viota w => checkViota w
  | .vcvt w => checkVcvt w
  | .vqnt w => checkVqnt w
  | .vqntSc w => checkVqntSc w
  | .vdqnt w => checkVdqnt w
  | .vscl w => checkVscl w
  | .kand w => checkKand w
  | .kor w => checkKor w
  | .kxor w => checkKxor w
  | .knot w => checkKnot w
  | .kmov w => checkKmov w
  | .kmovL64ToMask w => checkKmovL64ToMask w
  | .kmovH64ToMask w => checkKmovH64ToMask w
  | .kmovL64ToScalar w => checkKmovL64ToScalar w
  | .kmovH64ToScalar w => checkKmovH64ToScalar w
  | .kpop w => checkKpop w
  | .kff w => checkKff w
  | .vrsum w => checkVrsum w
  | .vrmax w => checkVrmax w
  | .vrmin w => checkVrmin w
  | .vrfsum w => checkVrfsum w
  | .vrfmax w => checkVrfmax w
  | .vramax w => checkVramax w
  | .vrarg w => checkVrarg w
  | .mlds w => checkMlds w
  | .mswap w => checkMswap w
  | .mstrm w => checkMstrm w
  | .mdrn w => checkMdrn w
  | .mzero w => checkMzero w
  | .meadd w => checkMeadd w
  | .mscl w => checkMscl w
  | .mstat w => checkMstat w
  | .mlunge w => checkMlunge w
  | .mwaitd w => checkMwaitd w
  | .mfeed w => checkMfeed w
  | .mdack w => checkMdack w
  | .mstop w => checkMstop w
  | .strb w => checkStrb w
  | .stru w => checkStru w
  | .strq w => checkStrq w
  | .strs w => checkStrs w
  | .bteg w => checkBteg w
  | .tmpli w => checkTmpli w
  | .bcall w => checkBcall w
  | .bstat w => checkBstat w
  | .kvho w => checkKvho w
  | .btinv w => checkBtinv w
  | .expf w => checkExpf w
  | .expq w => checkExpq w
  | .lxjob w => checkLxjob w
  | .pxhash w => checkPxhash w
  | .pxhashRoot w => checkPxhashRoot w
  | .pxlook w => checkPxlook w
  | .pxins w => checkPxins w
  | .pxpub w => checkPxpub w
  | .pxrel w => checkPxrel w
  | .trap w => checkTrap w
  | .reti w => checkReti w
  | .halt w => checkHalt w
  | .cont w => checkCont w
  | .nop w => checkNop w
  | .bkpt w => checkBkpt w
  | .yield w => checkYield w
  | .ckpt w => checkCkpt w
  | .mfc w => checkMfc w
  | .mtc w => checkMtc w
  | .beat w => checkBeat w
  | .spawn w => checkSpawn w
  | .join w => checkJoin w
  | .nopw w => checkNopw w
  | .bset w => checkBset w
  | .bsetAdd w => checkBsetAdd w
  | .loopw w => checkLoopw w
  | .endw w => checkEndw w
  | .jmpw w => checkJmpw w
  | .haltw w => checkHaltw w
  | .semww w => checkSemww w
  | .semsw w => checkSemsw w
  | .markw w => checkMarkw w
  | .resw w => checkResw w
  | .bcast w => checkBcast w
  | .accz w => checkAccz w
  | .dotK4 w => checkDotK4 w
  | .dotK4Cont w => checkDotK4Cont w
  | .dotKv w => checkDotKv w
  | .axpy w => checkAxpy w
  | .cvt w => checkCvt w
  | .drn w => checkDrn w
  | .kvwK w => checkKvwK w
  | .kvwV w => checkKvwV w
  | .rdw w => checkRdw w
  | .wrw w => checkWrw w
  | .tdiLock => true
  | .tdiStart => true
  | .spdmSecuredSession _ => true
  | .hostLinkTraining _ _ _ => true
  | .registerWindowRead _ _ _ => true
  | .illegalOpcode word => !assignedOpcode (fld word.toNat 56 8)
  | .illegalWord word => !assignedWord (fld word.toNat 40 8)
  | .instructionFetchFault => true

end Sys2Proof
end

