-- ==== Sys2Proof/Decode.lean ====
section
/-! DEFINITION. Reading core words (64 bits, R227, Table 12.1, Table 12.6) and bank-command words (48 bits, R339,
Tables 17.1 and 17.2), and writing them. Every word decodes: an unassigned opcode is the row ILLEGAL_OPCODE or
ILLEGAL_WORD, by name, and a word whose fields fail R238 or R359 keeps its fields for the machine to judge. -/

namespace Sys2Proof

/-- The fields of a word of format A3 (Table 12.1). -/
def A3.ofWord (w : Nat) : A3 :=
  { d := BitVec.ofNat 8 (fld w 48 8)
    a := BitVec.ofNat 8 (fld w 40 8)
    ea := fld w 39 1 == 1
    b := BitVec.ofNat 8 (fld w 31 8)
    eb := fld w 30 1 == 1
    c := BitVec.ofNat 8 (fld w 22 8)
    ec := fld w 21 1 == 1
    modA := BitVec.ofNat 12 (fld w 9 12)
    fn := BitVec.ofNat 5 (fld w 4 5)
    pred := BitVec.ofNat 4 (fld w 0 4) }

/-- The word with opcode `op` and these fields. -/
def A3.toWord (w : A3) (op : Nat) : Nat :=
  op * 2 ^ 56 + w.d.toNat * 2 ^ 48 + w.a.toNat * 2 ^ 40 + w.ea.toNat * 2 ^ 39 + w.b.toNat * 2 ^ 31 + w.eb.toNat * 2 ^ 30 + w.c.toNat * 2 ^ 22 + w.ec.toNat * 2 ^ 21 + w.modA.toNat * 2 ^ 9 + w.fn.toNat * 2 ^ 4 + w.pred.toNat

/-- The fields of a word of format I32 (Table 12.1). -/
def I32.ofWord (w : Nat) : I32 :=
  { d := BitVec.ofNat 8 (fld w 48 8)
    a := BitVec.ofNat 8 (fld w 40 8)
    ea := fld w 39 1 == 1
    fn := BitVec.ofNat 3 (fld w 36 3)
    imm := BitVec.ofNat 32 (fld w 4 32)
    pred := BitVec.ofNat 4 (fld w 0 4) }

/-- The word with opcode `op` and these fields. -/
def I32.toWord (w : I32) (op : Nat) : Nat :=
  op * 2 ^ 56 + w.d.toNat * 2 ^ 48 + w.a.toNat * 2 ^ 40 + w.ea.toNat * 2 ^ 39 + w.fn.toNat * 2 ^ 36 + w.imm.toNat * 2 ^ 4 + w.pred.toNat

/-- The fields of a word of format M (Table 12.1). -/
def MemF.ofWord (w : Nat) : MemF :=
  { d := BitVec.ofNat 8 (fld w 48 8)
    base := BitVec.ofNat 8 (fld w 40 8)
    eb := fld w 39 1 == 1
    size := BitVec.ofNat 2 (fld w 37 2)
    atom := BitVec.ofNat 2 (fld w 35 2)
    order := BitVec.ofNat 2 (fld w 33 2)
    scope := BitVec.ofNat 4 (fld w 29 4)
    off := BitVec.ofNat 25 (fld w 4 25)
    pred := BitVec.ofNat 4 (fld w 0 4) }

/-- The word with opcode `op` and these fields. -/
def MemF.toWord (w : MemF) (op : Nat) : Nat :=
  op * 2 ^ 56 + w.d.toNat * 2 ^ 48 + w.base.toNat * 2 ^ 40 + w.eb.toNat * 2 ^ 39 + w.size.toNat * 2 ^ 37 + w.atom.toNat * 2 ^ 35 + w.order.toNat * 2 ^ 33 + w.scope.toNat * 2 ^ 29 + w.off.toNat * 2 ^ 4 + w.pred.toNat

/-- The fields of a word of format B (Table 12.1). -/
def BrF.ofWord (w : Nat) : BrF :=
  { cond := BitVec.ofNat 4 (fld w 52 4)
    null := BitVec.ofNat 2 (fld w 50 2)
    a := BitVec.ofNat 8 (fld w 42 8)
    ea := fld w 41 1 == 1
    b := BitVec.ofNat 8 (fld w 33 8)
    eb := fld w 32 1 == 1
    disp := BitVec.ofNat 28 (fld w 4 28)
    pred := BitVec.ofNat 4 (fld w 0 4) }

/-- The word with opcode `op` and these fields. -/
def BrF.toWord (w : BrF) (op : Nat) : Nat :=
  op * 2 ^ 56 + w.cond.toNat * 2 ^ 52 + w.null.toNat * 2 ^ 50 + w.a.toNat * 2 ^ 42 + w.ea.toNat * 2 ^ 41 + w.b.toNat * 2 ^ 33 + w.eb.toNat * 2 ^ 32 + w.disp.toNat * 2 ^ 4 + w.pred.toNat

/-- The fields of a word of format E (Table 12.1). -/
def EngF.ofWord (w : Nat) : EngF :=
  { d := BitVec.ofNat 8 (fld w 48 8)
    desc := BitVec.ofNat 8 (fld w 40 8)
    e := fld w 39 1 == 1
    waitsem := BitVec.ofNat 8 (fld w 31 8)
    sigsem := BitVec.ofNat 8 (fld w 23 8)
    tag := BitVec.ofNat 6 (fld w 17 6)
    stampOff := BitVec.ofNat 12 (fld w 5 12)
    stampEn := fld w 4 1 == 1
    pred := BitVec.ofNat 4 (fld w 0 4) }

/-- The word with opcode `op` and these fields. -/
def EngF.toWord (w : EngF) (op : Nat) : Nat :=
  op * 2 ^ 56 + w.d.toNat * 2 ^ 48 + w.desc.toNat * 2 ^ 40 + w.e.toNat * 2 ^ 39 + w.waitsem.toNat * 2 ^ 31 + w.sigsem.toNat * 2 ^ 23 + w.tag.toNat * 2 ^ 17 + w.stampOff.toNat * 2 ^ 5 + w.stampEn.toNat * 2 ^ 4 + w.pred.toNat

/-- The fields of a word of format S (Table 12.1). -/
def SysF.ofWord (w : Nat) : SysF :=
  { d := BitVec.ofNat 8 (fld w 48 8)
    a := BitVec.ofNat 8 (fld w 40 8)
    ea := fld w 39 1 == 1
    ctl := BitVec.ofNat 12 (fld w 27 12)
    imm := BitVec.ofNat 23 (fld w 4 23)
    pred := BitVec.ofNat 4 (fld w 0 4) }

/-- The word with opcode `op` and these fields. -/
def SysF.toWord (w : SysF) (op : Nat) : Nat :=
  op * 2 ^ 56 + w.d.toNat * 2 ^ 48 + w.a.toNat * 2 ^ 40 + w.ea.toNat * 2 ^ 39 + w.ctl.toNat * 2 ^ 27 + w.imm.toNat * 2 ^ 4 + w.pred.toNat

/-- The fields of a word of format L (Table 12.1). -/
def LoopF.ofWord (w : Nat) : LoopF :=
  { a := BitVec.ofNat 8 (fld w 48 8)
    ea := fld w 47 1 == 1
    ii := BitVec.ofNat 6 (fld w 41 6)
    sc := BitVec.ofNat 4 (fld w 37 4)
    rsv := BitVec.ofNat 33 (fld w 4 33)
    pred := BitVec.ofNat 4 (fld w 0 4) }

/-- The word with opcode `op` and these fields. -/
def LoopF.toWord (w : LoopF) (op : Nat) : Nat :=
  op * 2 ^ 56 + w.a.toNat * 2 ^ 48 + w.ea.toNat * 2 ^ 47 + w.ii.toNat * 2 ^ 41 + w.sc.toNat * 2 ^ 37 + w.rsv.toNat * 2 ^ 4 + w.pred.toNat

/-- The fields of a word of format bank command (Table 17.1). -/
def BankF.ofWord (w : Nat) : BankF :=
  { rep := BitVec.ofNat 16 (fld w 24 16)
    step := BitVec.ofNat 16 (fld w 8 16)
    operand := BitVec.ofNat 8 (fld w 0 8) }

/-- The word with opcode `op` and these fields. -/
def BankF.toWord (w : BankF) (op : Nat) : Nat :=
  op * 2 ^ 40 + w.rep.toNat * 2 ^ 24 + w.step.toNat * 2 ^ 8 + w.operand.toNat

/-- The core instruction of a 64-bit word (Table 12.6). -/
def decodeCore (w : Nat) : Instr :=
  match fld w 56 8 with
  | 0x01 => .add (A3.ofWord w)
  | 0x02 => .sub (A3.ofWord w)
  | 0x03 => .mul (A3.ofWord w)
  | 0x04 => .mulhi (A3.ofWord w)
  | 0x05 => .mulhs (A3.ofWord w)
  | 0x06 => .div (A3.ofWord w)
  | 0x07 => .divs (A3.ofWord w)
  | 0x08 => .rem (A3.ofWord w)
  | 0x09 => .rems (A3.ofWord w)
  | 0x0A => .and (A3.ofWord w)
  | 0x0B => .or (A3.ofWord w)
  | 0x0C => .xor (A3.ofWord w)
  | 0x0D => .shl (A3.ofWord w)
  | 0x0E => .shr (A3.ofWord w)
  | 0x0F => .sra (A3.ofWord w)
  | 0x10 => .rot (A3.ofWord w)
  | 0x11 => .clz (A3.ofWord w)
  | 0x12 => .ctz (A3.ofWord w)
  | 0x13 => .popc (A3.ofWord w)
  | 0x14 => .bext (A3.ofWord w)
  | 0x15 => .bins (A3.ofWord w)
  | 0x16 => .min (A3.ofWord w)
  | 0x17 => .max (A3.ofWord w)
  | 0x18 => .mins (A3.ofWord w)
  | 0x19 => .maxs (A3.ofWord w)
  | 0x1A => .cmp (A3.ofWord w)
  | 0x1B => .sel (A3.ofWord w)
  | 0x20 => .addi (I32.ofWord w)
  | 0x21 => .andi (I32.ofWord w)
  | 0x22 => .ori (I32.ofWord w)
  | 0x23 => .xori (I32.ofWord w)
  | 0x24 => .shli (I32.ofWord w)
  | 0x25 => .shri (I32.ofWord w)
  | 0x26 => .srai (I32.ofWord w)
  | 0x27 => .ldi (I32.ofWord w)
  | 0x28 => .ldih (I32.ofWord w)
  | 0x29 => .lea (I32.ofWord w)
  | 0x30 => .br (BrF.ofWord w)
  | 0x31 => .j (BrF.ofWord w)
  | 0x32 => .call (BrF.ofWord w)
  | 0x33 => .jr (A3.ofWord w)
  | 0x34 => .callr (A3.ofWord w)
  | 0x35 => .ret (A3.ofWord w)
  | 0x36 => .loopm (LoopF.ofWord w)
  | 0x40 => .ld (MemF.ofWord w)
  | 0x41 => .ldx (MemF.ofWord w)
  | 0x42 => .st (MemF.ofWord w)
  | 0x43 => .pref (MemF.ofWord w)
  | 0x44 => .vld (MemF.ofWord w)
  | 0x45 => .vst (MemF.ofWord w)
  | 0x46 => .vlds (A3.ofWord w)
  | 0x47 => .vgath (A3.ofWord w)
  | 0x48 => .vscat (A3.ofWord w)
  | 0x49 => .aadd (MemF.ofWord w)
  | 0x4A => .amin (MemF.ofWord w)
  | 0x4B => .amax (MemF.ofWord w)
  | 0x4C => .aand (MemF.ofWord w)
  | 0x4D => .aor (MemF.ofWord w)
  | 0x4E => .axor (MemF.ofWord w)
  | 0x4F => .axchg (MemF.ofWord w)
  | 0x50 => .acas (MemF.ofWord w)
  | 0x51 => .afadd (MemF.ofWord w)
  | 0x52 => .afamax (MemF.ofWord w)
  | 0x53 => .fence (SysF.ofWord w)
  | 0x54 => .xfence (SysF.ofWord w)
  | 0x55 => .mark (SysF.ofWord w)
  | 0x56 => .semw (SysF.ofWord w)
  | 0x57 => .sems (SysF.ofWord w)
  | 0x58 => .semi (SysF.ofWord w)
  | 0x59 => .semr (SysF.ofWord w)
  | 0x5A => .pbar (SysF.ofWord w)
  | 0x5B => .acqs (SysF.ofWord w)
  | 0x5C => .rels (SysF.ofWord w)
  | 0x5D => if fld w 27 12 = 1 then .waittAll (SysF.ofWord w) else .waittAny (SysF.ofWord w)
  | 0x5E => .ffrt (SysF.ofWord w)
  | 0x60 => .vadd (A3.ofWord w)
  | 0x61 => .vsub (A3.ofWord w)
  | 0x62 => .vmul (A3.ofWord w)
  | 0x63 => .vmad (A3.ofWord w)
  | 0x64 => .vmin (A3.ofWord w)
  | 0x65 => .vmax (A3.ofWord w)
  | 0x66 => .vand (A3.ofWord w)
  | 0x67 => .vor (A3.ofWord w)
  | 0x68 => .vxor (A3.ofWord w)
  | 0x69 => .vshl (A3.ofWord w)
  | 0x6A => .vshr (A3.ofWord w)
  | 0x6B => .vsra (A3.ofWord w)
  | 0x6C => .vcmp (A3.ofWord w)
  | 0x6D => .vsel (A3.ofWord w)
  | 0x6E => .vabs (A3.ofWord w)
  | 0x6F => .vpopc (A3.ofWord w)
  | 0x70 => .vclz (A3.ofWord w)
  | 0x78 => .vfadd (A3.ofWord w)
  | 0x79 => .vfsub (A3.ofWord w)
  | 0x7A => .vfmul (A3.ofWord w)
  | 0x7B => .vfma (A3.ofWord w)
  | 0x7C => .vfmin (A3.ofWord w)
  | 0x7D => .vfmax (A3.ofWord w)
  | 0x7E => .vfcmp (A3.ofWord w)
  | 0x7F => .vfabs (A3.ofWord w)
  | 0x80 => .vfneg (A3.ofWord w)
  | 0x81 => .vexp2 (A3.ofWord w)
  | 0x82 => .vlog2 (A3.ofWord w)
  | 0x83 => .vrcp (A3.ofWord w)
  | 0x84 => .vrsq (A3.ofWord w)
  | 0x85 => .vsqrt (A3.ofWord w)
  | 0x86 => .veadd (A3.ofWord w)
  | 0x88 => .vmov (A3.ofWord w)
  | 0x89 => .vbcast (A3.ofWord w)
  | 0x8A => .vext (A3.ofWord w)
  | 0x8B => .vins (A3.ofWord w)
  | 0x8C => .vperm (A3.ofWord w)
  | 0x8D => .vcomp (A3.ofWord w)
  | 0x8E => .viota (A3.ofWord w)
  | 0xA0 => .vcvt (SysF.ofWord w)
  | 0xA1 => if fld w 38 1 = 1 then .vqntSc (SysF.ofWord w) else .vqnt (SysF.ofWord w)
  | 0xA2 => .vdqnt (SysF.ofWord w)
  | 0xA3 => .vscl (SysF.ofWord w)
  | 0xA8 => .kand (A3.ofWord w)
  | 0xA9 => .kor (A3.ofWord w)
  | 0xAA => .kxor (A3.ofWord w)
  | 0xAB => .knot (A3.ofWord w)
  | 0xAC => match fld w 4 5 with
    | 1 => .kmovL64ToMask (A3.ofWord w)
    | 2 => .kmovH64ToMask (A3.ofWord w)
    | 3 => .kmovL64ToScalar (A3.ofWord w)
    | 4 => .kmovH64ToScalar (A3.ofWord w)
    | _ => .kmov (A3.ofWord w)
  | 0xAD => .kpop (A3.ofWord w)
  | 0xAE => .kff (A3.ofWord w)
  | 0xB0 => .vrsum (A3.ofWord w)
  | 0xB1 => .vrmax (A3.ofWord w)
  | 0xB2 => .vrmin (A3.ofWord w)
  | 0xB3 => .vrfsum (A3.ofWord w)
  | 0xB4 => .vrfmax (A3.ofWord w)
  | 0xB5 => .vramax (A3.ofWord w)
  | 0xB6 => .vrarg (A3.ofWord w)
  | 0xC0 => .mlds (EngF.ofWord w)
  | 0xC1 => .mswap (EngF.ofWord w)
  | 0xC2 => .mstrm (EngF.ofWord w)
  | 0xC3 => .mdrn (EngF.ofWord w)
  | 0xC4 => .mzero (EngF.ofWord w)
  | 0xC5 => .meadd (EngF.ofWord w)
  | 0xC6 => .mscl (EngF.ofWord w)
  | 0xC7 => .mstat (EngF.ofWord w)
  | 0xC8 => .mlunge (EngF.ofWord w)
  | 0xC9 => .mwaitd (A3.ofWord w)
  | 0xCA => .mfeed (SysF.ofWord w)
  | 0xCB => .mdack (SysF.ofWord w)
  | 0xCC => .mstop (EngF.ofWord w)
  | 0xCD => .strb (SysF.ofWord w)
  | 0xCE => .stru (SysF.ofWord w)
  | 0xCF => .strq (SysF.ofWord w)
  | 0xD0 => .strs (SysF.ofWord w)
  | 0xD1 => .bteg (EngF.ofWord w)
  | 0xD2 => .tmpli (SysF.ofWord w)
  | 0xD3 => .bcall (EngF.ofWord w)
  | 0xD4 => .bstat (A3.ofWord w)
  | 0xD5 => .kvho (EngF.ofWord w)
  | 0xD6 => .btinv (EngF.ofWord w)
  | 0xD7 => .expf (SysF.ofWord w)
  | 0xD8 => .expq (SysF.ofWord w)
  | 0xD9 => .lxjob (EngF.ofWord w)
  | 0xDA => if fld w 4 5 = 1 then .pxhashRoot (A3.ofWord w) else .pxhash (A3.ofWord w)
  | 0xDB => .pxlook (A3.ofWord w)
  | 0xDC => .pxins (A3.ofWord w)
  | 0xDD => .pxpub (A3.ofWord w)
  | 0xDE => .pxrel (A3.ofWord w)
  | 0xE0 => .trap (SysF.ofWord w)
  | 0xE1 => .reti (SysF.ofWord w)
  | 0xE2 => .halt (SysF.ofWord w)
  | 0xE3 => .cont (SysF.ofWord w)
  | 0xE4 => .nop (SysF.ofWord w)
  | 0xE5 => .bkpt (SysF.ofWord w)
  | 0xE6 => .yield (SysF.ofWord w)
  | 0xE7 => .ckpt (SysF.ofWord w)
  | 0xE8 => .mfc (SysF.ofWord w)
  | 0xE9 => .mtc (SysF.ofWord w)
  | 0xEA => .beat (SysF.ofWord w)
  | 0xEB => .spawn (A3.ofWord w)
  | 0xEC => .join (SysF.ofWord w)
  | _ => .illegalOpcode (BitVec.ofNat 64 w)

/-- The bank-command word of 48 bits (Table 17.2). -/
def decodeBank (w : Nat) : Instr :=
  match fld w 40 8 with
  | 0x01 => .nopw (BankF.ofWord w)
  | 0x02 => if fld w 7 1 = 1 then .bsetAdd (BankF.ofWord w) else .bset (BankF.ofWord w)
  | 0x03 => .loopw (BankF.ofWord w)
  | 0x04 => .endw (BankF.ofWord w)
  | 0x05 => .jmpw (BankF.ofWord w)
  | 0x06 => .haltw (BankF.ofWord w)
  | 0x08 => .semww (BankF.ofWord w)
  | 0x09 => .semsw (BankF.ofWord w)
  | 0x0A => .markw (BankF.ofWord w)
  | 0x0B => .resw (BankF.ofWord w)
  | 0x10 => .bcast (BankF.ofWord w)
  | 0x11 => .accz (BankF.ofWord w)
  | 0x12 => if fld w 0 1 = 1 then .dotKv (BankF.ofWord w) else if fld w 1 1 = 1 then .dotK4Cont (BankF.ofWord w) else .dotK4 (BankF.ofWord w)
  | 0x13 => .axpy (BankF.ofWord w)
  | 0x14 => .cvt (BankF.ofWord w)
  | 0x15 => .drn (BankF.ofWord w)
  | 0x18 => if fld w 0 1 = 1 then .kvwV (BankF.ofWord w) else .kvwK (BankF.ofWord w)
  | 0x19 => .rdw (BankF.ofWord w)
  | 0x1A => .wrw (BankF.ofWord w)
  | _ => .illegalWord (BitVec.ofNat 48 w)

/-- An encoded instruction: a 64-bit core word or a 48-bit bank-command word. -/
inductive Encoded where
  | core (w : Nat)
  | bank (w : Nat)
  deriving DecidableEq, Repr

/-- The word of an instruction; a device event has none. -/
def encode : Instr → Option Encoded
  | .powerOn => none
  | .powerLoss => none
  | .pcieFundamentalReset => none
  | .functionLevelReset => none
  | .bootCtlColdStart _ => none
  | .bootCtlWarmStart _ => none
  | .bootRomSelfCheck => none
  | .readBoardLimits => none
  | .measureImage => none
  | .trainChannels => none
  | .bguSelfTest => none
  | .clearLoft => none
  | .calibrateLoadModel => none
  | .featureNegotiation => none
  | .stepTimeout => none
  | .featCommit _ => none
  | .loadImage => none
  | .resync => none
  | .mailboxBadCommand _ => none
  | .spdmMeasurementReport => none
  | .bindContext _ => none
  | .unbindContext _ => none
  | .setKey _ => none
  | .clearKey _ => none
  | .tdiExitRun _ => none
  | .linearWindowRead _ _ _ => none
  | .linearWindowWrite _ _ _ => none
  | .linearWindowAtomicop _ _ _ _ _ _ => none
  | .registerWindowAtomicop _ _ => none
  | .registerWrite _ _ _ _ => none
  | .qcfgWrite _ _ _ => none
  | .tailWrite _ _ _ => none
  | .qreset _ _ => none
  | .queueResetDone => none
  | .ctxRootWrite _ _ _ => none
  | .ctxInvalidate _ _ _ => none
  | .ctxInvalidateDone => none
  | .ctxResume _ _ => none
  | .semAssignWrite _ _ _ => none
  | .workEntryRead => none
  | .entryReread => none
  | .operatorRecordExpand => none
  | .launch => none
  | .copy => none
  | .copyEnd => none
  | .confCopy => none
  | .confCopyTagCheck => none
  | .ingest => none
  | .ingestEnd => none
  | .handleSet => none
  | .handleFree => none
  | .launchRetire => none
  | .entryCompletion => none
  | .continuationPop => none
  | .engineJobDispatch => none
  | .engineJobEnd => none
  | .preemption _ => none
  | .forcedSave => none
  | .budgetOverrun _ => none
  | .deadlineMiss => none
  | .thermalSample => none
  | .modelledPowerSample => none
  | .governorWindowStart => none
  | .pageWalk _ _ _ _ => none
  | .perBankRefresh _ _ => none
  | .refreshEnd => none
  | .ordinaryAccess => none
  | .reductionBlockConvert => none
  | .bankJobEnd => none
  | .expertFetchComplete => none
  | .expertTimeout => none
  | .matrixRowLand => none
  | .mstrmStampStart => none
  | .lungeOperandDemand => none
  | .lungeRowDue => none
  | .streamTransfer _ => none
  | .fullEmptyResultFill _ => none
  | .interrupt => none
  | .add w => some (.core (w.toWord 0x01))
  | .sub w => some (.core (w.toWord 0x02))
  | .mul w => some (.core (w.toWord 0x03))
  | .mulhi w => some (.core (w.toWord 0x04))
  | .mulhs w => some (.core (w.toWord 0x05))
  | .div w => some (.core (w.toWord 0x06))
  | .divs w => some (.core (w.toWord 0x07))
  | .rem w => some (.core (w.toWord 0x08))
  | .rems w => some (.core (w.toWord 0x09))
  | .and w => some (.core (w.toWord 0x0A))
  | .or w => some (.core (w.toWord 0x0B))
  | .xor w => some (.core (w.toWord 0x0C))
  | .shl w => some (.core (w.toWord 0x0D))
  | .shr w => some (.core (w.toWord 0x0E))
  | .sra w => some (.core (w.toWord 0x0F))
  | .rot w => some (.core (w.toWord 0x10))
  | .clz w => some (.core (w.toWord 0x11))
  | .ctz w => some (.core (w.toWord 0x12))
  | .popc w => some (.core (w.toWord 0x13))
  | .bext w => some (.core (w.toWord 0x14))
  | .bins w => some (.core (w.toWord 0x15))
  | .min w => some (.core (w.toWord 0x16))
  | .max w => some (.core (w.toWord 0x17))
  | .mins w => some (.core (w.toWord 0x18))
  | .maxs w => some (.core (w.toWord 0x19))
  | .cmp w => some (.core (w.toWord 0x1A))
  | .sel w => some (.core (w.toWord 0x1B))
  | .addi w => some (.core (w.toWord 0x20))
  | .andi w => some (.core (w.toWord 0x21))
  | .ori w => some (.core (w.toWord 0x22))
  | .xori w => some (.core (w.toWord 0x23))
  | .shli w => some (.core (w.toWord 0x24))
  | .shri w => some (.core (w.toWord 0x25))
  | .srai w => some (.core (w.toWord 0x26))
  | .ldi w => some (.core (w.toWord 0x27))
  | .ldih w => some (.core (w.toWord 0x28))
  | .lea w => some (.core (w.toWord 0x29))
  | .br w => some (.core (w.toWord 0x30))
  | .j w => some (.core (w.toWord 0x31))
  | .call w => some (.core (w.toWord 0x32))
  | .jr w => some (.core (w.toWord 0x33))
  | .callr w => some (.core (w.toWord 0x34))
  | .ret w => some (.core (w.toWord 0x35))
  | .loopm w => some (.core (w.toWord 0x36))
  | .ld w => some (.core (w.toWord 0x40))
  | .ldx w => some (.core (w.toWord 0x41))
  | .st w => some (.core (w.toWord 0x42))
  | .pref w => some (.core (w.toWord 0x43))
  | .vld w => some (.core (w.toWord 0x44))
  | .vst w => some (.core (w.toWord 0x45))
  | .vlds w => some (.core (w.toWord 0x46))
  | .vgath w => some (.core (w.toWord 0x47))
  | .vscat w => some (.core (w.toWord 0x48))
  | .aadd w => some (.core (w.toWord 0x49))
  | .amin w => some (.core (w.toWord 0x4A))
  | .amax w => some (.core (w.toWord 0x4B))
  | .aand w => some (.core (w.toWord 0x4C))
  | .aor w => some (.core (w.toWord 0x4D))
  | .axor w => some (.core (w.toWord 0x4E))
  | .axchg w => some (.core (w.toWord 0x4F))
  | .acas w => some (.core (w.toWord 0x50))
  | .afadd w => some (.core (w.toWord 0x51))
  | .afamax w => some (.core (w.toWord 0x52))
  | .fence w => some (.core (w.toWord 0x53))
  | .xfence w => some (.core (w.toWord 0x54))
  | .mark w => some (.core (w.toWord 0x55))
  | .semw w => some (.core (w.toWord 0x56))
  | .sems w => some (.core (w.toWord 0x57))
  | .semi w => some (.core (w.toWord 0x58))
  | .semr w => some (.core (w.toWord 0x59))
  | .pbar w => some (.core (w.toWord 0x5A))
  | .acqs w => some (.core (w.toWord 0x5B))
  | .rels w => some (.core (w.toWord 0x5C))
  | .waittAny w => some (.core (w.toWord 0x5D))
  | .waittAll w => some (.core (w.toWord 0x5D))
  | .ffrt w => some (.core (w.toWord 0x5E))
  | .vadd w => some (.core (w.toWord 0x60))
  | .vsub w => some (.core (w.toWord 0x61))
  | .vmul w => some (.core (w.toWord 0x62))
  | .vmad w => some (.core (w.toWord 0x63))
  | .vmin w => some (.core (w.toWord 0x64))
  | .vmax w => some (.core (w.toWord 0x65))
  | .vand w => some (.core (w.toWord 0x66))
  | .vor w => some (.core (w.toWord 0x67))
  | .vxor w => some (.core (w.toWord 0x68))
  | .vshl w => some (.core (w.toWord 0x69))
  | .vshr w => some (.core (w.toWord 0x6A))
  | .vsra w => some (.core (w.toWord 0x6B))
  | .vcmp w => some (.core (w.toWord 0x6C))
  | .vsel w => some (.core (w.toWord 0x6D))
  | .vabs w => some (.core (w.toWord 0x6E))
  | .vpopc w => some (.core (w.toWord 0x6F))
  | .vclz w => some (.core (w.toWord 0x70))
  | .vfadd w => some (.core (w.toWord 0x78))
  | .vfsub w => some (.core (w.toWord 0x79))
  | .vfmul w => some (.core (w.toWord 0x7A))
  | .vfma w => some (.core (w.toWord 0x7B))
  | .vfmin w => some (.core (w.toWord 0x7C))
  | .vfmax w => some (.core (w.toWord 0x7D))
  | .vfcmp w => some (.core (w.toWord 0x7E))
  | .vfabs w => some (.core (w.toWord 0x7F))
  | .vfneg w => some (.core (w.toWord 0x80))
  | .vexp2 w => some (.core (w.toWord 0x81))
  | .vlog2 w => some (.core (w.toWord 0x82))
  | .vrcp w => some (.core (w.toWord 0x83))
  | .vrsq w => some (.core (w.toWord 0x84))
  | .vsqrt w => some (.core (w.toWord 0x85))
  | .veadd w => some (.core (w.toWord 0x86))
  | .vmov w => some (.core (w.toWord 0x88))
  | .vbcast w => some (.core (w.toWord 0x89))
  | .vext w => some (.core (w.toWord 0x8A))
  | .vins w => some (.core (w.toWord 0x8B))
  | .vperm w => some (.core (w.toWord 0x8C))
  | .vcomp w => some (.core (w.toWord 0x8D))
  | .viota w => some (.core (w.toWord 0x8E))
  | .vcvt w => some (.core (w.toWord 0xA0))
  | .vqnt w => some (.core (w.toWord 0xA1))
  | .vqntSc w => some (.core (w.toWord 0xA1))
  | .vdqnt w => some (.core (w.toWord 0xA2))
  | .vscl w => some (.core (w.toWord 0xA3))
  | .kand w => some (.core (w.toWord 0xA8))
  | .kor w => some (.core (w.toWord 0xA9))
  | .kxor w => some (.core (w.toWord 0xAA))
  | .knot w => some (.core (w.toWord 0xAB))
  | .kmov w => some (.core (w.toWord 0xAC))
  | .kmovL64ToMask w => some (.core (w.toWord 0xAC))
  | .kmovH64ToMask w => some (.core (w.toWord 0xAC))
  | .kmovL64ToScalar w => some (.core (w.toWord 0xAC))
  | .kmovH64ToScalar w => some (.core (w.toWord 0xAC))
  | .kpop w => some (.core (w.toWord 0xAD))
  | .kff w => some (.core (w.toWord 0xAE))
  | .vrsum w => some (.core (w.toWord 0xB0))
  | .vrmax w => some (.core (w.toWord 0xB1))
  | .vrmin w => some (.core (w.toWord 0xB2))
  | .vrfsum w => some (.core (w.toWord 0xB3))
  | .vrfmax w => some (.core (w.toWord 0xB4))
  | .vramax w => some (.core (w.toWord 0xB5))
  | .vrarg w => some (.core (w.toWord 0xB6))
  | .mlds w => some (.core (w.toWord 0xC0))
  | .mswap w => some (.core (w.toWord 0xC1))
  | .mstrm w => some (.core (w.toWord 0xC2))
  | .mdrn w => some (.core (w.toWord 0xC3))
  | .mzero w => some (.core (w.toWord 0xC4))
  | .meadd w => some (.core (w.toWord 0xC5))
  | .mscl w => some (.core (w.toWord 0xC6))
  | .mstat w => some (.core (w.toWord 0xC7))
  | .mlunge w => some (.core (w.toWord 0xC8))
  | .mwaitd w => some (.core (w.toWord 0xC9))
  | .mfeed w => some (.core (w.toWord 0xCA))
  | .mdack w => some (.core (w.toWord 0xCB))
  | .mstop w => some (.core (w.toWord 0xCC))
  | .strb w => some (.core (w.toWord 0xCD))
  | .stru w => some (.core (w.toWord 0xCE))
  | .strq w => some (.core (w.toWord 0xCF))
  | .strs w => some (.core (w.toWord 0xD0))
  | .bteg w => some (.core (w.toWord 0xD1))
  | .tmpli w => some (.core (w.toWord 0xD2))
  | .bcall w => some (.core (w.toWord 0xD3))
  | .bstat w => some (.core (w.toWord 0xD4))
  | .kvho w => some (.core (w.toWord 0xD5))
  | .btinv w => some (.core (w.toWord 0xD6))
  | .expf w => some (.core (w.toWord 0xD7))
  | .expq w => some (.core (w.toWord 0xD8))
  | .lxjob w => some (.core (w.toWord 0xD9))
  | .pxhash w => some (.core (w.toWord 0xDA))
  | .pxhashRoot w => some (.core (w.toWord 0xDA))
  | .pxlook w => some (.core (w.toWord 0xDB))
  | .pxins w => some (.core (w.toWord 0xDC))
  | .pxpub w => some (.core (w.toWord 0xDD))
  | .pxrel w => some (.core (w.toWord 0xDE))
  | .trap w => some (.core (w.toWord 0xE0))
  | .reti w => some (.core (w.toWord 0xE1))
  | .halt w => some (.core (w.toWord 0xE2))
  | .cont w => some (.core (w.toWord 0xE3))
  | .nop w => some (.core (w.toWord 0xE4))
  | .bkpt w => some (.core (w.toWord 0xE5))
  | .yield w => some (.core (w.toWord 0xE6))
  | .ckpt w => some (.core (w.toWord 0xE7))
  | .mfc w => some (.core (w.toWord 0xE8))
  | .mtc w => some (.core (w.toWord 0xE9))
  | .beat w => some (.core (w.toWord 0xEA))
  | .spawn w => some (.core (w.toWord 0xEB))
  | .join w => some (.core (w.toWord 0xEC))
  | .nopw w => some (.bank (w.toWord 0x01))
  | .bset w => some (.bank (w.toWord 0x02))
  | .bsetAdd w => some (.bank (w.toWord 0x02))
  | .loopw w => some (.bank (w.toWord 0x03))
  | .endw w => some (.bank (w.toWord 0x04))
  | .jmpw w => some (.bank (w.toWord 0x05))
  | .haltw w => some (.bank (w.toWord 0x06))
  | .semww w => some (.bank (w.toWord 0x08))
  | .semsw w => some (.bank (w.toWord 0x09))
  | .markw w => some (.bank (w.toWord 0x0A))
  | .resw w => some (.bank (w.toWord 0x0B))
  | .bcast w => some (.bank (w.toWord 0x10))
  | .accz w => some (.bank (w.toWord 0x11))
  | .dotK4 w => some (.bank (w.toWord 0x12))
  | .dotK4Cont w => some (.bank (w.toWord 0x12))
  | .dotKv w => some (.bank (w.toWord 0x12))
  | .axpy w => some (.bank (w.toWord 0x13))
  | .cvt w => some (.bank (w.toWord 0x14))
  | .drn w => some (.bank (w.toWord 0x15))
  | .kvwK w => some (.bank (w.toWord 0x18))
  | .kvwV w => some (.bank (w.toWord 0x18))
  | .rdw w => some (.bank (w.toWord 0x19))
  | .wrw w => some (.bank (w.toWord 0x1A))
  | .tdiLock => none
  | .tdiStart => none
  | .spdmSecuredSession _ => none
  | .hostLinkTraining _ _ _ => none
  | .registerWindowRead _ _ _ => none
  | .illegalOpcode w => some (.core w.toNat)
  | .illegalWord w => some (.bank w.toNat)
  | .instructionFetchFault => none

/-- Why bytes at an instruction address are not a word: too few of them. -/
inductive Reject where
  | tooShort
  deriving DecidableEq, Repr

/-- The number that bytes hold, least significant byte first (R3). -/
def leNat : List Byte → Nat
  | [] => 0
  | b :: bs => b.toNat + 256 * leNat bs

/-- The `n` bytes of a number, least significant byte first (R3). -/
def leBytes : Nat → Nat → List Byte
  | 0, _ => []
  | n + 1, x => BitVec.ofNat 8 x :: leBytes n (x / 256)

/-- The core instruction at the front of the bytes, and the bytes after it (R227). -/
def decodeCoreBytes (bs : List Byte) : Except Reject (Instr × List Byte) :=
  if bs.length < 8 then .error .tooShort else .ok (decodeCore (leNat (bs.take 8)), bs.drop 8)

/-- The bank-command word at the front of the bytes, and the bytes after it (R124). -/
def decodeBankBytes (bs : List Byte) : Except Reject (Instr × List Byte) :=
  if bs.length < 6 then .error .tooShort else .ok (decodeBank (leNat (bs.take 6)), bs.drop 6)

/-- The bytes of an instruction as memory holds them; none for a device event, which has no word. -/
def encodeBytes (i : Instr) : Option (List Byte) :=
  match encode i with
  | some (.core w) => some (leBytes 8 w)
  | some (.bank w) => some (leBytes 6 w)
  | none => none

/-- The instruction this decoder reads from a word of `nbits` bits: 64 for a core word, 48 for a bank-command word. -/
def decodeTableWord (nbits w : Nat) : Option Instr :=
  if nbits = 64 then
    match decodeCoreBytes (leBytes 8 w) with
    | .ok (i, _) => some i
    | .error _ => none
  else if nbits = 48 then
    match decodeBankBytes (leBytes 6 w) with
    | .ok (i, _) => some i
    | .error _ => none
  else none

end Sys2Proof
end

