-- ==== Sys2Proof/Machine/State.lean ====
section
/-! DEFINITION. The state of the TLC-9384 as plain data: everything the manual gives the device, part by part, with the
value each part has right after power is applied. Where the manual states no value for reset, the value here is the
model's and log entries 1, 2, 7, 8 and 9 name it. -/

namespace Sys2Proof.Machine

/-- Why the machine stops. -/
inductive Fault where
  /-- Raised by `step`: at 115 °C the device has stopped all clocks and waits for a cold start (R24), and the step
  asked for is not a start trigger. Safe: the manual gives the device no other step there. -/
  | clocksStopped
  deriving DecidableEq, Repr

/-- Why an instruction has no meaning. -/
inductive Refusal where
  /-- Raised by an arm of `exec` whose instruction has no meaning yet. Safe: nothing is claimed of it. -/
  | notModelled (mnemonic : String)
  deriving DecidableEq, Repr

/-- A map held as pairs of key and value, keys strictly rising, with no pair whose value is the map's default. -/
abbrev SMap (α : Type) := List (Nat × α)

/-! ### A core -/

/-- One register write of an operation: which bits of the register it sets, and to what (R165, R271). -/
inductive Write where
  | s (i : Nat) (x : W64)
  | v (i : Nat) (mask x : VReg)
  | k (i : Nat) (mask x : KReg)
  /-- One vector appended to a write stream (R165, R173). -/
  | q (i : Nat) (x : VReg)
  deriving DecidableEq, Repr

/-- When a result in flight lands (R163, R166): at a slot, or when it arrives (full/empty). -/
inductive Land where
  | slot (n : Nat)
  | arrival
  deriving DecidableEq, Repr

/-- The bytes a load reads: pairs of (byte of the destination, physical address), for performing the load and for
performing it anew after RETI (R98). -/
structure LoadPlan where
  dest : Spec
  /-- Bytes of one access, which a register page tells apart (R43, R88). -/
  size : Nat
  /-- Later accesses follow this load: an acquire (R106), or a load from a strongly ordered page (R103). -/
  ordered : Bool := false
  bytes : List (Nat × Nat)
  /-- Bits of the loaded value when it is sign-extended (ldx); 0 when it is zero-extended. -/
  signBits : Nat
  deriving DecidableEq, Repr

/-- An operation in flight, or frozen in the replay queue (R177, Table 9.6). -/
structure InFlight where
  op : BitVec 8
  dest : Spec
  cls : Nat
  nsrc : Nat
  writes : List Write
  land : Land
  redo : Option LoadPlan
  /-- First beat on which the unit can have the result (R240, R249). -/
  due : Nat := 0
  /-- Number that the next job would have had at issue: the jobs before it are earlier (R323). -/
  mark : Nat := 0
  /-- No later access of memory is made before this result has landed (R334). -/
  holds : Bool := false
  deriving DecidableEq, Repr

/-- A stream binding (R173, R311). -/
structure Stream where
  isWrite : Bool
  fmt : Nat
  base : W64
  counts : List Nat
  strides : List Int
  /-- Position in elements: of the next element read or appended. -/
  pos : Nat
  /-- Vectors prefetched and not yet read, or appended and not yet performed, oldest first. -/
  buf : List VReg
  /-- A fault the transfer unit met: code and element address (R311). -/
  fault : Option (BitVec 8 × W64)
  deriving DecidableEq, Repr

/-- The modulo sequencer of a LOOPM (R256): step k, slot m, trip count, II, SC and the address of body word 0. -/
structure LoopSt where
  k : Nat
  m : Nat
  trips : Nat
  ii : Nat
  sc : Nat
  base : W64
  deriving DecidableEq, Repr

/-- A deferred engine fault not yet delivered (R185). -/
structure Deferred where
  job : Nat
  code : BitVec 8
  sem : Option Nat
  tag : Option Nat
  unitKind : Nat
  unitIndex : Nat
  mpc : Nat
  va : W64
  path : Nat
  deriving DecidableEq, Repr

/-- An answer that an MFEED has given: the MFEED's address, the row, and the run by its job and first beat (R326). -/
structure Fed where
  addr : W64
  row : Nat
  run : Nat
  start : Nat
  deriving DecidableEq, Repr

/-- A core and the continuation it holds (R160-R162, Table 9.1). The values here are those of a pop (R161); a core
holds them too before its first pop (DESIGN CHOICE, log 1). -/
structure Core where
  running : Bool := false
  /-- A number of its own for each continuation, which its jobs carry. -/
  cont : Nat := 0
  ctx : Nat := 0
  s : Vector W64 64 := Vector.replicate 64 0
  v : Vector VReg 32 := Vector.replicate 32 0
  k : Vector KReg 8 := Vector.replicate 8 0
  q : Vector (Option Stream) 16 := Vector.replicate 16 none
  /-- Bit i: s_i is full. -/
  sFull : BitVec 64 := BitVec.allOnes 64
  /-- Bit i: v_i is full. -/
  vFull : BitVec 32 := BitVec.allOnes 32
  f0 : W64 := 0
  f1 : W64 := 0
  f2 : W64 := 0
  a0 : Bool := false
  a1 : Bool := false
  status : W64 := 0
  cause : W64 := 0
  epc : W64 := 0
  epc1 : W64 := 0
  epc2 : W64 := 0
  brpend : W64 := 0
  faultva : W64 := 0
  tvec : W64 := 0
  tscratch : W64 := 0
  mpcsave : W64 := 0
  ckpttab : W64 := 0
  lattab : W64 := 0
  intsem : W64 := 0
  tagmap : W64 := 0
  penset : BitVec 32 := 0
  pencnt : Nat := 0
  entry : Nat := 0
  joinblk : W64 := 0
  launch : Nat := 0
  /-- Ready beat and index of the record the continuation came from, for its key (R61, R64). -/
  readyAt : Nat := 0
  index : Nat := 0
  beathi : W64 := 0
  lookahead : W64 := 0
  /-- Issue slots spent so far (R163). -/
  slot : Nat := 0
  /-- Operations in flight, oldest first. -/
  flight : List InFlight := []
  /-- The replay queue, oldest first, with the REMAIN of each operation (R177): 0-14, or 0xFF. -/
  rplq : List (InFlight × Nat) := []
  loop : Option LoopSt := none
  /-- A take placed in a semaphore's queue: (semaphore, take). -/
  take : Option (Nat × Nat) := none
  /-- The take of INTSEM (R180). -/
  intTake : Option (Nat × Nat) := none
  /-- Arrivals of pbars that have not been released: address of the pbar, pen and generation (R300). -/
  pbarGen : List (W64 × Nat × Nat) := []
  /-- The answers that MFEEDs have given and wait for (R326). -/
  fed : List Fed := []
  /-- The bank job slots 0-15: the bank job each was last dispatched with (R329). -/
  bankSlots : Vector (Option Nat) 16 := Vector.replicate 16 none
  deferred : List Deferred := []
  /-- Fault of the last matrix job fault (R196), and whether later matrix jobs are cancelled (R198). -/
  matFault : BitVec 8 := 0
  matCancel : Option (BitVec 8 × Nat) := none
  /-- Tags of which a job of the open outstanding set has faulted (R304). -/
  tagFaulted : W64 := 0
  /-- The last beat on which a completion set a bit of TAGMAP, and TAGMAP as it stood at the start of that beat (R266). -/
  tagBeat : Nat := 0
  tagOld : W64 := 0
  /-- The last slot was an empty one, so that the next is no instruction boundary (R365). -/
  hollow : Bool := false
  /-- A CKPT has recorded its table in CKPTTAB (R181, R182). -/
  ckpted : Bool := false
  ckptInt : Nat := 0
  ckptAt : Nat := 0
  preemptReq : Bool := false
  /-- A PREEMPT trap is pending: the continuation has resumed after a pre-emption with PN = 1 (R176). -/
  resumed : Bool := false
  /-- A BUDGET_OVERRUN trap is pending (R70). -/
  budgetTrap : Bool := false
  deriving DecidableEq, Repr

/-! ### Synchronisation and queues of the package -/

/-- Who placed a take in a semaphore's queue (R299). -/
inductive Taker where
  | core (c : Nat)
  | interrupt (c : Nat)
  | job (j : Nat)
  | port (j d : Nat)
  | cont (n : Nat)
  deriving DecidableEq, Repr

/-- A take of `units` of a semaphore, in its queue (R299). -/
structure Take where
  id : Nat
  units : Nat
  who : Taker
  deriving DecidableEq, Repr

/-- A semaphore (R299) and its SEM_ASSIGN entry (Table 15.2). -/
structure Sem where
  count : Nat := 0
  assigned : Bool := false
  ctx : Nat := 0
  takes : List Take := []
  /-- Takes granted and not yet noticed by the taker that is not a core. -/
  granted : List Nat := []
  deriving DecidableEq, Repr

/-- A pen (R171) and its barrier state (R300). -/
structure Pen where
  bitmap : BitVec 64 := 0
  owner : Option Nat := none
  arr : BitVec 64 := 0
  captured : Option (BitVec 64) := none
  gen : Nat := 0
  deriving DecidableEq, Repr

/-- A stage of a yard's stage ring (R172). -/
structure Stage where
  full : Bool := false
  owner : Nat := 0
  ctx : Nat := 0
  data : BitVec 32 := 0
  deriving DecidableEq, Repr

/-- LFMT of a loft bank (Table 5.7). -/
structure Lfmt where
  owned : Bool := false
  owner : Nat := 0
  format : Nat := 0
  /-- The last beat on which the register was written, and what it held at the start of that beat (R266). -/
  setAt : Option Nat := none
  before : Nat := 0
  deriving DecidableEq, Repr

/-- The state of a handle slot (R51). -/
inductive HandleSt where
  | free
  | set
  | freeing
  deriving DecidableEq, Repr

/-- A handle slot (R51, Table 3.8). -/
structure Handle where
  st : HandleSt := .free
  /-- Generation, counted from the context's discards (R49, R51). -/
  gen : Nat := 0
  bus : Bool := false
  canRead : Bool := false
  canWrite : Bool := false
  base : Nat := 0
  len : Nat := 0
  pins : Nat := 0
  deriving DecidableEq, Repr

/-- CTX_EFAULT (Table 5.5). -/
structure Efault where
  valid : Bool := false
  kind : Nat := 0
  path : Nat := 0
  va : W64 := 0
  deriving DecidableEq, Repr

/-- A context (R85, Table 5.3) with its handle slots (R51), its template table (R307) and its TDI binding (R55). -/
structure Context where
  root : Nat := 0
  dlclass : BitVec 4 := 0
  live : Bool := false
  compBase : Nat := 0
  sidecar : Nat := 0
  stageBase : Nat := 0
  stageLen : Nat := 0
  invalBusy : Bool := false
  invalVa : Nat := 0
  invalScope : Nat := 0
  efault : Efault := {}
  tmpltab : Option Nat := none
  handles : SMap Handle := []
  /-- Discards of the context so far, which each count one in the generation of all its slots (R49). -/
  handleEpoch : Nat := 0
  bound : Bool := false
  /-- Staging ranges held by running CONF_COPYs: entry, first linear offset and length (R56). -/
  held : List (Nat × Nat × Nat) := []
  deriving DecidableEq, Repr

/-- One leaf in a translation cache (R96): the context it is tagged with, the page's first virtual address and size,
the physical address of the page, and the leaf word with the physical address it was read from. -/
structure Tlb where
  ctx : Nat
  va : Nat
  size : Nat
  pa : Nat
  leaf : W64
  entryAt : Nat
  deriving DecidableEq, Repr

/-- A work queue (Tables 3.1 to 3.4). -/
structure WorkQueue where
  base : W64 := 0
  proc : Nat := 0
  faultVec : Nat := 0
  ctx : Nat := 0
  log2 : Nat := 0
  halt : Bool := false
  loc : Bool := false
  enable : Bool := false
  head : Nat := 0
  tail : Nat := 0
  ignored : Nat := 0
  contained : Bool := false
  overrun : Bool := false
  lastFault : Nat := 0
  busy : Bool := false
  done : Bool := false
  /-- Firmware has found the entry at HEAD not yet written, at this beat (R41). -/
  parked : Option Nat := none
  deriving DecidableEq, Repr

/-! ### Work entries and operator records -/

/-- A quantity for each of the four classes (R69). -/
structure Meters where
  cores : Nat := 0
  matrix : Nat := 0
  bank : Nat := 0
  copy : Nat := 0
  deriving DecidableEq, Repr

/-- Body of a LAUNCH record (Table 3.8). -/
structure LaunchRec where
  code : W64
  frame : W64
  stride : Nat
  count : Nat
  pentab : W64
  tmpltab : W64
  penset : BitVec 32
  pencnt : Nat
  /-- The pen bitmaps of PENTAB as read at expansion; empty where PENTAB is 0. -/
  pens : List Nat := []
  deriving DecidableEq, Repr

/-- Body of a COPY record (Table 3.8). -/
structure CopyRec where
  dst : BitVec 32
  src : BitVec 32
  dstOff : Nat
  srcOff : Nat
  len : Nat
  crcList : W64
  conv : BitVec 8
  sig : Option Nat
  err : Option Nat
  resultAt : W64
  deriving DecidableEq, Repr

/-- Body of a CONF_COPY record (Table 3.8). -/
structure ConfRec where
  src : BitVec 32
  slot : Nat
  stageOff : Nat
  len : Nat
  stream : BitVec 32
  counter : W64
  resultAt : W64
  deriving DecidableEq, Repr

/-- Body of an INGEST record (Table 7.5). -/
structure IngestRec where
  src : BitVec 32
  dst : BitVec 32
  srcOff : Nat
  dstOff : Nat
  rows : Nat
  elems : Nat
  sfmt : Nat
  dfmt : Nat
  expert : Option Nat
  sig : Option Nat
  err : Option Nat
  defer : Bool
  codetab : W64
  resultAt : W64
  deriving DecidableEq, Repr

/-- Body of a HANDLE_SET record (Table 3.8). -/
structure HandleSetRec where
  slot : Nat
  bus : Bool
  canRead : Bool
  canWrite : Bool
  base : Nat
  len : Nat
  resultAt : W64
  deriving DecidableEq, Repr

/-- An operator record as read and checked (R47). -/
inductive OpRec where
  | launch (r : LaunchRec)
  | copy (r : CopyRec)
  | confCopy (r : ConfRec)
  | ingest (r : IngestRec)
  | handleSet (r : HandleSetRec)
  | handleFree (h : BitVec 32)
  deriving DecidableEq, Repr

/-- What the running record of an entry is doing. -/
inductive OpPhase where
  /-- It has been checked and waits to swap in. -/
  | shadow
  /-- It has swapped in and runs. -/
  | running
  /-- Its bytes are placed; the end is still to come, with its fault if it failed and the count for RESULT. -/
  | finishing (fault : BitVec 8) (result : W64)
  /-- It has done its work, and the checks of the record behind it are still to be made (R47). -/
  | retiring
  deriving DecidableEq, Repr

/-- A work entry in flight (R44, R57, R58-R71). -/
structure Entry where
  id : Nat
  queue : Nat
  ctx : Nat
  seqno : Nat
  prio : Nat
  powerClass : Nat
  sigsem : Nat
  vector : Nat
  irq : Bool
  sig : Bool
  missAbort : Bool
  overrun : Nat
  pinned : Bool
  /-- Still a deadline entry (a demoted or continued one is not). -/
  dl : Bool
  expertTimeout : Nat
  deadline : Nat
  budget : Meters
  opchain : W64
  completion : W64
  opcount : Nat
  handles : List (BitVec 32)
  /-- Index of the next operator record to expand. -/
  opIndex : Nat := 0
  op : Option (OpRec × OpPhase) := none
  /-- The record expanded into the shadow bank behind a running one (R47). -/
  shadow : Option OpRec := none
  used : Meters := {}
  faults : Nat := 0
  firstFault : Nat := 0
  startBeat : Option Nat := none
  /-- Beat at which the last work drained. -/
  endBeat : Nat := 0
  /-- Final status when the entry has been ended (Table 3.10). -/
  status : Option Nat := none
  adm : Nat := 0
  hwJoin : Nat := 0
  /-- Continued after a miss: effective priority 255 (R71). -/
  continued : Bool := false
  /-- Beats with ready work undispatched, and the beat of the last dispatch (R62). -/
  wait : Nat := 0
  dispatchedAt : Option Nat := none
  /-- Classes whose overrun event has been taken (R70). -/
  overran : List MeterClass := []
  /-- Continuations that start trap with BUDGET_OVERRUN until a RETI out of such a trap (R70). -/
  trapNew : Bool := false
  missed : Bool := false
  /-- An item of the entry has been dispatched. -/
  started : Bool := false
  /-- Ramp state: pens released, whether the whole launch is released, and the windows reserved for it or granted to it. -/
  pensReleased : List Nat := []
  released : Bool := false
  rampSlots : List Nat := []
  /-- Attributed power per yard at the last sample at which it was not zero, in mW (R75). -/
  attributed : List Nat := []
  /-- Modelled power at that sample, in mW. -/
  sampleMw : Nat := 0
  /-- Attributed power at the last sample, in mW (R68). -/
  drawnMw : Nat := 0
  /-- The ramp ballast of a pinned entry has ended (R76). -/
  rampDone : Bool := false
  ballast : Nat := 0
  deriving DecidableEq, Repr

/-- A continuation record (Table 4.1) in the dispatch queues, with the state saved at a pre-emption. -/
structure ContRec where
  num : Nat
  code : W64
  frame : W64
  joinblk : W64
  penset : BitVec 32
  pencnt : Nat
  entry : Nat
  ctx : Nat
  launch : Nat
  index : Nat
  ready : Nat
  /-- A CONT successor waits for one unit of this semaphore: (semaphore, take). -/
  gate : Option (Nat × Nat) := none
  saved : Option Core := none
  /-- Loft ranges a save kept: address and bytes (R182, R183). -/
  ranges : List (W64 × List Byte) := []
  deriving DecidableEq, Repr

/-- A LAUNCH whose continuation records are generated as dispatch reaches them (R58). -/
structure LaunchGen where
  id : Nat
  entry : Nat
  ctx : Nat
  body : LaunchRec
  next : Nat
  ready : Nat
  deriving DecidableEq, Repr

/-! ### Engine jobs -/

/-- Matrix descriptor (Table 16.2). -/
structure MatDesc where
  addr : W64
  stride : Int
  rows : Nat
  accBase : Nat
  scales : W64
  metadata : W64
  depth : Nat
  count : Nat
  format : Nat
  flags : BitVec 8
  qreg : Nat
  exp : Int
  period : Nat
  lrows : Nat
  group : Nat
  ksteps : Nat
  deriving DecidableEq, Repr

/-- BCALL descriptor (Table 16.4). -/
structure BankDesc where
  prog : W64
  ports : BitVec 48
  btab : W64
  blkFirst : Nat
  blkCount : Nat
  arg0 : W64
  arg1 : W64
  slot : Nat
  errsem : Option Nat
  deriving DecidableEq, Repr

/-- KVHO descriptor (Table 16.6). -/
structure KvhoDesc where
  ksrc : W64
  vsrc : W64
  btab : W64
  t0 : Nat
  ntok : Nat
  layer : Nat
  head : Nat
  deriving DecidableEq, Repr

/-- A block table as captured (R148, R149): the header's fields and the sets of the touched logical blocks. -/
structure BlockTab where
  addr : W64 := 0
  seqLen : Nat := 0
  layers : Nat := 0
  heads : Nat := 0
  poolF : Nat := 0
  poolBlocks : Nat := 0
  first : Nat := 0
  sets : List Nat := []
  deriving DecidableEq, Repr

/-- Copy template (Table 15.4). -/
structure CopyTmpl where
  src : W64
  dst : W64
  rows : Nat
  rowBytes : Nat
  srcStride : Int
  dstStride : Int
  srcStep : Int
  dstStep : Int
  conv : BitVec 8
  errsem : Nat
  flags : BitVec 8
  rsv : Bool
  crcList : W64
  deriving DecidableEq, Repr

/-- What an engine job does. -/
inductive JobKind where
  | mlds (d : MatDesc)
  | mswap
  | mstrm (d : MatDesc) (stamp : Option Nat)
  | mdrn (d : MatDesc)
  | mzero (d : MatDesc)
  | meadd (d : MatDesc)
  | mscl (d : MatDesc)
  | mlunge (d : MatDesc) (stamp : Option Nat) (lookahead : Nat)
  | bcall (d : BankDesc) (tab : BlockTab)
  | kvho (d : KvhoDesc) (tab : BlockTab)
  | btinv (addr : W64) (waitFor : List Nat)
  | layout (r : IngestRec) (resultAt : W64)
  /-- A copy through the BTE aperture (R306): template table, template index and INDEX. -/
  | copy (table tmpl index : Nat)
  /-- BTEG (R310): descriptor, index lanes, active lanes. -/
  | bteg (t : CopyTmpl) (lanes : VReg) (active : BitVec 32)
  /-- The copy of a COPY record (R53). -/
  | recordCopy (r : CopyRec)
  deriving DecidableEq, Repr

/-- The unit a job runs on (R159, Table 16.1). -/
inductive JobUnit where
  | array (y : Nat)
  | bte (y channel : Nat)
  /-- The ports of a bank job; `d` is the first of them. -/
  | mcs (d : Nat)
  | layout
  | frontEnd
  deriving DecidableEq, Repr

/-- Where a job stands. -/
inductive JobPhase where
  | queued
  | running
  /-- Suspended on a fault of translation, permission or memory type (R99). -/
  | suspended
  /-- The work is done; the end (signal and tag) is to come. -/
  | done
  /-- Stopped with a fault; the end (delivery) is to come. -/
  | failed (code : BitVec 8)
  deriving DecidableEq, Repr

/-- A row that a copy has read and not yet handed on: its index, destination, destination bytes already written, and source bytes
(R53, R99, R308). -/
structure HeldRow where
  index : Nat
  dst : Nat
  done : Nat
  bytes : List Byte
  deriving DecidableEq, Repr

/-- Converted bytes of a row still to be written at an address, after `done` bytes of that row (R52, R69). -/
structure OutRow where
  row : Nat
  va : Nat
  done : Nat
  bytes : List Byte
  /-- Blocks of the row whose scale was clamped (R140). -/
  clamped : Nat := 0
  deriving DecidableEq, Repr

/-- A copy that has begun (R52, R53, R93, R308). -/
structure CopyRun where
  /-- Conversion captured when it began. -/
  pair : Nat
  /-- Next row to read. -/
  next : Nat := 0
  /-- First row that is not written whole, and how many of its destination bytes are. -/
  row : Nat := 0
  done : Nat := 0
  held : List HeldRow := []
  /-- Chunks whose CRC has matched, and the source bytes read since; none is a byte that ECC could not correct. -/
  chunk : Nat := 0
  buf : List (Option Byte) := []
  out : List OutRow := []
  /-- Fault that stops the copy once `out` is written. -/
  stop : Option (BitVec 8) := none
  /-- The stripe unit in which a placement begins, once its access has found it (R137). -/
  first : Option Nat := none
  deriving DecidableEq, Repr

/-- An engine job (R315). -/
structure Job where
  id : Nat
  kind : JobKind
  unit : JobUnit
  core : Nat
  cont : Nat
  entry : Nat
  ctx : Nat
  wait : Option Nat
  sig : Option Nat
  tag : Option Nat
  err : Option Nat := none
  ready : Nat
  phase : JobPhase := .queued
  take : Option Nat := none
  /-- It has begun: its wait clause has been taken, and it keeps its place when it resumes (R99). -/
  begun : Bool := false
  /-- Progress, the job's MPC (Table 9.7): row or word, and byte within it. -/
  mpc : Nat := 0
  mpcByte : Nat := 0
  /-- Faulting address when there is one, and the path code. -/
  va : W64 := 0
  path : Nat := 0
  /-- The fault of a suspended job (R99). -/
  fault : BitVec 8 := 0
  /-- Last beat on which its array holds it, once nothing but that beat is left to wait for; 0 until then (R69, R189, R195). -/
  until_ : Nat := 0
  /-- What an MLDS has read of its plane, in the order of its ranges, and the transfer capacity it has left over (R189). -/
  loaded : List (List Byte) := []
  credit : Nat := 0
  /-- The template that a copy has captured, once its checks have passed (R308, R309). -/
  tmpl : Option CopyTmpl := none
  /-- Formats of the loft banks of its first bytes, as the beat on which it began found them (R93). -/
  formats : Option (Nat × Nat) := none
  /-- The copy that it has begun. -/
  run : Option CopyRun := none
  /-- It waits until this beat for a read from a bank in refresh (R13). -/
  holdOff : Nat := 0
  deriving DecidableEq, Repr

/-! ### The matrix array -/

/-- One column of a plane (R187, R201): stored bytes, scale codes and metadata string. -/
structure PlaneCol where
  bytes : List Byte
  scales : List Byte
  metadata : List Byte
  deriving DecidableEq, Repr

/-- A plane (R187). -/
structure Plane where
  fmt : Nat := 0
  valid : Bool := false
  /-- Marked ineligible for swap (R202). -/
  ineligible : Bool := false
  sparse : Bool := false
  cols : List PlaneCol := []
  deriving DecidableEq, Repr

/-- A streamed row whose sums have still to land (R191, R192): the accumulator row, and for each column the group terms
in ascending K. -/
structure Landing where
  job : Nat
  cont : Nat
  accRow : Nat
  terms : List (List W32)
  /-- Row index in a lunge run; none in ordinary mode. -/
  lungeRow : Option Nat
  at_ : Nat
  deriving DecidableEq, Repr

/-- The scale FIFO binding (R193, R322): none, or the scale bytes left in the loft, or a q register of a continuation. -/
inductive ScaleBind where
  | none
  | loft (addr : W64) (left : Nat) (ctx : Nat)
  | stream (cont q : Nat)
  deriving DecidableEq, Repr

/-- A demand of a lunge run (Table 10.3). -/
structure Demand where
  kind : Nat
  index : Nat
  due : Nat
  deriving DecidableEq, Repr

/-- An operand answer: row, address, and the beat at which it reached the array (R206, R326). -/
structure Answer where
  row : Nat
  addr : W64
  beat : Nat
  remote : Bool
  deriving DecidableEq, Repr

/-- A lunge run (R203-R209). -/
structure Lunge where
  job : Nat
  cont : Nat
  entry : Nat
  ctx : Nat
  desc : MatDesc
  look : Nat
  start : Nat
  /-- Beats by which due beats have moved (R207) or been set anew (R209). -/
  shift : Nat := 0
  /-- Next row to stream. -/
  next : Nat := 0
  /-- Next row whose operand demand is to be raised. -/
  demandRow : Nat := 0
  /-- Demands raised and not claimed, at most 64 visible, in due order. -/
  demands : List Demand := []
  /-- Rows with an outstanding operand demand. -/
  open_ : List Nat := []
  /-- Rows with an outstanding plane demand (R205). -/
  planes : List Nat := []
  answers : List Answer := []
  /-- Groups with an outstanding drain demand. -/
  drains : List Nat := []
  freed : List Nat := []
  /-- Rows landed. -/
  landed : Nat := 0
  /-- The last group of a run that stops or yields (R208, R209). -/
  stopAt : Option Nat := none
  /-- The run yields to a pre-emption after that group (R209). -/
  yields : Bool := false
  /-- First row since the array took the job (R209). -/
  base : Nat := 0
  /-- A strict run has missed its beat (R207). -/
  failed : Bool := false
  deriving DecidableEq, Repr

/-- A drained row on its way to the loft (R195): the beat on which it is performed, its job, continuation and entry, its bytes and where
they go. -/
structure DrainRow where
  at_ : Nat
  job : Nat
  cont : Nat
  entry : Nat
  dst : List Nat
  bytes : List Byte
  deriving DecidableEq, Repr

/-- The matrix array of a yard (R187). -/
structure MatArray where
  stationary : Plane := {}
  shadow : Plane := {}
  /-- Accumulator words that are not +0.0, at 64 × row + column. -/
  acc : SMap W32 := []
  /-- Live rows, with the continuation that made each live. -/
  live : SMap Nat := []
  landings : List Landing := []
  scale : ScaleBind := .none
  invalid : Bool := false
  overflow : Bool := false
  underflow : Bool := false
  inexact : Bool := false
  lastCtx : Option Nat := none
  lastEntry : Option Nat := none
  /-- Beat since which rows have been live (R199). -/
  liveSince : Nat := 0
  /-- Planes and scale binding of entries that have yielded the array, to be restored when they run again (R199). -/
  parked : List (Nat × Plane × Plane × ScaleBind) := []
  lunge : Option Lunge := none
  /-- Drained rows read and not yet performed, oldest first (R195). -/
  drained : List DrainRow := []
  /-- Operand demands that a stopped or failed run withdrew: entry and row (R208). -/
  withdrawn : List (Nat × Nat) := []
  /-- Beat on which the clear at a change of context is over (R187). -/
  clearUntil : Nat := 0
  misses : Nat := 0
  /-- The last beat on which LUNGE_MISSES rose (R266). -/
  missBeat : Option Nat := none
  deriving DecidableEq, Repr

/-- A yard beside its cores (09, intro). -/
structure Yard where
  stages : Vector Stage 8 := Vector.replicate 8 {}
  lfmt : Vector Lfmt 64 := Vector.replicate 64 {}
  tlb : List Tlb := []
  /-- Cached copy templates: context, index and template (R307). -/
  tmpls : List (Nat × Nat × CopyTmpl) := []
  arr : MatArray := {}
  ballast : Nat := 0
  /-- Ballast power run on the yard now, in mW (R75). -/
  ballastMw : Nat := 0
  /-- Power of the yard at the first beat of the window, ballast included, in mW (R75). -/
  startMw : Nat := 0
  deriving DecidableEq, Repr

/-! ### Processing memory -/

/-- A row slot of a BGU state set (R342): FREE or ASSIGNED with its result row index, and four accumulators with
their poison flags. -/
structure RowSlot where
  assigned : Bool := false
  rho : Nat := 0
  acc : Vector (W32 × Bool) 4 := Vector.replicate 4 (0, false)
  deriving DecidableEq, Repr

/-- The state set of the BGU on one issue lane (R121, R342). -/
structure Lane where
  /-- Broadcast elements that are not 0, at 8,192 × batch lane + element. -/
  buf : SMap Byte := []
  /-- Broadcast scales that are not 127, at 64 × batch lane + scale. -/
  scale : SMap Byte := []
  slots : Vector RowSlot 64 := Vector.replicate 64 {}
  deriving DecidableEq, Repr

/-- A finished reduction block that waits for conversion (R123). -/
structure Block where
  lane : Nat
  slot : Nat
  batch : Nat
  /-- The residue word (Table 7.1). -/
  word : BitVec 40
  cw : Byte
  ca : Byte
  k4 : Bool
  bank : Nat
  dramRow : Nat
  index : Nat
  deriving DecidableEq, Repr

/-- A column that a DOT.K4 has delivered to an issue lane and still draws on: its application, its address, its bytes, and whether an
uncorrectable error met it (R119, R121, R131). -/
structure StreamCol where
  index : Nat := 0
  lane : Nat := 0
  pa : Nat := 0
  data : BitVec 512 := 0
  bad : Bool := false
  deriving DecidableEq, Repr

/-- A port of a bank job: MCS[d] running its own copy of the program (R342, Table 17.3). -/
structure Port where
  die : Nat
  pc : W64
  /-- Applications of the current word already made (R126). -/
  done : Nat := 0
  loops : List (Nat × W64) := []
  ra : W64
  wa : W64
  ls : Nat := 768000
  em : Nat := 0xFF
  rsz : Nat := 0
  koff : Nat := 0
  kseg : Nat := 0
  slot : Nat := 0
  rrow : Nat := 0
  layer : Nat := 0
  head : Nat := 0
  kb : Nat
  tpos : Nat
  pbase : Nat := 0
  seq : Nat
  kvwRaised : Bool := false
  /-- Move-buffer columns that are not zero. -/
  move : SMap (BitVec 512) := []
  lanes : Vector Lane 8 := Vector.replicate 8 {}
  blocks : List Block := []
  /-- Columns of the DOT.K4 that has begun whose blocks are still in progress (R121, R126). -/
  stream : List StreamCol := []
  halted : Bool := false
  /-- Stopped with this fault (R127). -/
  stopped : Option (BitVec 8) := none
  /-- The take of a SEMWW that waits: (semaphore, take). -/
  take : Option (Nat × Nat) := none
  /-- Waits at RESW on this expert since this beat (R144). -/
  onExpert : Option (Nat × Nat) := none
  /-- The word that has begun and waits, as it was fetched (R124). -/
  word : Option (BitVec 48) := none
  /-- The last word that has begun (R73). -/
  ran : Option (BitVec 48) := none
  /-- AXPY words that this port has ended: the number of the chain it is in (R350). -/
  axpys : Nat := 0
  deriving DecidableEq, Repr

/-- The chain of an AXPY across the ports of a job (R350): which AXPY of the program, the next logical block, the
accumulators with their poison flags at 4 × index + batch lane, and the BGU that holds them. -/
structure Chain where
  ordinal : Nat
  next : Nat
  acc : List (W32 × Bool)
  holder : Option Nat := none
  deriving DecidableEq, Repr

/-- A bank job: its ports, captured table, poison bits and expert references; kept for BSTAT after its end. -/
structure BankJob where
  id : Nat
  desc : BankDesc
  tab : BlockTab
  ports : List Port
  poison : List Nat := []
  refs : List Nat := []
  ended : Bool := false
  fault : BitVec 8 := 0
  faultPort : Nat := 0xFF
  chains : List Chain := []
  deriving DecidableEq, Repr

/-- A bank error record (Table 7.4). -/
structure BankErr where
  fault : Nat
  lane : Nat
  bgu : Nat
  bank : Nat
  die : Nat
  resRow : Nat
  dramRow : Nat
  block : Nat
  entry : Nat
  beat : Nat
  deriving DecidableEq, Repr

/-- A memory-command sequencer (Tables 7.2, 7.3, R135, R96). -/
structure Mcs where
  ordShare : Nat := 1
  pauseCycles : Nat := 0
  poisonEvents : Nat := 0
  correctedEcc : Nat := 0
  logNext : Nat := 0
  log : Vector (Option BankErr) 16 := Vector.replicate 16 none
  /-- The bank job whose words it executes now (R121). -/
  holder : Option Nat := none
  tlb : List Tlb := []
  deriving DecidableEq, Repr

/-- An expert directory entry (Table 7.6): STATE 0 UNREGISTERED, 1 ABSENT, 2 FETCHING, 3 RESIDENT. -/
structure Expert where
  state : Nat := 0
  owner : Nat := 0
  refs : Nat := 0
  units : Nat := 0
  firstUnit : Nat := 0
  fetches : Nat := 0
  body : Option IngestRec := none
  /-- Entry charged for the running fetch, and the job whose end it is when a record or LXJOB started it. -/
  payer : Option Nat := none
  starter : Option Nat := none
  /-- Number of the running fetch: the order in which fetches started (R143). -/
  order : Nat := 0
  /-- Items that the running fetch has placed, blocks it has counted (R140), and the item it has begun. -/
  row : Nat := 0
  counted : Nat := 0
  out : List OutRow := []
  /-- The stripe unit in which the running fetch places its first row, once its access has found it (R137). -/
  first : Option Nat := none
  /-- The running fetch holds pins on the handles of its body (R51). -/
  pinned : Bool := false
  /-- The running fetch is suspended on a fault of its access (R99, R137). -/
  suspended : Bool := false
  /-- The running fetch waits until this beat for a read from a bank in refresh (R13). -/
  holdOff : Nat := 0
  /-- Jobs suspended on the expert, oldest first: (job, port). -/
  waiting : List (Nat × Nat) := []
  deriving DecidableEq, Repr

/-- A prefix index entry (Table 8.2): STATE 0 EMPTY, 1 BUILDING, 2 READY. -/
structure Prefix where
  state : Nat := 0
  tag : BitVec 128 := 0
  block : Nat := 0
  refs : Nat := 0
  gen : Nat := 0
  ctx : Nat := 0
  waiters : Nat := 0
  readySem : Nat := 0
  builder : Nat := 0
  lastUse : Nat := 0
  deriving DecidableEq, Repr

/-! ### Start, link and power -/

/-- Start and firmware state (02). -/
structure Boot where
  state : Nat := 0
  lastFail : Nat := 0
  warm : Bool := false
  failCount : Nat := 0
  detail : Nat := 0
  retained : Bool := false
  retainedDigest : Option (BitVec 512) := none
  digest : Option (BitVec 512) := none
  commit : Bool := false
  committed : Bool := false
  drvFeat : Vector W64 4 := Vector.replicate 4 0
  accFeat : Vector W64 4 := Vector.replicate 4 0
  mbArg0 : W64 := 0
  mbArg1 : W64 := 0
  mbStatus : Nat := 0
  /-- The image that LOAD_IMAGE has read. -/
  image : Option (List Byte) := none
  /-- The memory channels are trained, so that they can enter self-refresh (R25). -/
  memoryUp : Bool := false
  /-- Beat at which the current start step began (R27). -/
  stepAt : Nat := 0
  seq : Nat := 0
  deriving DecidableEq, Repr

/-- A key slot (R54). -/
structure KeySlot where
  key : BitVec 256
  ctx : Nat
  stream : BitVec 32
  nextCtr : Nat
  deriving DecidableEq, Repr

/-- The TDI states named by the manual (R15, R55). -/
inductive Tdi where
  | unlocked
  | locked
  | run
  | error
  deriving DecidableEq, Repr

/-- What the device answered to the last host request. -/
inductive Reply where
  | none
  | data (bytes : List Byte)
  | unsupported
  | status (code : Nat)
  deriving DecidableEq, Repr

/-- The host link and what passes over it (R14, R15, R55). -/
structure Link where
  trained : Bool := false
  lanes : Nat := 0
  rate : Nat := 0
  flit : Bool := false
  tdi : Tdi := .unlocked
  session : Bool := false
  keys : Vector (Option KeySlot) 16 := Vector.replicate 16 none
  /-- Requests accepted that wait for a running CONF_COPY to end, oldest first (R55). -/
  waiting : List Instr := []
  /-- Reads and AtomicOps of the linear window that wait for the refresh of a bank, oldest first (R13). -/
  reads : List Instr := []
  /-- MSI-X vectors sent, newest first. -/
  msix : List Nat := []
  reply : Reply := .none
  /-- A fatal error message has been sent (R24). -/
  fatal : Bool := false
  deriving DecidableEq, Repr

/-- The world outside the package: what it holds and how it answers (DESIGN CHOICE, log 9). -/
structure Env where
  /-- Host memory and peer windows by bus address; unlisted bytes read 0. -/
  hostMem : List Host.Cell := []
  /-- Bus ranges whose accesses complete with an error status: (base, length). -/
  badBus : List (Nat × Nat) := []
  /-- Bus ranges that are windows of peer devices (R20, R21): (base, length). -/
  peers : List (Nat × Nat) := []
  /-- The board's EEPROM: 32 bytes, or none when it does not answer (R28). -/
  eeprom : Option (List Byte) := none
  /-- Selective IDE streams that are bound to the TDI (R15). -/
  ideBound : List (Fin 4) := []
  /-- Junction temperature in 0.1 °C (R24). -/
  temperature : Int := 250
  romFails : Bool := false
  trainFails : Option Nat := none
  selfTestFails : Option (Nat × Bool) := none
  loftFails : Option Nat := none
  calibrationFails : Bool := false
  /-- Every channel enters self-refresh cleanly when asked (R25). -/
  refreshClean : Bool := true
  /-- Columns whose fetch is uncorrectable, by first byte's linear offset (R131). -/
  badColumns : List Nat := []
  /-- Columns each of whose fetches meets an error that on-die ECC corrects (R12, R131). -/
  softColumns : List Nat := []
  deriving DecidableEq, Repr

/-- BOARD_PWR (Table 1.4). -/
structure BoardPwr where
  window : Nat := 0
  peak : Nat := 0
  sustain : Nat := 0
  rampUp : Nat := 0
  rampDown : Nat := 0
  fallback : Bool := false
  deriving DecidableEq, Repr

/-- A launch that waits for ramp slots (R74): its entry, whether it takes slots ahead of others, and the pens left. -/
structure RampWait where
  entry : Nat
  urgent : Bool
  pens : List Nat
  /-- Slots still to be taken before the next release. -/
  left : Nat
  deriving DecidableEq, Repr

/-- Registers and state of the scheduler and the governor (04). -/
structure Gov where
  board : BoardPwr := {}
  ceilCores : Nat := 900
  ceilMatrix : Nat := 900
  ceilBank : Nat := 900
  ceilCopy : Nat := 900
  beReserve : Nat := 12
  pmaxMatrix : Nat := 0x10000
  pmaxCores : Nat := 5200
  modelledMw : Nat := 0
  budgetDw : Nat := 0
  ceilingDw : Nat := 0
  clockStep : Nat := 0
  stopped : Bool := false
  /-- Temperature of the last sample, 0.1 °C. -/
  temperature : Int := 250
  /-- The factor of R22, as a fraction of 1,000. -/
  calibration : Nat := 1000
  windowAt : Nat := 0
  windowStartMw : Nat := 0
  risenMw : Nat := 0
  waiting : List RampWait := []
  /-- Slots (windows, by first beat) reserved for pinned entries: (beat, entry). -/
  reserved : List (Nat × Nat) := []
  /-- Beats at which the next samples of power and of temperature are due (R24, R73). -/
  sampleAt : Nat := 0
  thermalAt : Nat := 0
  deriving DecidableEq, Repr

/-- An error record of the global log (R37). -/
structure ErrRec where
  code : Nat
  unitKind : Nat
  unitIndex : Nat
  entry : Nat
  beat : Nat
  deriving DecidableEq, Repr

/-- Whose turn it is: the core of a core instruction, and the unit, entry or job that a device event acts on. -/
structure Subject where
  core : Fin 64 := 0
  port : Nat := 0
  yard : Fin 8 := 0
  queue : Nat := 0
  ctx : Nat := 0
  entry : Nat := 0
  job : Nat := 0
  bgu : Nat := 0
  channel : Nat := 0
  expert : Nat := 0
  /-- Who writes the register, where the event is a write of a register (R15). -/
  src : Requester := { peer := false, stream := none }
  deriving DecidableEq, Repr

/-- Which agent moves next (DESIGN CHOICE, log 3). -/
inductive Action where
  /-- A device event, on its subject. -/
  | event (i : Instr) (u : Subject)
  /-- One issue slot of a core. -/
  | core (c : Fin 64)
  /-- One word of a port of a bank job. -/
  | port (job die : Nat)
  /-- One beat passes. -/
  | tick
  deriving DecidableEq, Repr

/-- A block table as the front end caches it (R150): its header and the entries read so far. -/
structure BlockCache where
  ctx : Nat
  addr : W64
  header : List Byte
  sets : SMap (Option Nat)
  deriving DecidableEq, Repr

/-- A sidecar line as the work that accesses its page has fetched it: the work (a job, or a fetch by its order), the page's virtual
address, the line, and the code table that it names (R90, R138). -/
structure Sidecar where
  work : Nat
  page : Nat
  line : List Byte
  table : List Byte
  deriving DecidableEq, Repr

/-- The state of the device. -/
structure State where
  beat : Nat := 0
  boot : Boot := {}
  link : Link := {}
  env : Env := {}
  gov : Gov := {}
  /-- Package memory as the bank arrays hold it, and the loft, by physical address. -/
  mem : List Host.Cell := []
  /-- The MCS write queues, newest first: bytes performed at the coherence point and not yet in the arrays (R101). -/
  wq : List Host.Cell := []
  queues : SMap WorkQueue := []
  ctxs : Vector Context 64 := Vector.replicate 64 {}
  sems : Vector Sem 256 := Vector.replicate 256 {}
  pens : Vector Pen 256 := Vector.replicate 256 {}
  yards : Vector Yard 8 := Vector.replicate 8 {}
  cores : Vector Core 64 := Vector.replicate 64 {}
  mcs : Vector Mcs 48 := Vector.replicate 48 {}
  /-- BGUs paused for a refresh: bank, and beat at which the pause ends, by BGU index. -/
  pauses : SMap (Nat × Nat) := []
  entries : List Entry := []
  launches : List LaunchGen := []
  ready : List ContRec := []
  jobs : List Job := []
  bankJobs : List BankJob := []
  experts : SMap Expert := []
  prefixes : SMap Prefix := []
  /-- References (slot, entry ID) held in the prefix index (R154). -/
  prefixRefs : List (Nat × Nat) := []
  /-- Cached block tables, the last used first (R150). -/
  blockTabs : List BlockCache := []
  errors : List ErrRec := []
  errorCount : Nat := 0
  eccCount : Nat := 0
  /-- Beat on which the ordinary reads of the turn that runs now have all been served (R13). -/
  served : Nat := 0
  /-- Last beat with ordinary reads of package memory, and the channels that they used (R73). -/
  readBeat : Nat := 0
  readChannels : List Nat := []
  /-- Firmware and the front end wait until this beat for a read from a bank in refresh (R13). -/
  firmAt : Nat := 0
  /-- Sidecar lines that running work has fetched (R90). -/
  sidecars : List Sidecar := []
  /-- Next number for continuations, jobs, launches and takes. -/
  fresh : Nat := 1
  subj : Subject := {}
  /-- Agents still to take their turn in this beat: cores from this index on. -/
  round : Nat := 0
  agenda : List Action := []
  deriving DecidableEq, Repr

/-- The device right after power is applied: every part at its reset value, no start step begun (DESIGN CHOICE, log 7). -/
def State.reset : State := {}

end Sys2Proof.Machine
end

