-- ==== Sys2Proof/Machine/Bits.lean ====
section
/-! DEFINITION. Bit fields, signed values, lanes of a register, byte order, and the sparse maps that State is made of. -/

namespace Sys2Proof.Machine

/-- The low `w` bits of `n` read as two's complement (R247). -/
def sext (w n : Nat) : Int :=
  let m := n % 2 ^ w
  if m < 2 ^ (w - 1) then (m : Int) else (m : Int) - (2 ^ w : Nat)

/-- An integer taken modulo 2^w (R247). -/
def wrap (w : Nat) (i : Int) : Nat := (i % ((2 ^ w : Nat) : Int)).toNat

/-- `i` brought into the range of a `w`-bit two's complement number. -/
def clampS (w : Nat) (i : Int) : Int :=
  let hi : Int := ((2 ^ (w - 1) : Nat) : Int)
  if i < -hi then -hi else if i ≥ hi then hi - 1 else i

/-- A 64-bit register read as two's complement (R247). -/
def sgn (x : W64) : Int := sext 64 x.toNat

/-- The 64-bit register that holds an integer modulo 2^64. -/
def w64 (i : Int) : W64 := BitVec.ofNat 64 (wrap 64 i)

/-- 1 or 0. -/
def bit (b : Bool) : Nat := if b then 1 else 0

/-- Bit `i` of a number. -/
def nbit (x i : Nat) : Bool := x / 2 ^ i % 2 == 1

/-- The ceiling of a quotient. -/
def ceilDiv (a b : Nat) : Nat := (a + b - 1) / b

/-- The numbers `a`, `a + 1`, … of which there are `n`. -/
def upFrom (a n : Nat) : List Nat := (List.range n).map (a + ·)

/-- Lane `j` of a register at element width `w` (R160). -/
def lane (w x j : Nat) : Nat := fld x (w * j) w

/-- A register put together from its lanes, lane 0 first (R160). -/
def packLanes (w : Nat) : List Nat → Nat
  | [] => 0
  | x :: xs => x % 2 ^ w + 2 ^ w * packLanes w xs

/-- The first `n` lanes of a register at width `w`. -/
def lanesOf (w n x : Nat) : List Nat := (List.range n).map (lane w x)

/-- A vector register from its lanes. -/
def vecOf (w : Nat) (xs : List Nat) : VReg := BitVec.ofNat 1024 (packLanes w xs)

/-- Bits of a vector register that the active lanes cover, for lanes of width `w`. -/
def laneMask (w n : Nat) (active : Nat → Bool) : VReg :=
  vecOf w ((List.range n).map fun j => if active j then 2 ^ w - 1 else 0)

/-- The bit of a mask register that belongs to lane `j` at element width `w` (R160). -/
def maskBit (w j : Nat) : Nat := w / 8 * j

/-- A mask register with the bits of the lanes that hold, at element width `w` (R160, R271). -/
def maskOf (w n : Nat) (holds : Nat → Bool) : KReg :=
  BitVec.ofNat 128 (packLanes (w / 8) ((List.range n).map fun j => bit (holds j)))

/-- Bytes read as a little-endian number (R3). -/
def fromBytes (bs : List Byte) : Nat := leNat bs

/-- A number as `n` little-endian bytes (R3). -/
def toBytes (n x : Nat) : List Byte := leBytes n x

/-- `n` bytes of the list from offset `o`, as a little-endian number; bytes past the end read 0. -/
def numAt (bs : List Byte) (o n : Nat) : Nat := leNat ((bs.drop o).take n)

/-- The length of a run of ones that a 64-bit number begins with at bit 63, of the complement: leading zeros. -/
def leadingZeros (w x : Nat) : Nat := if x = 0 then w else w - 1 - Nat.log2 x

/-- Trailing zeros of a number of at most `fuel` bits; `fuel` for 0. -/
def trailingZeros : Nat → Nat → Nat
  | 0, _ => 0
  | fuel + 1, x => if x % 2 = 1 then 0 else 1 + trailingZeros fuel (x / 2)

/-- Ones among the low `fuel` bits of a number. -/
def popCount : Nat → Nat → Nat
  | 0, _ => 0
  | fuel + 1, x => x % 2 + popCount fuel (x / 2)

/-! ### Sparse maps: keys strictly rising, no entry equal to the default -/

/-- The value at a key; `d` where none is listed. -/
def SMap.get {α : Type} (d : α) (m : SMap α) (k : Nat) : α :=
  match m with
  | [] => d
  | (k', x) :: m => if k' = k then x else SMap.get d m k

/-- The map with a pair for a key, before the first larger key. -/
def SMap.put {α : Type} (m : SMap α) (k : Nat) (x : α) : SMap α :=
  match m with
  | [] => [(k, x)]
  | (k', y) :: m => if k < k' then (k, x) :: (k', y) :: m else if k = k' then (k, x) :: m else (k', y) :: SMap.put m k x

/-- The map with a new value at a key, in canonical form when the map was. -/
def SMap.set {α : Type} [DecidableEq α] (d : α) (m : SMap α) (k : Nat) (x : α) : SMap α :=
  if x = d then m.filter fun y => decide (y.1 ≠ k) else SMap.put m k x

/-- The canonical form of a map: keys strictly rising from `lo`, no entry equal to the default. -/
def SMap.wfFrom {α : Type} [DecidableEq α] (d : α) (lo : Nat) (m : SMap α) : Bool :=
  match m with
  | [] => true
  | (k, x) :: m => decide (lo ≤ k) && decide (x ≠ d) && SMap.wfFrom d (k + 1) m

/-- The canonical form of a map. -/
def SMap.wf {α : Type} [DecidableEq α] (d : α) (m : SMap α) : Bool := SMap.wfFrom d 0 m

/-! ### Vectors by number -/

/-- Element `i` of a vector, or `d` past its end. -/
def vget {α : Type} {n : Nat} (d : α) (v : Vector α n) (i : Nat) : α := if h : i < n then v[i] else d

/-- The vector with a new element `i`; unchanged when `i` is past its end. -/
def vset {α : Type} {n : Nat} (v : Vector α n) (i : Nat) (x : α) : Vector α n := if h : i < n then v.set i x else v

/-- The element that holds the least key, the first of several. -/
def argMin? {α : Type} (lt : α → α → Bool) : List α → Option α
  | [] => none
  | x :: xs =>
    match argMin? lt xs with
    | none => some x
    | some y => if lt y x then some y else some x

/-- A list kept in order by insertion. -/
def insertBy {α : Type} (lt : α → α → Bool) (x : α) : List α → List α
  | [] => [x]
  | y :: ys => if lt x y then x :: y :: ys else y :: insertBy lt x ys

/-- A list put in order; equal elements keep their places. -/
def sortBy {α : Type} (lt : α → α → Bool) (xs : List α) : List α := xs.reverse.foldl (fun acc x => insertBy (fun a b => !(lt b a)) x acc) []

end Sys2Proof.Machine
end

