-- ==== Sys2Proof/Machine/Mem.lean ====
section
/-! DEFINITION. Memory by physical address: the bank arrays and the loft, the MCS write queue before the arrays
(R80, R101), host memory, and the staging ranges that a confidential copy holds (R56). -/

namespace Sys2Proof.Machine

/-- A list of cells as a sparse map of bytes. -/
abbrev Memory := List Host.Cell

/-- The byte at an address; an unlisted address reads Config.unwritten (DESIGN CHOICE, log 2). -/
def Memory.read (m : Memory) (a : Nat) : Byte := SMap.get Config.unwritten m a

/-- One byte written, in canonical form. -/
def Memory.write (m : Memory) (a : Nat) (b : Byte) : Memory := SMap.set Config.unwritten m a b

/-- The canonical form of memory: addresses strictly rising and no listed byte equal to what an unlisted one reads. -/
def Memory.wf (m : Memory) : Bool := SMap.wf Config.unwritten m

/-- Where a physical address lies (Table 5.1). -/
inductive Region where
  | package
  | loft
  | queuePage
  | contextPage
  | nowhere
  deriving DecidableEq, Repr

/-- The region of a physical address (Table 5.1). -/
def regionOf (pa : Nat) : Region :=
  if pa < Config.packageBytes then .package
  else if Config.loftBase ≤ pa ∧ pa < Config.loftBase + 0x8000000 then .loft
  else if Config.queuePages ≤ pa ∧ pa < Config.contextPages then .queuePage
  else if Config.contextPages ≤ pa ∧ pa < Config.contextPages + 0x40000 then .contextPage
  else .nowhere

/-- The yard whose slice holds a loft address (R91). -/
def loftYard (pa : Nat) : Nat := (pa - Config.loftBase) / 0x1000000

/-- The loft bank of its yard that holds a loft address (R91). -/
def loftBank (pa : Nat) : Nat := (pa - Config.loftBase) / 0x40000 % 64

/-- The newest byte of an address in a write queue (newest first), if it holds one. -/
def queuedByte (wq : List Host.Cell) (a : Nat) : Option Byte :=
  match wq with
  | [] => none
  | (a', b) :: wq => if a' = a then some b else queuedByte wq a

/-- The range of package memory that a running confidential copy holds, of every context (R56). -/
def State.heldAt (s : State) (pa : Nat) : Bool :=
  s.ctxs.toList.any fun c => c.held.any fun h => decide (h.2.1 ≤ pa ∧ pa < h.2.1 + h.2.2)

/-- The byte that a reader at the coherence point gets (R101), with a held staging range reading zero (R56; DESIGN CHOICE, log 4). A copy
on a register page reads zero there (DESIGN CHOICE, log 89). -/
def State.readByte (s : State) (pa : Nat) : Byte :=
  if s.heldAt pa then 0 else (queuedByte s.wq pa).getD (Memory.read s.mem pa)

/-- The byte in the arrays, as the BANK path reads it (R101), with a held staging range reading zero (R56). -/
def State.arrayByte (s : State) (pa : Nat) : Byte := if s.heldAt pa then 0 else Memory.read s.mem pa

/-- One byte written at the coherence point: into the MCS write queue for package memory, at the bank for the loft;
discarded in a held staging range (R56, R101). What a copy writes to a register page is dropped (DESIGN CHOICE, log 89). -/
def State.writeByte (s : State) (pa : Nat) (b : Byte) : State :=
  if s.heldAt pa then s
  else
    match regionOf pa with
    | .package => { s with wq := (pa, b) :: s.wq }
    | .loft => { s with mem := Memory.write s.mem pa b }
    | _ => s

/-- One byte written into the bank arrays, past the write queue: the BANK path and the layout engine (R101). -/
def State.writeArray (s : State) (pa : Nat) (b : Byte) : State :=
  if s.heldAt pa then s
  else { s with mem := Memory.write s.mem pa b, wq := s.wq.filter (fun c => c.1 ≠ pa) }

/-- Bytes read from consecutive physical addresses. -/
def State.readBytes (s : State) (pa n : Nat) : List Byte := (upFrom pa n).map s.readByte

/-- Bytes written to consecutive physical addresses. -/
def State.writeBytes (s : State) (pa : Nat) : List Byte → State
  | [] => s
  | b :: bs => (s.writeByte pa b).writeBytes (pa + 1) bs

/-- A little-endian number read from physical addresses. -/
def State.readNum (s : State) (pa n : Nat) : Nat := fromBytes (s.readBytes pa n)

/-! ### Placement in the banks (R94) -/

/-- Where a linear offset lies in the banks (R94). -/
structure Place where
  die : Nat
  channel : Nat
  group : Nat
  bgu : Nat
  bank : Nat
  row : Nat
  col : Nat
  byte : Nat
  deriving DecidableEq, Repr

/-- The striping function of R94. -/
def placeOf (l : Nat) : Place :=
  let u := l / 16000
  let b := l % 16000
  let i := u % 384
  let d := i % 48
  let j := i / 48
  let h := j % 2
  let g := j / 2
  let v := u / 384
  { die := d, channel := 2 * d + h, group := g, bgu := 8 * d + 4 * h + g, bank := v % 4,
    row := 10 * (v / 4) + b / 1600, col := b % 1600 / 64, byte := b % 64 }

/-! ### The arrays and their refreshes (R13, R128) -/

/-- The beat on which the refresh of the bank that holds a byte of package memory ends; 0 where none runs (R13). -/
def State.refreshEnd (s : State) (pa : Nat) : Nat :=
  if regionOf pa = .package then
    let p := placeOf pa
    match s.pauses.find? fun x => x.1 = p.bgu && x.2.1 = p.bank with
    | some x => x.2.2
    | none => 0
  else 0

/-- An ordinary access of the byte waits for a refresh of its bank (R13). -/
def State.refreshing (s : State) (pa : Nat) : Bool := decide (s.beat < s.refreshEnd pa)

/-- Waiting writes enter the arrays in the order in which they came: all of them, or those for which `now` holds. -/
def State.flush (s : State) (now : Nat → Bool) : State :=
  { s with mem := (s.wq.filter fun c => now c.1).foldr (fun c m => Memory.write m c.1 c.2) s.mem, wq := s.wq.filter fun c => !(now c.1) }

/-- The waiting writes enter the arrays, but for those whose bank is in a refresh, which wait for its end (R13, R101, R104 scope memory;
DEDUCED, log 54). -/
def State.drainWrites (s : State) : State := s.flush fun pa => !(s.refreshing pa)

/-- Waiting writes cannot all enter the arrays yet: a bank of one of them is in a refresh (R13). -/
def State.drainWaits (s : State) : Bool := s.wq.any fun c => s.refreshing c.1

/-- The oldest waiting writes of one line of 64 bytes enter the arrays, in the order in which they came and not before a
refresh of their bank has ended (R13, R103, R128). -/
def State.drainLine (s : State) : State :=
  match s.wq.reverse with
  | [] => s
  | c :: _ =>
    if s.refreshing c.1 then s
    else
      let line := s.wq.reverse.takeWhile fun x => x.1 / 64 = c.1 / 64
      { s with mem := line.foldl (fun m x => Memory.write m x.1 x.2) s.mem, wq := s.wq.take (s.wq.length - line.length) }

/-! ### Fetches of columns (R12, R13, R131) -/

/-- Columns of package memory in which the bytes lie. -/
def columnsOf (pas : List Nat) : List Nat := ((pas.filter fun pa => regionOf pa == .package).map fun pa => pa / 64 * 64).eraseDups

/-- An error that ECC corrects in a column is counted, on the die and for the device (R12, R131, Table 7.3). -/
def State.countColumn (s : State) (c : Nat) : State :=
  let d := (placeOf c).die
  let m := vget ({} : Mcs) s.mcs d
  { s with mcs := vset s.mcs d { m with correctedEcc := min (m.correctedEcc + 1) 65535 }, eccCount := s.eccCount + 1 }

/-- Fetches of columns: each error that ECC corrects is counted. -/
def State.countEcc (s : State) (columns : List Nat) : State :=
  (columns.filter s.env.softColumns.contains).foldl State.countColumn s

/-- First beat on which an ordinary read of the bytes can be served: the end of the refreshes of their banks (R13). -/
def State.servedAt (s : State) (pas : List Nat) : Nat := ((columnsOf pas).map s.refreshEnd).foldl max 0

/-- Channels that transfer for ordinary reads on this beat, with those of some columns (R73). -/
def State.channelsWith (s : State) (columns : List Nat) : List Nat :=
  ((if s.readBeat = s.beat then s.readChannels else []) ++ columns.map fun c => (placeOf c).channel).eraseDups

/-- An ordinary read of bytes: its columns are fetched, their channels transfer, and the turn that makes it has it once the refreshes of
their banks are over (R12, R13, R73). -/
def State.ordinaryRead (s : State) (pas : List Nat) : State :=
  match columnsOf pas with
  | [] => s
  | c :: cs =>
    { s.countEcc (c :: cs) with
      served := max s.served (s.servedAt pas), readBeat := s.beat, readChannels := s.channelsWith (c :: cs) }

/-- A read that this turn has made is still to be served: the turn waits (R13). -/
def State.unserved (s : State) : Bool := decide (s.beat < s.served)

/-! ### Host memory -/

/-- Whether any byte of a bus range lies where accesses complete with an error status (DESIGN CHOICE, log 9). -/
def State.busError (s : State) (a n : Nat) : Bool :=
  s.env.badBus.any fun r => decide (r.1 < a + n ∧ a < r.1 + r.2)

/-- Bytes of host memory or a peer's window. -/
def State.readBus (s : State) (a n : Nat) : List Byte := (upFrom a n).map (SMap.get 0 s.env.hostMem)

/-- Bytes written to consecutive addresses of a host memory. -/
def putBus (m : List Host.Cell) (a : Nat) : List Byte → List Host.Cell
  | [] => m
  | b :: bs => putBus (SMap.set 0 m a b) (a + 1) bs

/-- Bytes written to host memory or a peer's window. -/
def State.writeBus (s : State) (a : Nat) (bs : List Byte) : State :=
  { s with env := { s.env with hostMem := putBus s.env.hostMem a bs } }

/-! ### The global error log -/

/-- One error record (R37): fault code, unit kind, unit index and entry ID, on the current beat. -/
def State.logError (s : State) (code kind index entry : Nat) : State :=
  { s with errors := { code := code, unitKind := kind, unitIndex := index, entry := entry, beat := s.beat } :: s.errors,
           errorCount := s.errorCount + 1 }

/-- A work queue; one never configured holds the reset values (R38). -/
def State.queue (s : State) (n : Nat) : WorkQueue := SMap.get ({} : WorkQueue) s.queues n

def State.setQueue (s : State) (n : Nat) (q : WorkQueue) : State := { s with queues := SMap.set ({} : WorkQueue) s.queues n q }

/-- A context. -/
def State.ctxAt (s : State) (c : Nat) : Context := vget {} s.ctxs c

def State.setCtx (s : State) (c : Nat) (x : Context) : State := { s with ctxs := vset s.ctxs c x }

/-- A feature of Table 2.6 is accepted (R36). -/
def State.accepts (s : State) (bit_ : Nat) : Bool := (vget 0 s.boot.accFeat 0).getLsbD bit_

/-- Bits of feature word 0 (Table 2.6). -/
def featConfCopy : Nat := 0
def featExpertPaging : Nat := 1
def featPrefixIndex : Nat := 2
def featLunge : Nat := 3
def featSparse24 : Nat := 4
def featP2pIngest : Nat := 5
def featDeadline : Nat := 6
def featTdisp : Nat := 7
def featDevQueues : Nat := 8
def featAtom16 : Nat := 9

/-- An MSI-X message is sent. -/
def State.sendMsix (s : State) (vector : Nat) : State :=
  { s with link := { s.link with msix := vector :: s.link.msix } }

end Sys2Proof.Machine
end

