-- ==== Sys2Proof/Machine/Sems.lean ====
section
/-! DEFINITION. The semaphore file: counters, queues of takes, and grants in queue order (R298, R299, R180, R263). -/

namespace Sys2Proof.Machine

def State.sem (s : State) (n : Nat) : Sem := vget {} s.sems n

def State.setSem (s : State) (n : Nat) (x : Sem) : State := { s with sems := vset s.sems n x }

/-- Whether a semaphore is assigned to a context (R298). -/
def State.semOwned (s : State) (n ctx : Nat) : Bool := (s.sem n).assigned && (s.sem n).ctx == ctx

/-- A core takes its own units: the grant of a semw is one step with its issue (R291), and that of an interrupt with its trap, at
an instruction boundary (R180). -/
def Taker.serves : Taker → Bool
  | .interrupt _ => true
  | .core _ => true
  | _ => false

/-- Takes granted from the head of the queue while the counter covers them (R299), up to one that a core is to serve: the takes
left, the counter, and those granted. -/
def grantTakes : List Take → Nat → List Take × Nat × List Nat
  | [], n => ([], n, [])
  | t :: ts, n =>
    if t.who.serves || decide (n < t.units) then (t :: ts, n, [])
    else
      match grantTakes ts (n - t.units) with
      | (rest, m, ids) => (rest, m, t.id :: ids)

/-- The semaphore after every take at its head that the counter covers has been granted (R299). -/
def Sem.grant (x : Sem) : Sem :=
  match grantTakes x.takes x.count with
  | (rest, n, ids) => { x with takes := rest, count := n, granted := x.granted ++ ids }

/-- A CONT successor becomes ready on the beat on which its take is granted (R263). -/
def ContRec.ungate (n beat : Nat) (granted : List Nat) (r : ContRec) : ContRec :=
  match r.gate with
  | some (m, id) => if m = n ∧ id ∈ granted then { r with gate := none, ready := beat } else r
  | none => r

/-- Grants of semaphore `n` are made. -/
def State.settleSem (s : State) (n : Nat) : State :=
  let x := (s.sem n).grant
  { s.setSem n x with ready := s.ready.map (ContRec.ungate n s.beat x.granted) }

/-- A signal of `units` by an engine job, the front end or SEMSW: it leaves the counter at 0xFFFF where it would pass it,
and tells so (R299). -/
def State.signal (s : State) (n units : Nat) : State × Bool :=
  let x := s.sem n
  if 0xFFFF < x.count + units then ((s.setSem n { x with count := 0xFFFF }).settleSem n, true)
  else ((s.setSem n { x with count := x.count + units }).settleSem n, false)

/-- A signal by an agent that logs SEM_OVERFLOW (0x08) under its unit kind and index and the entry ID it works for
(R299, R57). The signal is a release at package scope, so waiting writes enter the arrays first (R113). -/
def State.signalLogged (s : State) (n kind index entry : Nat) : State :=
  match s.drainWrites.signal n 1 with
  | (s, excess) => if excess then s.logError 0x08 kind index entry else s

/-- A take placed at the back of the queue (R299), and its number. -/
def State.placeTake (s : State) (n units : Nat) (who : Taker) : State × Nat :=
  let x := s.sem n
  let t : Take := { id := s.fresh, units := units, who := who }
  ({ s.setSem n { x with takes := x.takes ++ [t] } with fresh := s.fresh + 1 }.settleSem n, s.fresh)

/-- A take that a core serves stands at the head of the queue, and the counter covers it (R180, R299). -/
def State.servable (s : State) (n id : Nat) : Bool :=
  let x := s.sem n
  match x.takes.head? with
  | some t => t.id == id && decide (t.units ≤ x.count)
  | none => false

/-- The core serves its take at the head of the queue: the units are taken, and the takes behind it that the counter covers are
granted (R180, R291, R299). -/
def State.serveTake (s : State) (n : Nat) : State :=
  let x := s.sem n
  (s.setSem n { x with count := x.count - ((x.takes.head?.map (·.units)).getD 0), takes := x.takes.tail }).settleSem n

/-- Whether a take has been granted. -/
def State.granted (s : State) (n id : Nat) : Bool := id ∈ (s.sem n).granted

/-- A granted take is noticed by its taker. -/
def State.noticeTake (s : State) (n id : Nat) : State :=
  let x := s.sem n
  s.setSem n { x with granted := x.granted.filter (· ≠ id) }

/-- A take that has not been granted is withdrawn and loses its place; a granted one is forgotten (R299). -/
def State.dropTake (s : State) (n id : Nat) : State :=
  let x := s.sem n
  (s.setSem n { x with takes := x.takes.filter (·.id ≠ id), granted := x.granted.filter (· ≠ id) }).settleSem n

/-- An optional take withdrawn. -/
def State.dropTake? (s : State) : Option (Nat × Nat) → State
  | none => s
  | some (n, id) => s.dropTake n id

end Sys2Proof.Machine
end

