-- ==== Sys2Proof/Machine/Entry.lean ====
section
/-! DEFINITION. Work entries in flight: charging faults to them, and stopping their work (R50, R57, R70, R179). -/

namespace Sys2Proof.Machine

/-- STATUS of a completion record (Table 3.10). -/
def statusDone : Nat := 0
def statusDoneErrors : Nat := 1
def statusRejected : Nat := 2
def statusAborted : Nat := 3
def statusFailed : Nat := 4
def statusTagFail : Nat := 5

/-- The entry in flight with an ID. -/
def State.entry? (s : State) (id : Nat) : Option Entry := s.entries.find? (·.id = id)

/-- A change to the entry in flight with an ID. -/
def State.modEntry (s : State) (id : Nat) (f : Entry → Entry) : State :=
  { s with entries := s.entries.map fun e => if e.id = id then f e else e }

/-- A fault or detected error charged to an entry (Table 3.9). -/
def Entry.charge (code : Nat) (e : Entry) : Entry :=
  { e with faults := min (e.faults + 1) 0xFFFFFFFF, firstFault := if e.firstFault = 0 then code else e.firstFault }

def State.chargeFault (s : State) (id code : Nat) : State := s.modEntry id (Entry.charge code)

/-- A core whose continuation has gone (R161, R179): it holds no take, no operation in flight and no fault. -/
def Core.release (c : Core) : Core :=
  { c with running := false, flight := [], rplq := [], loop := none, take := none, intTake := none, pbarGen := [],
           fed := [], hollow := false, deferred := [], preemptReq := false, resumed := false, budgetTrap := false }

/-- The core with an index, and a change to it. -/
def State.coreAt (s : State) (i : Nat) : Core := vget {} s.cores i

def State.modCoreAt (s : State) (i : Nat) (f : Core → Core) : State := { s with cores := vset s.cores i (f (s.coreAt i)) }

/-- A core gives up its continuation: its takes are withdrawn and the faults its jobs had raised are charged (R179). -/
def State.vacate (s : State) (i : Nat) : State :=
  let c := s.coreAt i
  let s := c.deferred.foldl (fun s d => s.chargeFault c.entry d.code.toNat) s
  ((s.dropTake? c.take).dropTake? c.intTake).modCoreAt i Core.release

/-- Accumulator rows that continuations made live are cleared, and are live no more unless a row that has streamed is still to land
on them: that one makes them live (R50, R187, R198). -/
def MatArray.clearRows (a : MatArray) (gone : Nat → Bool) : MatArray :=
  let dead := a.live.filter fun r => gone r.2
  { a with live := a.live.filterMap (fun r => if gone r.2 then (a.landings.find? (·.accRow = r.1)).map fun l => (r.1, l.cont) else some r),
           acc := a.acc.filter fun w => !(dead.any fun r => r.1 = w.1 / 64) }

/-- A change to the bank job with a number. -/
def State.modBank (s : State) (id : Nat) (f : BankJob → BankJob) : State :=
  { s with bankJobs := s.bankJobs.map fun b => if b.id = id then f b else b }

/-- A bank job takes a reference to an expert, and its ports that waited for it go on (R143, R144). One that has waited is ready with
its former dispatch key: it gives up the MCSs that it still had, and is dispatched again by that key (DEDUCED, log 79). -/
def State.takeRef (s : State) (x job : Nat) : State :=
  let e := SMap.get ({} : Expert) s.experts x
  let e := { e with refs := e.refs + 1, waiting := e.waiting.filter (·.1 ≠ job) }
  let s := { s with experts := SMap.set ({} : Expert) s.experts x e }
  let waited := s.bankJobs.any fun b => b.id = job && b.ports.any fun p => p.onExpert.any (·.1 = x)
  let s := s.modBank job fun b => { b with
    refs := b.refs ++ [x],
    ports := b.ports.map fun p => if p.onExpert.any (·.1 = x) then { p with onExpert := none } else p }
  if waited then
    { s with jobs := s.jobs.map fun j => if j.id = job && j.phase = .running then { j with phase := .queued } else j,
             mcs := s.mcs.map fun (m : Mcs) => if m.holder = some job then { m with holder := none } else m }
  else s

/-- A reference to an expert is released: the job that has waited longest for a reference takes it (R144). -/
def State.releaseRef (s : State) (x : Nat) : State :=
  let e := SMap.get ({} : Expert) s.experts x
  let less := { e with refs := e.refs - 1 }
  let s := { s with experts := SMap.set ({} : Expert) s.experts x less }
  match e.waiting with
  | w :: _ => if e.state = 3 then s.takeRef x w.1 else s
  | [] => s

/-- A bank job releases its references and waits for none (R144). -/
def State.releaseRefs (s : State) (id : Nat) : State :=
  let held := (s.bankJobs.filter (·.id = id)).flatMap (·.refs)
  let s := { s with experts := s.experts.map fun (x : Nat × Expert) => (x.1, { x.2 with waiting := x.2.waiting.filter (·.1 ≠ id) }) }
  held.foldl State.releaseRef (s.modBank id fun b => { b with refs := [] })

/-- The pins that transfers hold on handles are released, and a FREEING slot whose last pin goes becomes FREE with the
next generation (R51). -/
def unpin (ctxs : Vector Context 64) (ctx slot : Nat) : Vector Context 64 :=
  let c := vget {} ctxs ctx
  let h := SMap.get ({} : Handle) c.handles slot
  let h := { h with pins := h.pins - 1 }
  let h := if h.st = .freeing && h.pins = 0 then { ({} : Handle) with gen := (h.gen + 1) % 65536 } else h
  vset ctxs ctx { c with handles := SMap.set ({} : Handle) c.handles slot h }

/-- One more pin on a handle's slot (R51). -/
def pin (ctxs : Vector Context 64) (ctx slot : Nat) : Vector Context 64 :=
  let c := vget {} ctxs ctx
  let h := SMap.get ({} : Handle) c.handles slot
  vset ctxs ctx { c with handles := SMap.set ({} : Handle) c.handles slot { h with pins := h.pins + 1 } }

/-- The handle slots that a job pins (R51, R333). -/
def JobKind.pinned : JobKind → List Nat
  | .layout r _ => [fld r.src.toNat 0 16, fld r.dst.toNat 0 16]
  | _ => []

/-- A fault that the job has raised and nothing has charged yet: that of a suspension, or the one it has stopped with (R100,
R179). -/
def Job.raised (j : Job) : Option (BitVec 8) :=
  match j.phase with
  | .suspended => some j.fault
  | .failed code => some code
  | _ => none

/-- The jobs for which `gone` holds are cancelled at once, with their landings, their drained rows, their lunge runs, their bank ports
and the rows of the continuations that have no other job on an array (R50 step 3). The fault that one of them had raised is charged to
its entry (R100, R179). -/
def State.cancelJobs (s : State) (gone : Job → Bool) : State :=
  let dead := s.jobs.filter gone
  let s := dead.foldl (fun s j => match j.raised with
    | some code => s.chargeFault j.entry code.toNat
    | none => s) s
  let s := dead.foldl (fun s j => match j.take, j.wait with
    | some id, some n => s.dropTake n id
    | _, _ => s) s
  let isDead := fun id => dead.any (·.id = id)
  let s := s.bankJobs.foldl (fun s b => if isDead b.id then
      b.ports.foldl (fun s p => s.dropTake? p.take) s
    else s) s
  let s := s.bankJobs.foldl (fun s b => if isDead b.id && !b.ended then s.releaseRefs b.id else s) s
  let onArray := fun (j : Job) => match j.unit with
    | .array _ => true
    | _ => false
  let stays := (s.jobs.filter fun j => !(gone j) && onArray j).map (·.cont)
  let matConts := ((dead.filter onArray).map (·.cont)).filter fun c => !(stays.contains c)
  let s := { s with ctxs := dead.foldl (fun (cs : Vector Context 64) (j : Job) => j.kind.pinned.foldl (fun cs h => unpin cs j.ctx h) cs) s.ctxs }
  { s with
    jobs := s.jobs.filter (fun j => !(gone j)),
    bankJobs := s.bankJobs.filter (fun b => !(isDead b.id) || b.ended),
    mcs := s.mcs.map (fun (m : Mcs) => if m.holder.any isDead then { m with holder := none } else m),
    yards := s.yards.map fun (y : Yard) =>
      let a := { y.arr with
        landings := y.arr.landings.filter (fun l => !(isDead l.job)),
        drained := y.arr.drained.filter (fun r => !(isDead r.job)),
        lunge := match y.arr.lunge with
          | some r => if isDead r.job then none else some r
          | none => none }
      { y with arr := a.clearRows fun c => c ∈ matConts } }

/-- An array whose live rows are those of an entry for which `gone` holds, and that runs no job of it any more, loses them, so that it
stands at retirement (R50 step 3). -/
def State.discardRows (s : State) (gone : Nat → Bool) : State :=
  let idle := fun (y : Fin 8) => !(s.jobs.any fun j => j.unit == .array y.val && gone j.entry)
  { s with yards := Vector.ofFn fun (y : Fin 8) =>
      let yd := s.yards[y]
      if yd.arr.lastEntry.any gone && idle y then
        { yd with arr := { yd.arr with acc := [], live := [], landings := [], parked := yd.arr.parked.filter fun p => !(gone p.1) } }
      else yd }

/-- The staging range that the confidential copy of an entry holds in a context is released (R56). -/
def State.unhold (s : State) (ctx entry : Nat) : State :=
  let c := vget {} s.ctxs ctx
  { s with ctxs := vset s.ctxs ctx { c with held := c.held.filter fun h => h.1 ≠ entry } }

/-- The staging range that the confidential copy of an entry holds is scrubbed and released (R52, R56). -/
def State.scrubHeld (s : State) (ctx entry : Nat) : State :=
  let own := (vget {} s.ctxs ctx).held.filter fun h => h.1 = entry
  let out := fun (x : Host.Cell) => own.all fun h => decide (x.1 < h.2.1 ∨ h.2.1 + h.2.2 ≤ x.1)
  { s.unhold ctx entry with mem := s.mem.filter out, wq := s.wq.filter out }

/-! ### Fetches of experts (R143) -/

/-- The generation of a handle slot: 16 bits (R51). -/
def Context.generation (c : Context) (slot : Nat) : Nat := ((SMap.get ({} : Handle) c.handles slot).gen + c.handleEpoch) % 65536

/-- The slot and generation of a handle. -/
def handleSlot (h : BitVec 32) : Nat := fld h.toNat 0 16
def handleGen (h : BitVec 32) : Nat := fld h.toNat 16 16

/-- The slot of a context that a handle names, when its generation matches and it is SET or FREEING. -/
def Context.handle? (c : Context) (h : BitVec 32) : Option Handle :=
  let x := SMap.get ({} : Handle) c.handles (handleSlot h)
  if handleSlot h ≠ 0 ∧ x.st ≠ .free ∧ c.generation (handleSlot h) = handleGen h then some x else none

/-- STATE of a directory entry (Table 7.6). -/
def expertAbsent : Nat := 1
def expertFetching : Nat := 2
def expertResident : Nat := 3

/-- A directory entry. -/
def State.expert (s : State) (x : Nat) : Expert := SMap.get ({} : Expert) s.experts x

def State.setExpert (s : State) (x : Nat) (e : Expert) : State := { s with experts := SMap.set ({} : Expert) s.experts x e }

/-- A fetch of an expert starts (R143 step 1); the handles of its body are pinned (R51; DEDUCED, log 37). -/
def State.startFetch (s : State) (x entry : Nat) (starter : Option Nat) : State :=
  let e := s.expert x
  let c := s.ctxAt e.owner
  let pins := match e.body with
    | some r => if (c.handle? r.src).isSome && (c.handle? r.dst).isSome then [handleSlot r.src, handleSlot r.dst] else []
    | none => []
  let s := s.setExpert x { e with
    state := expertFetching, payer := some entry, starter := starter, order := s.fresh, row := 0, counted := 0, out := [],
    first := none, suspended := false, holdOff := 0, pinned := !pins.isEmpty }
  { s with fresh := s.fresh + 1, ctxs := pins.foldl (fun (cs : Vector Context 64) h => pin cs e.owner h) s.ctxs }

/-- A fetch's pins are released (R51). -/
def State.unpinFetch (s : State) (e : Expert) : State :=
  match e.body with
  | some r =>
    if e.pinned then { s with ctxs := unpin (unpin s.ctxs e.owner (handleSlot r.src)) e.owner (handleSlot r.dst) } else s
  | none => s

/-- The fetches that the entries for which `gone` holds started are aborted where they stand, at a boundary of their destination (R50,
R52, R70). A job of another entry that is suspended on the expert then starts the fetch anew (DESIGN CHOICE, log 80). -/
def State.abortFetches (s : State) (gone : Nat → Bool) : State :=
  (s.experts.filter fun x => x.2.state = expertFetching && x.2.payer.any gone).foldl (fun s x =>
    let s := (s.unpinFetch x.2).setExpert x.1 { x.2 with state := expertAbsent, starter := none, payer := none, out := [] }
    match x.2.waiting.head?.bind fun w => s.jobs.find? (·.id = w.1) with
    | some j => s.startFetch x.1 j.entry none
    | none => s) s

/-- The work of the entries for which `gone` holds that no core runs is cancelled, with the jobs for which `job` holds and the fetches
of experts that the entries started. -/
def State.cancelItems (s : State) (gone : Nat → Bool) (job : Job → Bool) : State :=
  let s := (s.ready.filter fun r => gone r.entry).foldl (fun s r => s.dropTake? r.gate) s
  let s := ((s.cancelJobs job).discardRows gone).abortFetches gone
  let s := s.entries.foldl (fun s e =>
    match e.op with
    | some (.confCopy _, .running) => if gone e.id then s.scrubHeld e.ctx e.id else s
    | some (.confCopy _, .finishing _ _) => if gone e.id then s.scrubHeld e.ctx e.id else s
    | _ => s) s
  { s with
    ready := s.ready.filter (fun r => !(gone r.entry)),
    launches := s.launches.filter (fun l => !(gone l.entry)),
    gov := { s.gov with waiting := s.gov.waiting.filter (fun w => !(gone w.entry)),
                        reserved := s.gov.reserved.filter (fun r => !(gone r.2)) },
    entries := s.entries.map fun e => if gone e.id then { e with op := none, shadow := none, hwJoin := 0 } else e }

/-- Cancels the work of the entries for which `gone` holds: steps 2 to 6 of R50. Their continuations stop and are
discarded, their jobs are cancelled, their transfers abort and their launches wait for no slot. -/
def State.cancelWork (s : State) (gone : Nat → Bool) : State :=
  ((List.range 64).foldl (fun s i =>
    let c := s.coreAt i
    if c.running && gone c.entry then s.vacate i else s) s).cancelItems gone fun j => gone j.entry

/-- An entry ends before its chain does, with a STATUS of Table 3.10; its work stops and no later operator begins
(R57, R70, R179). The first end stands. -/
def State.endEntry (s : State) (id status : Nat) : State :=
  match s.entry? id with
  | none => s
  | some e =>
    if e.status.isSome then s
    else (s.modEntry id fun e => { e with status := some status }).cancelWork (· = id)

/-- An entry has been ended. -/
def State.hasEnded (s : State) (id : Nat) : Bool := (s.entry? id).any (·.status.isSome)

/-- The job has come to its end, or has stopped with a fault. -/
def Job.isOver (j : Job) : Bool :=
  match j.phase with
  | .done => true
  | .failed _ => true
  | _ => false

/-- A matrix array runs the job: it stops when its accumulators retire (Table 4.2). -/
def Job.onArrayNow (j : Job) : Bool :=
  j.phase == .running && match j.unit with
    | .array _ => true
    | _ => false

/-- An entry that has ended lets nothing begin; what cores and arrays still run goes on to its yield point (R77). -/
def State.stopItems (s : State) (id : Nat) : State := s.cancelItems (· = id) fun j => j.entry = id && !j.onArrayNow

/-- An entry fails, and its units stop at their yield points (R77, Table 4.2). -/
def State.failAtYield (s : State) (id : Nat) (code : BitVec 8) : State :=
  let s := (s.chargeFault id code.toNat).modEntry id fun e => { e with status := some statusFailed }
  ({ s with cores := s.cores.map fun (c : Core) => if c.running && c.entry = id then { c with preemptReq := true } else c }).stopItems id

/-- A fault that stops its entry: it is charged, and the entry ends FAILED (R57, R179). -/
def State.failEntry (s : State) (id : Nat) (code : BitVec 8) : State :=
  (s.chargeFault id code.toNat).endEntry id statusFailed

end Sys2Proof.Machine
end

