-- ==== Sys2Proof/Machine/Translate.lean ====
section
/-! DEFINITION. Translation: the four-level walk with ACCESSED and DIRTY (R81-R84), the translation caches (R96), and
the checks of an access in the order of R97. -/

namespace Sys2Proof.Machine

/-- Fault codes of Table 9.8 that an access raises. -/
def codeMisaligned : BitVec 8 := 0x04
def codeTranslation : BitVec 8 := 0x05
def codePermission : BitVec 8 := 0x06
def codeMemtype : BitVec 8 := 0x07

/-- Path codes (Table 6.2). -/
def pathCore : Nat := 0
def pathStream : Nat := 1
def pathBte : Nat := 2
def pathMatrix : Nat := 3
def pathBank : Nat := 4
def pathLayout : Nat := 5
def pathOrd : Nat := 6
def pathHost : Nat := 7

/-- What an access needs of its leaf (R82). -/
inductive Need where
  | read
  | write
  | fetch
  | atomic
  deriving DecidableEq, Repr

def Need.writes : Need → Bool
  | .write | .atomic => true
  | _ => false

/-- Who makes an access and how (R82, R96). -/
structure Access where
  ctx : Nat
  path : Nat
  /-- Firmware and the front end are not checked against PATHS (R82). -/
  checkPath : Bool := true
  /-- A plane that the array reads through ordinary reads of package memory (R189). -/
  ordinary : Bool := false
  /-- Each span is an access of its own: the lanes of R294. -/
  lanes : Bool := false
  /-- The checks are made and no access follows them: no entry becomes DIRTY (Table 5.2). -/
  probe : Bool := false
  need : Need
  cache : CacheId
  deriving DecidableEq, Repr

/-! ### Fields of a page-table entry (Table 5.2) -/

def pteValid (e : Nat) : Bool := nbit e 0
def pteLeaf (e : Nat) : Bool := nbit e 4
def pteType (e : Nat) : Nat := fld e 5 2
def pteComp (e : Nat) : Nat := fld e 7 3
def pteContig (e : Nat) : Bool := nbit e 10
def pteGlobal (e : Nat) : Bool := nbit e 11
def pteFrame (e : Nat) : Nat := fld e 12 36 * 4096
def pteDirty (e : Nat) : Bool := nbit e 49

/-- The bits in which the entries of a CONTIG group agree: all but FRAME, ACCESSED and DIRTY (R83). -/
def pteCommon (e : Nat) : Nat := e % 4096 + fld e 50 14 * 2 ^ 50

/-- Memory types from which alignment is asked: device and strongly ordered (R88). -/
def strictType (e : Nat) : Bool := decide (2 ≤ pteType e)

/-- The leaf that a walk returns. -/
structure Leaf where
  va : Nat
  size : Nat
  pa : Nat
  word : Nat
  entryAt : Nat
  deriving DecidableEq, Repr

/-- First bit of the index into a table, by the number of levels below it (R81). -/
def levelShift (below : Nat) : Nat := 12 + 9 * below

/-- The base page of a leaf, by the number of levels below it (R81). -/
def baseSize (below : Nat) : Nat := 2 ^ levelShift below

/-- A frame whose page lies whole in one region of Table 5.1 (R80); a page that begins in a region and runs past its end is malformed
(DESIGN CHOICE, log 88). -/
def frameOk (pa size : Nat) : Bool := regionOf pa != .nowhere && regionOf pa == regionOf (pa + size - 1)

/-- The leaf in entry `e`, found with `below` levels under it, or none where R83 calls it malformed. -/
def leafOf (s : State) (below va entryAt e : Nat) : Option Leaf :=
  let base := baseSize below
  if below = 3 || fld e 62 2 != 0 || fld e 50 6 != 0 || decide (2 ≤ pteComp e) then none
  else if pteContig e then
    if below = 1 then none
    else
      let group := entryAt / 128 * 128
      let entries := (List.range 16).map fun i => s.readNum (group + 8 * i) 8
      let first := pteFrame (entries.headD 0)
      if decide (first % (16 * base) = 0)
          && (List.range 16).all (fun i => let x := entries.getD i 0
              pteCommon x == pteCommon e && pteFrame x == first + i * base)
          && frameOk first (16 * base)
      then some { va := va / (16 * base) * (16 * base), size := 16 * base, pa := first, word := e, entryAt := entryAt }
      else none
  else if decide (pteFrame e % base = 0) && frameOk (pteFrame e) base
  then some { va := va / base * base, size := base, pa := pteFrame e, word := e, entryAt := entryAt }
  else none

/-- The walk from a table with `below` levels under it (R81, R83); none is a TRANSLATION fault (DEDUCED, log 21). -/
def walkFrom (s : State) (va : Nat) : Nat → Nat → Option Leaf
  | below, table =>
    if regionOf table != .package then none
    else
      let width := if below = 3 then 18 else 9
      let entryAt := table + 8 * fld va (levelShift below) width
      let e := s.readNum entryAt 8
      if !pteValid e then none
      else if pteLeaf e then leafOf s below va entryAt e
      else
        match below with
        | 0 => none
        | n + 1 =>
          if e != 1 + pteFrame e then none
          else walkFrom s va n (pteFrame e)

/-- The walk looks at a whole CONTIG group (R83). -/
def readsGroup (below e : Nat) : Bool :=
  pteContig e && below != 1 && below != 3 && fld e 62 2 == 0 && fld e 50 6 == 0 && decide (pteComp e < 2)

/-- Addresses that the walk from a table reads: the entries, and the two columns of a CONTIG group (R12, R13, R81, R83). -/
def walkReads (s : State) (va : Nat) : Nat → Nat → List Nat
  | below, table =>
    if regionOf table != .package then []
    else
      let entryAt := table + 8 * fld va (levelShift below) (if below = 3 then 18 else 9)
      let e := s.readNum entryAt 8
      if !pteValid e then [entryAt]
      else if pteLeaf e then entryAt :: (if readsGroup below e then [entryAt / 128 * 128, entryAt / 128 * 128 + 64] else [])
      else
        match below with
        | 0 => [entryAt]
        | n + 1 => entryAt :: (if e != 1 + pteFrame e then [] else walkReads s va n (pteFrame e))

/-- The page walk of a context (R81). -/
def walk (s : State) (ctx va : Nat) : Option Leaf := walkFrom s va 3 (vget {} s.ctxs ctx).root

/-! ### Translation caches (R96) -/

def State.tlb (s : State) : CacheId → List Tlb
  | .yard y => s.yards[y].tlb
  | .mcs d => s.mcs[d].tlb

def State.setTlb (s : State) (c : CacheId) (t : List Tlb) : State :=
  match c with
  | .yard y => { s with yards := s.yards.set y { s.yards[y] with tlb := t } }
  | .mcs d => { s with mcs := s.mcs.set d { s.mcs[d] with tlb := t } }

/-- Leaves that a cache holds (R96). -/
def tlbCapacity : CacheId → Nat
  | .yard _ => 512
  | .mcs _ => 256

/-- Whether a cached leaf translates the address for the context (R96). -/
def Tlb.hits (t : Tlb) (ctx va : Nat) : Bool :=
  (t.ctx == ctx || pteGlobal t.leaf.toNat) && decide (t.va ≤ va ∧ va < t.va + t.size)

/-- The cached leaf for an address, and the rest of the cache. -/
def tlbTake (ctx va : Nat) : List Tlb → Option (Tlb × List Tlb)
  | [] => none
  | t :: ts =>
    if t.hits ctx va then some (t, ts)
    else (tlbTake ctx va ts).map fun r => (r.1, t :: r.2)

/-- A walk that caches its leaf, with the reads that it makes (R12, R13): ACCESSED is set, DIRTY too where the leaf lets a write
through (R84, Table 5.2); the least recently used leaf leaves a full cache (R96). -/
def walkInto (s : State) (c : CacheId) (ctx va : Nat) (write : Bool) : State × Option Tlb :=
  let s := s.ordinaryRead (walkReads s va 3 (vget {} s.ctxs ctx).root)
  match walk s ctx va with
  | none => (s, none)
  | some l =>
    let marked := l.word ||| 2 ^ 48 ||| (if write && nbit l.word 2 then 2 ^ 49 else 0)
    let s := if marked = l.word then s else s.writeBytes l.entryAt (toBytes 8 marked)
    let t : Tlb := { ctx := ctx, va := l.va, size := l.size, pa := l.pa, leaf := BitVec.ofNat 64 marked, entryAt := l.entryAt }
    let others := (s.tlb c).filter fun t => !(t.hits ctx va)
    (s.setTlb c ((t :: others).take (tlbCapacity c)), some t)

/-- The leaf for an address from the cache or by a walk; a write through a leaf that is not DIRTY walks again (R84). The entry
becomes DIRTY only with the write itself (`markDirty`; DEDUCED, log 76). -/
def lookup (s : State) (c : CacheId) (ctx va : Nat) (write : Bool) : State × Option Tlb :=
  match tlbTake ctx va (s.tlb c) with
  | some (t, rest) =>
    if write && !pteDirty t.leaf.toNat then walkInto s c ctx va false
    else (s.setTlb c (t :: rest), some t)
  | none => walkInto s c ctx va false

/-! ### The checks of an access (R97) -/

/-- A live staging region of another context that a page overlaps (R86). -/
def State.foreignStage (s : State) (ctx pa size : Nat) : Bool :=
  (List.range 64).any fun i =>
    let c := vget {} s.ctxs i
    i != ctx && c.live && c.stageLen != 0 && decide (c.stageBase < pa + size ∧ pa < c.stageBase + c.stageLen)

/-- The queue, or context, whose register page holds a physical address (Table 5.1). -/
def pageIndex (pa : Nat) : Nat :=
  if pa < Config.contextPages then (pa - Config.queuePages) / 4096 else (pa - Config.contextPages) / 4096

/-- PERMISSION: RD, W or X, the path's bit, foreign staging regions, and foreign register pages (R82, R86, R88). The page of a queue whose
ring lies in host memory reaches as that of a device-resident one does (R43; DESIGN CHOICE, log 84). -/
def permitted (s : State) (a : Access) (t : Tlb) (pa : Nat) : Bool :=
  let e := t.leaf.toNat
  (match a.need with
    | .read => nbit e 1
    | .write => nbit e 2
    | .fetch => nbit e 3
    | .atomic => nbit e 1 && nbit e 2)
  && (!a.checkPath || nbit e (56 + a.path))
  && !(regionOf t.pa == .package && s.foreignStage a.ctx t.pa t.size)
  && (regionOf pa != .queuePage || (s.queue (pageIndex pa)).ctx == a.ctx)
  && (regionOf pa != .contextPage || pageIndex pa == a.ctx)

/-- MEMTYPE: what the leaf's type, region and compression allow the path (R88, R89, R91, R227). Firmware, which is neither CORE nor BTE, reaches
no device or strongly ordered page (R88; DEDUCED, log 60). -/
def typeAllows (s : State) (a : Access) (t : Tlb) (va pa : Nat) : Bool :=
  let e := t.leaf.toNat
  let register := regionOf pa == .queuePage || regionOf pa == .contextPage
  let window := (vget {} s.ctxs a.ctx).compBase
  (!(strictType e) || ((a.path == pathCore || a.path == pathBte) && a.need != .fetch))
  && (!register || (pteType e == 2 && a.need != .atomic))
  && (regionOf pa != .loft || !(strictType e))
  && ((a.path != pathStream && a.path != pathMatrix) || regionOf pa == (if a.ordinary then .package else .loft))
  && (pteComp e != 1 ||
      (a.path == pathLayout && t.size == 65536 && pteType e == 0 && regionOf pa == .package
        && decide (window ≤ va ∧ va < window + 0x1000000000)))

/-- One page's part of an access: its physical address and its leaf, or the first fault of TRANSLATION, PERMISSION and
MEMTYPE (R97). -/
def translate (s : State) (a : Access) (va : Nat) : State × Except (BitVec 8) (Nat × Tlb) :=
  if 2 ^ 57 ≤ va then (s, .error codeTranslation)
  else
    match lookup s a.cache a.ctx va a.need.writes with
    | (s, none) => (s, .error codeTranslation)
    | (s, some t) =>
      let pa := t.pa + (va - t.va)
      if !permitted s a t pa then (s, .error codePermission)
      else if !typeAllows s a t va pa then (s, .error codeMemtype)
      else (s, .ok (pa, t))

/-- The parts of a range that lie in one 4 KiB page each, lowest address first; addresses wrap at 2^64. -/
def pieces : Nat → Nat → Nat → List (Nat × Nat)
  | 0, _, _ => []
  | fuel + 1, va, n =>
    if n = 0 then []
    else
      let room := 4096 - va % 4096
      if n ≤ room then [(va, n)] else (va, room) :: pieces fuel ((va + room) % 2 ^ 64) (n - room)

/-- The parts of an access of `n` bytes at `va`. -/
def piecesOf (va n : Nat) : List (Nat × Nat) := pieces (n / 4096 + 2) va n

/-- A part of an access as translated. -/
structure Part where
  va : Nat
  len : Nat
  res : Except (BitVec 8) (Nat × Tlb)

/-- Every part of an access, translated in order. -/
def translateAll (s : State) (a : Access) : List (Nat × Nat) → State × List Part
  | [] => (s, [])
  | (va, n) :: rest =>
    match translate s a va with
    | (s, r) =>
      match translateAll s a rest with
      | (s, ps) => (s, { va := va, len := n, res := r } :: ps)

/-- The faults of some parts that have one code, with their addresses. -/
def faultsWith (code : BitVec 8) (ps : List Part) : List Nat :=
  ps.filterMap fun p =>
    match p.res with
    | .error c => if c = code then some p.va else none
    | .ok _ => none

/-- The least number of a list. -/
def least : List Nat → Option Nat
  | [] => none
  | x :: xs => match least xs with
    | none => some x
    | some y => some (if x ≤ y then x else y)

/-- The fault of a set of parts: TRANSLATION before PERMISSION before MEMTYPE, at its lowest byte (R97). -/
def partsFault (ps : List Part) : Option (BitVec 8 × Nat) :=
  match least (faultsWith codeTranslation ps) with
  | some va => some (codeTranslation, va)
  | none =>
    match least (faultsWith codePermission ps) with
    | some va => some (codePermission, va)
    | none => (least (faultsWith codeMemtype ps)).map fun va => (codeMemtype, va)

/-- The physical addresses of the bytes of translated parts, in order. -/
def partBytes (ps : List Part) : List Nat :=
  ps.flatMap fun p =>
    match p.res with
    | .ok (pa, _) => upFrom pa p.len
    | .error _ => []

/-- Whether some part lies on a device or strongly ordered page (R88; DEDUCED, log 60). -/
def partsStrict (ps : List Part) : Bool :=
  ps.any fun p =>
    match p.res with
    | .ok (_, t) => strictType t.leaf.toNat
    | .error _ => false

/-- One access of a group: address, length and the alignment its atomicity asks for (R109; 1 when it asks for none; DEDUCED, log 28). -/
structure Span where
  va : Nat
  len : Nat
  align : Nat := 1
  /-- The unit in which an engine makes the access; 0 for an access made whole. -/
  unit : Nat := 0
  deriving DecidableEq, Repr

/-- A span is misaligned: for its atomicity (R109), or on a device or strongly ordered page for its length, or for the unit
in which an engine makes it (R88). -/
def Span.misaligned (x : Span) (strict : Bool) : Bool :=
  x.va % x.align != 0
    || (strict && x.len != 0 && (if x.unit = 0 then x.va % x.len != 0 else x.va % x.unit != 0 || x.len % x.unit != 0))

/-- The translated parts of a group, dealt out to its accesses. -/
def partsBySpan : List Span → List Part → List (Span × List Part)
  | [], _ => []
  | x :: xs, ps =>
    let n := (piecesOf x.va x.len).length
    (x, ps.take n) :: partsBySpan xs (ps.drop n)

/-- The fault of one access: what its parts meet, then MISALIGNED (R97; DEDUCED, log 58). -/
def spanFault (p : Span × List Part) : Option (BitVec 8 × Nat) :=
  match partsFault p.2 with
  | some f => some f
  | none => if p.1.misaligned (partsStrict p.2) then some (codeMisaligned, p.1.va) else none

/-- The fault at the lowest address. -/
def lowestFault : List (BitVec 8 × Nat) → Option (BitVec 8 × Nat)
  | [] => none
  | x :: xs => match lowestFault xs with
    | none => some x
    | some y => some (if x.2 ≤ y.2 then x else y)

/-- The fault of spans that make one access (R97). -/
def wholeFault (all : List Part) (each : List (Span × List Part)) : Option (BitVec 8 × Nat) :=
  match partsFault all with
  | some f => some f
  | none => (least (each.filterMap fun p => if p.1.misaligned (partsStrict p.2) then some p.1.va else none)).map fun va => (codeMisaligned, va)

/-- The entries of the pages that are written through become DIRTY, each by a walk of its own (R84, Table 5.2). -/
def markDirty (s : State) (a : Access) : List Part → State
  | [] => s
  | p :: ps =>
    match p.res with
    | .ok (_, t) => markDirty (if pteDirty t.leaf.toNat then s else (walkInto s a.cache a.ctx p.va true).1) a ps
    | .error _ => markDirty s a ps

/-- The accesses of one instruction or engine step checked whole before any is performed (R97, R98): the physical
addresses of each span's bytes, or the fault and its lowest address. -/
def reach (s : State) (a : Access) (spans : List Span) : State × Except (BitVec 8 × Nat) (List (List Nat)) :=
  match translateAll s a (spans.flatMap fun x => piecesOf x.va x.len) with
  | (s, all) =>
    let each := partsBySpan spans all
    match if a.lanes then lowestFault (each.filterMap spanFault) else wholeFault all each with
    | some f => (s, .error f)
    | none => (if a.need.writes && !a.probe then markDirty s a all else s, .ok (each.map fun p => partBytes p.2))

/-- Some byte of the accesses lies on a strongly ordered page (R88, R103). -/
def strongly (s : State) (a : Access) (spans : List Span) : Bool :=
  spans.any fun x => (piecesOf x.va x.len).any fun p =>
    match (translate s a p.1).2 with
    | .ok (_, t) => pteType t.leaf.toNat == 3
    | .error _ => false

end Sys2Proof.Machine
end

