-- ==== Sys2Proof/Machine/Ops.lean ====
section
/-! DEFINITION. The named operations of a core: its registers (R160), results in flight and their landing (R163-R166),
the PC triple and the modulo sequencer (R168, R256), taking a trap and returning from one (R175-R180), and the issue of
one instruction (R176, R233, R365). -/

namespace Sys2Proof.Machine

/-- What a step answers. -/
abbrev Result := Host.Outcome State Fault Refusal

/-! ### The core whose turn it is -/

def State.core (s : State) : Core := s.cores[s.subj.core]

def State.setCore (s : State) (c : Core) : State := { s with cores := s.cores.set s.subj.core c }

def State.modCore (s : State) (f : Core → Core) : State := s.setCore (f s.core)

/-- The yard of the core whose turn it is (R159). -/
def State.yardIdx (s : State) : Fin 8 := ⟨s.subj.core.val / 8, by omega⟩

/-- The index of that core in its yard (R159). -/
def State.coreInYard (s : State) : Nat := s.subj.core.val % 8

/-! ### Registers (R160) -/

/-- A scalar register; s0 reads zero. -/
def Core.getS (c : Core) (i : Nat) : W64 := if i = 0 then 0 else vget 0 c.s i

/-- A scalar register written; a write to s0 is discarded. -/
def Core.putS (c : Core) (i : Nat) (x : W64) : Core := if i = 0 then c else { c with s := vset c.s i x }

def Core.getV (c : Core) (i : Nat) : VReg := vget 0 c.v i

/-- The bits of a vector register under a mask written. -/
def Core.putV (c : Core) (i : Nat) (mask x : VReg) : Core :=
  { c with v := vset c.v i ((c.getV i &&& ~~~mask) ||| (x &&& mask)) }

/-- A mask register; k0 reads all ones. -/
def Core.getK (c : Core) (i : Nat) : KReg := if i = 0 then BitVec.allOnes 128 else vget 0 c.k i

/-- The bits of a mask register under a mask written; a write to k0 is discarded. -/
def Core.putK (c : Core) (i : Nat) (mask x : KReg) : Core :=
  if i = 0 then c else { c with k := vset c.k i ((c.getK i &&& ~~~mask) ||| (x &&& mask)) }

/-- Full or empty: every s register but s0, and every v register, has the bit (R160, R166). -/
def Core.isFull (c : Core) (r : Spec) : Bool :=
  if specFile r = 0 then specIdx r = 0 || c.sFull.getLsbD (specIdx r)
  else if specFile r = 1 then c.vFull.getLsbD (specIdx r)
  else true

def Core.setFull (c : Core) (r : Spec) (full : Bool) : Core :=
  if specFile r = 0 then
    { c with sFull := if full then c.sFull ||| BitVec.ofNat 64 (2 ^ specIdx r) else c.sFull &&& ~~~(BitVec.ofNat 64 (2 ^ specIdx r)) }
  else if specFile r = 1 then
    { c with vFull := if full then c.vFull ||| BitVec.ofNat 32 (2 ^ specIdx r) else c.vFull &&& ~~~(BitVec.ofNat 32 (2 ^ specIdx r)) }
  else c

/-- A scalar source. -/
def State.srcS (s : State) (r : Spec) : W64 := s.core.getS (specIdx r)

/-- A mask source. -/
def State.srcK (s : State) (r : Spec) : KReg := s.core.getK (specIdx r)

/-- The binding of a q register. -/
def Core.getQ (c : Core) (i : Nat) : Option Stream := vget none c.q i

/-- A vector source: a v register, the vector at the head of a read stream (R173), or a scalar's low bits. -/
def State.srcV (s : State) (r : Spec) : VReg :=
  if specFile r = 1 then s.core.getV (specIdx r)
  else if specFile r = 2 then
    match s.core.getQ (specIdx r) with
    | some b => b.buf.headD 0
    | none => 0
  else (s.srcS r).setWidth 1024

/-! ### Results -/

/-- One register write. -/
def Core.apply (c : Core) : Write → Core
  | .s i x => c.putS i x
  | .v i m x => c.putV i m x
  | .k i m x => c.putK i m x
  | .q i x =>
    match c.getQ i with
    | some b => { c with q := vset c.q i (some { b with buf := b.buf ++ [x] }) }
    | none => c

def Core.applyAll (c : Core) (ws : List Write) : Core := ws.foldl Core.apply c

/-- The register that a write names. -/
def Write.spec : Write → Spec
  | .s i _ => BitVec.ofNat 8 i
  | .v i _ _ => BitVec.ofNat 8 (0x40 + i)
  | .k i _ _ => BitVec.ofNat 8 (0xC0 + i)
  | .q i _ => BitVec.ofNat 8 (0x80 + i)

/-- The declared landing slot of an operation has come (R163). -/
def InFlight.passed (f : InFlight) (slot : Nat) : Bool :=
  match f.land with
  | .slot n => decide (n ≤ slot)
  | .arrival => false

/-- Of two operations whose slots have come, the first, when it is the older, lands first (R165). -/
def InFlight.before (f g : InFlight) : Bool :=
  match f.land, g.land with
  | .slot m, .slot n => decide (m ≤ n)
  | _, _ => true

/-- Two operations write one register. -/
def InFlight.shares (f g : InFlight) : Bool := f.writes.any fun w => g.writes.any fun v => v.spec = w.spec

/-- An operation whose slot has come lands if its result exists; one whose result does not exist is held, and with it every
later write of its registers (R164, R165). -/
def landStep (beat : Nat) (acc : Core × List InFlight) (f : InFlight) : Core × List InFlight :=
  if decide (f.due ≤ beat) && !(acc.2.any f.shares) then (acc.1.applyAll f.writes, acc.2) else (acc.1, acc.2 ++ [f])

/-- An operation put into its place among younger ones that stand in landing order. -/
def landInsert (f : InFlight) (fs : List InFlight) : List InFlight :=
  fs.takeWhile (fun g => !(f.before g)) ++ f :: fs.dropWhile (fun g => !(f.before g))

/-- Operations whose slot has come, in the order in which they land: by slot, the older first within one slot (R165). -/
def Core.landing (c : Core) : List InFlight := (c.flight.filter fun f => f.passed c.slot).foldr landInsert []

/-- The loads in flight up to the last for which `last` holds keep the values that they have read: the load queue performs
loads in program order (R103), so that each of them has been performed. -/
def settleFlight (last : InFlight → Bool) : List InFlight → List InFlight
  | [] => []
  | f :: fs => if (f :: fs).any last then { f with redo := none } :: settleFlight last fs else f :: fs

/-- Every load in flight has been performed (R106, R107, R114). -/
def Core.settle (c : Core) : Core := { c with flight := settleFlight (fun _ => true) c.flight }

/-- Every load in flight and in the replay queue keeps the value that it has read (R87). -/
def Core.settleLoads (c : Core) : Core := { c.settle with rplq := c.rplq.map fun f => ({ f.1 with redo := none }, f.2) }

/-- The loads in flight that an access of these bytes follows have been performed: acquires, loads from strongly ordered pages,
and loads that share a 4-byte unit with it (R102, R103, R106). -/
def Core.settleAt (c : Core) (pas : List Nat) : Core :=
  { c with flight := settleFlight (fun f => f.redo.any fun p => p.ordered || p.bytes.any fun b => pas.any fun pa => pa / 4 == b.2 / 4) c.flight }

/-- The results that exist and whose landing slot has come land (R163, R164, R165), and the loads before them have been
performed (R103). -/
def Core.landDue (c : Core) (beat : Nat) : Core :=
  let r := c.landing.foldl (landStep beat) (c, [])
  let stays := fun (f : InFlight) => !(f.passed c.slot) || r.2.contains f
  let back := settleFlight (fun f => f.redo.isSome && !(stays f)) c.flight
  { r.1 with flight := ((c.flight.zip back).filter fun x => stays x.1).map (·.2) }

/-- A reader of the register stalls: its declared slot has passed and its result does not exist yet (R164), or it is a mask
register, which has no full/empty bit, and its result works under R166. -/
def Core.awaits (c : Core) (r : Spec) : Bool :=
  r != 0x00 && r != 0xC0 && c.flight.any fun f => f.writes.any (fun w => w.spec = r) && (f.passed c.slot || (specFile r = 3 && f.land == .arrival))

/-- A result under R166 is on its way to the mask register (DEDUCED, log 20). -/
def Core.maskPending (c : Core) (r : Spec) : Bool :=
  specFile r = 3 && r != 0xC0 && c.flight.any fun f => f.land == .arrival && f.writes.any fun w => w.spec = r

/-- Declared latency of a class: nibble n of LATTAB (R163). -/
def Core.latency (c : Core) (cls : Nat) : Nat := fld c.lattab.toNat (4 * cls) 4

/-- Classes that are always full/empty (R166; DEDUCED, log 57). -/
def alwaysFullEmpty (cls : Nat) : Bool := cls = 2 || cls = 9 || cls = 10 || cls = 14 || cls = 15

/-- A result of this class works under R166: by its class, or declared 0 or 15 (R163). -/
def Core.fullEmpty (c : Core) (cls : Nat) : Bool := alwaysFullEmpty cls || c.latency cls = 0 || c.latency cls = 15

/-- Beats before a full/empty result can arrive: 6 for a divide (R249), the unit's own latency otherwise (Table 12.7). -/
def unitLatency (cls : Nat) : Nat :=
  match cls with
  | 1 => 3 | 2 => 6 | 3 => 2 | 4 => 4 | 5 => 8 | 6 => 6 | 7 => 4 | 8 => 6 | 12 => 3 | _ => 1

/-- A result made ready to be performed by a core: its writes, class, and the load it comes from if it is one. -/
structure Outcome where
  writes : List Write := []
  cls : Nat := 0
  redo : Option LoadPlan := none
  /-- Whether single step was on at issue, of an instruction that itself writes STATUS (R184, Table 13.6). -/
  stepped : Option Bool := none
  /-- First beat on which the result can exist: a read that waits for a refresh of its bank (R13). -/
  notBefore : Nat := 0
  /-- Later accesses of memory wait for the result (R334). -/
  holds : Bool := false
  deriving DecidableEq, Repr

/-- An operation started in the current slot (R163, R166). -/
def Core.start (c : Core) (op : BitVec 8) (dest : Spec) (nsrc beat mark : Nat) (r : Outcome) : Core :=
  if r.writes = [] then c
  else
    let fe := c.fullEmpty r.cls
    let f : InFlight :=
      { op := op, dest := dest, cls := r.cls, nsrc := nsrc, writes := r.writes, redo := r.redo,
        land := if fe then .arrival else .slot (c.slot + c.latency r.cls), due := max (beat + unitLatency r.cls) r.notBefore,
        mark := mark, holds := r.holds }
    let c := if fe then r.writes.foldl (fun c w => c.setFull w.spec false) c else c
    { c with flight := c.flight ++ [f] }

/-! ### The PC triple and the modulo sequencer (R168, R256) -/

/-- A branch that issued: whether it is taken, its target, and its null field (R168, R235). -/
structure Branch where
  taken : Bool
  target : W64
  null : Nat
  deriving DecidableEq, Repr

/-- Words of the body of a loop (R256). -/
def LoopSt.words (l : LoopSt) : Nat := l.ii * l.sc

/-- Steps of a loop (R256). -/
def LoopSt.steps (l : LoopSt) : Nat := l.trips + l.sc - 1

/-- Address of the word `ahead` slots after the current one of the loop; past its end, the words after the body (DEDUCED, log 19). -/
def LoopSt.addr (l : LoopSt) (ahead : Nat) : W64 :=
  let n := l.k * l.words + l.m + ahead
  let total := l.steps * l.words
  l.base + BitVec.ofNat 64 (if n < total then 8 * (n % l.words) else 8 * l.words + 8 * (n - total))

/-- The loop after one slot; none when it was the last (R256). -/
def LoopSt.next (l : LoopSt) : Option LoopSt :=
  if l.m + 1 < l.words then some { l with m := l.m + 1 }
  else if l.k + 1 < l.steps then some { l with k := l.k + 1, m := 0 }
  else none

/-- The current word belongs to no iteration of the trip count (R174, R256). -/
def LoopSt.squashed (l : LoopSt) : Bool := decide (l.k < l.m / l.ii ∨ l.trips ≤ l.k - l.m / l.ii)

/-- In trap mode (Table 9.2). -/
def Core.tm (c : Core) : Bool := c.status.getLsbD 0

def Core.ie (c : Core) : Bool := c.status.getLsbD 2
def Core.pie (c : Core) : Bool := c.status.getLsbD 3
def Core.ss (c : Core) : Bool := c.status.getLsbD 4
def Core.pn (c : Core) : Bool := c.status.getLsbD 5

/-- One bit of STATUS set or cleared. -/
def Core.setStatus (c : Core) (i : Nat) (b : Bool) : Core :=
  { c with status := if b then c.status ||| BitVec.ofNat 64 (2 ^ i) else c.status &&& ~~~(BitVec.ofNat 64 (2 ^ i)) }

/-- The loop that the sequencer runs now; it is frozen in trap mode (R257). -/
def Core.looping (c : Core) : Option LoopSt := if c.tm then none else c.loop

/-- The triple and the annul bits after one slot (R168); under LOOPM the sequencer names the next address (R256). -/
def Core.advance (c : Core) (br : Option Branch) : Core :=
  let f3 := match c.looping with
    | some l => l.addr 3
    | none => c.f2 + 8
  let c := { c with f0 := c.f1, f1 := c.f2, f2 := f3, a0 := c.a1, a1 := false,
                    loop := if c.tm then c.loop else c.loop.bind LoopSt.next }
  match br with
  | none => c
  | some b =>
    let c := if b.taken then { c with f2 := b.target } else c
    if (b.null = 1 && !b.taken) || (b.null = 2 && b.taken) then { c with a0 := true, a1 := true } else c

/-- One more slot has passed on this beat, and the next is reached on the next beat at the earliest: the results that exist by
then land in it (R163, R164). -/
def Core.spend (c : Core) (beat : Nat) : Core := { c with slot := c.slot + 1 }.landDue (beat + 1)

/-- An empty slot, after which no boundary comes (R365). -/
def Core.emptySlot (c : Core) (beat : Nat) : Core := { c.spend beat with hollow := true }

/-! ### Interrupt takes (R180) -/

/-- The core holds a take of INTSEM's semaphore exactly while ENABLE = 1, IE = 1 and TM = 0 (R180). -/
def State.tendInterrupt (s : State) : State :=
  let c := s.core
  let want := c.running && c.intsem.getLsbD 8 && c.ie && !c.tm
  let sem := fld c.intsem.toNat 0 8
  match c.intTake with
  | some (n, id) =>
    if want && n = sem then s
    else
      let s := (s.dropTake n id).modCore fun c => { c with intTake := none }
      if want then
        match s.placeTake sem 1 (.interrupt s.subj.core.val) with
        | (s, id) => s.modCore fun c => { c with intTake := some (sem, id) }
      else s
  | none =>
    if want then
      match s.placeTake sem 1 (.interrupt s.subj.core.val) with
      | (s, id) => s.modCore fun c => { c with intTake := some (sem, id) }
    else s

/-! ### Taking a trap and returning from one -/

/-- What a trap records (R175). -/
structure Trap where
  code : BitVec 8
  deferred : Bool := false
  path : Nat := 0
  jobref : Nat := 0
  jobkind : Bool := false
  fva : W64 := 0
  deriving DecidableEq, Repr

/-- CAUSE of a trap (Table 9.3). -/
def Trap.cause (t : Trap) : W64 :=
  BitVec.ofNat 64 (t.code.toNat + 2 ^ 12 * (t.path % 8) + 2 ^ 15 * bit t.deferred + 2 ^ 23 * bit t.jobkind
    + 2 ^ 24 * (t.jobref % 256))

/-- REMAIN of an operation frozen in the current slot (R177). -/
def InFlight.remain (f : InFlight) (slot : Nat) : Nat :=
  match f.land with
  | .slot n => n - slot
  | .arrival => 0xFF

/-- The data of a slot-timed operation has returned, and the operation awaits its landing slot (R98, R164). -/
def InFlight.returned (f : InFlight) (beat : Nat) : Bool := f.land != .arrival && decide (f.due ≤ beat)

/-- The operations in flight frozen into the replay queue (R177). In trap mode their destinations read as before they
issued and are not empty (R167). A load whose data has returned, and those before it, have been performed (R98, R103). -/
def Core.freeze (c : Core) (beat : Nat) : Core :=
  let full := c.flight.foldl (fun c f => match f.land with
    | .arrival => f.writes.foldl (fun c w => c.setFull w.spec true) c
    | .slot _ => c) c
  let back := settleFlight (fun f => f.redo.isSome && f.returned beat) c.flight
  { full with rplq := back.map (fun f => (f, f.remain c.slot)), flight := [] }

/-- The registers that a trap writes, and the handler's triple (R175; DEDUCED, log 56). -/
def Core.enter (c : Core) (t : Trap) (beat : Nat) : Core :=
  let c := { c with
    epc := c.f0, epc1 := c.f1, epc2 := c.f2, brpend := BitVec.ofNat 64 (bit c.a0 + 2 * bit c.a1),
    cause := t.cause, faultva := t.fva, hollow := false }
  let c := (((c.freeze beat).setStatus 3 c.ie).setStatus 2 false).setStatus 0 true
  let h := c.tvec &&& ~~~7
  { c with f0 := h, f1 := h + 8, f2 := h + 16, a0 := false, a1 := false }

/-- StopContinuation (R179): the fault is logged with unit kind 0 and charged before those that jobs of the continuation had
raised, and the entry ends FAILED. -/
def State.stopContinuation (s : State) (code : BitVec 8) : State :=
  let e := s.core.entry
  ((((s.logError code.toNat 0 s.subj.core.val e).chargeFault e code.toNat).vacate s.subj.core.val).endEntry e statusFailed)

/-- A take that the stalled instruction placed is withdrawn at a trap (R291, R299). -/
def State.dropWait (s : State) : State :=
  (s.dropTake? s.core.take).modCore fun c => { c with take := none }

/-- A trap (R175). In trap mode, or with no handler, it stops the continuation (R179). -/
def State.takeTrap (s : State) (t : Trap) : State :=
  let s := s.dropWait
  let stops := s.core.tm || s.core.tvec &&& ~~~7 = 0
  let s := (s.modCore fun c => c.enter t s.beat).tendInterrupt
  if stops then s.stopContinuation t.code else s

/-- The writes of a load whose bytes are read now (R98). -/
def LoadPlan.perform (p : LoadPlan) (read : Nat → Byte) : List Write :=
  let n := packLanes 8 ((List.range 128).map fun i =>
    match p.bytes.find? (fun b => b.1 = i) with
    | some b => (read b.2).toNat
    | none => 0)
  if specFile p.dest = 1 then
    let mask := packLanes 8 ((List.range 128).map fun i => if p.bytes.any (fun b => b.1 = i) then 255 else 0)
    [.v (specIdx p.dest) (BitVec.ofNat 1024 mask) (BitVec.ofNat 1024 n)]
  else if p.bytes.length ≤ 8 then
    [.s (specIdx p.dest) (if p.signBits = 0 then BitVec.ofNat 64 n else w64 (sext p.signBits n))]
  else
    [.s (specIdx p.dest) (BitVec.ofNat 64 n), .s (specIdx p.dest + 1) (BitVec.ofNat 64 (n / 2 ^ 64))]

/-- An operation of the replay queue back in flight (R178): REMAIN m lands in resumed slot m; 0xFF empties its
destination again. A load is performed anew (R98), once the refreshes of its banks are over (R13; DEDUCED, log 81). -/
def InFlight.replay (f : InFlight) (remain beat : Nat) (read : Nat → Nat → Byte) (served : List Nat → Nat) : InFlight :=
  let f := match f.redo with
    | some p => { f with writes := p.perform (read p.size) }
    | none => f
  { f with
    land := if remain = 0xFF then .arrival else .slot remain,
    due := max (beat + unitLatency f.cls) (f.redo.elim 0 fun p => served (p.bytes.map (·.2))) }

/-- Bytes that the loads of the replay queue read anew (R98). -/
def Core.replayed (c : Core) : List Nat := c.rplq.flatMap fun r => r.1.redo.elim [] fun p => p.bytes.map (·.2)

/-- The registers that RETI restores (R178): the triple and the annul bits, IE from PIE, TM cleared; PIE, which stands for a trap
being handled, clears with it (Table 9.1 and the final STATUS of Program 1; DEDUCED, log 85). The next instruction is slot 0, and
replayed operations land relative to it. -/
def Core.resume (c : Core) (beat : Nat) (read : Nat → Nat → Byte) (served : List Nat → Nat) : Core :=
  let back := c.rplq.map fun r => r.1.replay r.2 beat read served
  let c := { c with
    f0 := c.epc, f1 := c.epc1, f2 := c.epc2, a0 := c.brpend.getLsbD 0, a1 := c.brpend.getLsbD 1,
    slot := 0, flight := back, rplq := [] }
  let c := ((c.setStatus 2 c.pie).setStatus 0 false).setStatus 3 false
  back.foldl (fun c f => match f.land with
    | .arrival => f.writes.foldl (fun c w => c.setFull w.spec false) c
    | .slot _ => c) c

/-! ### Issue -/

/-- What an instruction names before it has any effect: its checks, its predicate and its registers. -/
structure Req where
  op : BitVec 8
  /-- The encoding checks of R238(2). -/
  ok : Bool
  /-- The opcode's feature is accepted (R238(1)). -/
  feature : Bool := true
  pred : BitVec 4
  /-- The predicate acts per lane (R233). -/
  perLane : Bool := false
  /-- Sources in reading order, with their e-bits (R166, R230). -/
  srcs : List (Spec × Bool) := []
  /-- Destinations, the first of them the one that RPLQ shows. -/
  dsts : List Spec := []
  /-- Operand values that it captures, where that is not one for each source (R272). -/
  captures : Option Nat := none
  /-- It makes accesses of memory, which wait for a result that holds them (R334). -/
  touches : Bool := false
  deriving DecidableEq, Repr

/-- What an instruction does once it may issue. -/
inductive Issue where
  /-- It retires with a result. -/
  | retire (s : State) (r : Outcome)
  /-- It retires as a branch with a result. -/
  | branch (s : State) (b : Branch) (r : Outcome)
  /-- It traps precisely and has no effect of its own (R98, R175). -/
  | trap (s : State) (t : Trap)
  /-- It stalls at issue and issues again (R163). -/
  | wait (s : State)
  /-- The core issues an empty slot (R365). -/
  | emptySlot (s : State)
  /-- It retires, and the state given is whole: the triple has been set. -/
  | whole (s : State)
  /-- The continuation has left the core. -/
  | leaves (s : State)

/-- The mask register that a predicate field names (R233). -/
def predSpec (p : BitVec 4) : Spec := BitVec.ofNat 8 (0xC0 + p.toNat % 8)

/-- Some operation in flight still awaits its result from its unit (R177). -/
def Core.resultsToCome (c : Core) (beat : Nat) : Bool := c.flight.any fun f => f.land == .arrival || decide (beat < f.due)

/-- The predicate of a whole-acting instruction holds (R233). -/
def Core.predHolds (c : Core) (p : BitVec 4) : Bool :=
  Bool.xor ((c.getK (p.toNat % 8)).getLsbD 0) (p.getLsbD 3)

/-- Lane `j` of width `w` is active (R233). -/
def Core.laneActive (c : Core) (p : BitVec 4) (w j : Nat) : Bool :=
  Bool.xor ((c.getK (p.toNat % 8)).getLsbD (maskBit w j)) (p.getLsbD 3)

/-- Elements of a stream's pattern (R311). -/
def Stream.total (b : Stream) : Nat := b.counts.foldl (· * ·) 1

/-- Width in bits of an element type code of Table 12.4. -/
def elemBits (code : Nat) : Nat :=
  match code with
  | 2 | 9 | 10 => 16
  | 3 | 8 => 32
  | 4 => 64
  | 13 => 4
  | _ => 8

/-- A stream after its head vector has been read; it is unbound after its last element (R173; DEDUCED, log 23). -/
def Stream.popHead (b : Stream) : Option Stream :=
  let n := 1024 / elemBits b.fmt
  if b.total ≤ b.pos + n then none else some { b with pos := b.pos + n, buf := b.buf.tail }

/-- The streams among the sources after one read each. -/
def Core.popStreams (c : Core) (srcs : List (Spec × Bool)) : Core :=
  srcs.foldl (fun c x =>
    if specFile x.1 = 2 then
      match c.getQ (specIdx x.1) with
      | some b => { c with q := vset c.q (specIdx x.1) b.popHead }
      | none => c
    else c) c

/-- After an instruction has retired: single step (R184) and the interrupt take (R180). -/
def State.retired (s : State) (stepped : Bool) : State :=
  let s := s.tendInterrupt
  if stepped then s.takeTrap { code := 0x3F } else s

/-- Arrivals at barriers and an MFEED's answer are forgotten once the continuation has gone on outside a handler (R300, R326). -/
def Core.goOn (c : Core) : Core := if c.tm then c else { c with pbarGen := [], fed := [] }

/-- Operand values that an instruction captures (Table 9.6). -/
def Req.captured (r : Req) : Nat := r.captures.getD r.srcs.length

/-- An access of the core waits for a result in flight before it (R334). -/
def Core.heldBack (c : Core) (r : Req) : Bool := r.touches && c.flight.any (·.holds)

/-- An instruction retires: its streams move on, its result is in flight, the triple and the slot count advance, and
the results due land (R163, R168, R173). -/
def State.finish (s : State) (r : Req) (b : Option Branch) (o : Outcome) : State :=
  let c := s.core
  let stepped := o.stepped.getD (c.ss && !c.tm)
  (s.setCore ((((((c.goOn.popStreams r.srcs)).start r.op (r.dsts.headD 0) r.captured s.beat s.fresh o).advance b).spend s.beat))).retired stepped

/-- The first empty source that is marked e (R166). -/
def Core.emptyTrap (c : Core) (srcs : List (Spec × Bool)) : Bool := srcs.any fun x => x.2 && !(c.isFull x.1)

/-- A read of a stream register: 0 ready, 1 stalls, 2 unbound (R173). -/
def Core.streamRead (c : Core) (r : Spec) : Nat :=
  if specFile r = 2 then
    match c.getQ (specIdx r) with
    | none => 2
    | some b => if b.isWrite then 2 else if b.buf.isEmpty then 1 else 0
  else 0

/-- A write of a stream register: 0 ready, 1 stalls, 2 unbound (R173). A full write stream stalls; results in flight to
it count, and a stream whose whole pattern has been appended is full. -/
def Core.streamWrite (c : Core) (r : Spec) : Nat :=
  if specFile r = 2 then
    match c.getQ (specIdx r) with
    | none => 2
    | some b =>
      let flying := (c.flight.filter fun f => f.dest = r).length
      let ahead := b.pos + (b.buf.length + flying) * (1024 / elemBits b.fmt)
      if !b.isWrite then 2 else if Config.streamDepth ≤ b.buf.length + flying ∨ b.total ≤ ahead then 1 else 0
  else 0

/-- A fault that the transfer unit of a q register met: register, code and element address (R311). -/
def Core.streamFault (c : Core) (r : Spec) : Option (Nat × BitVec 8 × W64) :=
  if specFile r = 2 then (c.getQ (specIdx r)).bind fun b => b.fault.map fun f => (specIdx r, f) else none

/-- The fault of a stream raised precisely (R311); the transfer unit tries the element again afterwards. -/
def State.raiseStream (s : State) (f : Nat × BitVec 8 × W64) : State :=
  (s.modCore fun c => { c with q := vset c.q f.1 ((c.getQ f.1).map fun b => { b with fault := none }) }).takeTrap
    { code := f.2.1, path := pathStream, fva := f.2.2 }

/-- A matrix job of the continuation draws its rows or scales from a q register, so that the core's own reads stall (R320,
R322). -/
def State.streamHeld (s : State) (r : Spec) : Bool :=
  let cont := s.core.cont
  specFile r = 2 && ((s.jobs.any fun j => j.cont = cont && j.phase != .done &&
      match j.kind with
      | .mstrm d _ => d.flags.getLsbD 3 && d.qreg = specIdx r && decide (j.mpc < d.rows)
      | .mscl d => d.flags.getLsbD 3 && d.qreg = specIdx r
      | _ => false)
    || s.yards.toList.any fun y => y.arr.scale = .stream cont (specIdx r) || y.arr.parked.any fun p => p.2.2.2 = .stream cont (specIdx r))

/-- Nothing keeps the instruction from its own effect: the checks pass, the predicate holds, its registers are full and
its streams are ready, and fewer than 12 operations are in flight if it starts one (DEDUCED, log 61). -/
def Req.ready (r : Req) (s : State) : Bool :=
  let c := s.core
  r.feature && r.ok && (r.perLane || c.predHolds r.pred)
    && !(c.awaits (predSpec r.pred))
    && r.srcs.all (fun x => c.isFull x.1 && !(c.awaits x.1) && c.streamRead x.1 == 0 && (c.streamFault x.1).isNone && !(s.streamHeld x.1))
    && r.dsts.all (fun d => c.isFull d && !(c.maskPending d) && c.streamWrite d == 0 && (c.streamFault d).isNone)
    && !(c.heldBack r)
    && (decide (c.flight.length < 12) || r.dsts.isEmpty)

/-- The issue of one instruction: the causes of R176 from ILLEGAL_OPCODE on, in their order, then stalls, the limit of 12
in flight (R177), and the instruction's own effect. -/
def issue (r : Req) (body : State → Issue) (s : State) : Result :=
  let c := s.core
  if !r.feature then .next (s.takeTrap { code := 0x01 })
  else if !r.ok then .next (s.takeTrap { code := 0x02 })
  else if c.awaits (predSpec r.pred) then .next s
  else if !r.perLane && !(c.predHolds r.pred) then .next (s.finish { r with srcs := [] } none {})
  else if c.emptyTrap r.srcs then .next (s.takeTrap { code := 0x03 })
  else if r.srcs.any (fun x => !(c.isFull x.1) || c.awaits x.1) || r.dsts.any (fun d => !(c.isFull d) || c.maskPending d) then .next s
  else if r.srcs.any (fun x => c.streamRead x.1 = 2) || r.dsts.any (fun d => c.streamWrite d = 2) then
    .next (s.takeTrap { code := 0x0B })
  else
    match (r.srcs.map (·.1) ++ r.dsts).findSome? c.streamFault with
    | some f => .next (s.raiseStream f)
    | none =>
      if r.srcs.any (fun x => c.streamRead x.1 = 1 || s.streamHeld x.1) || r.dsts.any (fun d => c.streamWrite d = 1)
          || c.heldBack r then .next s
      else if 12 ≤ c.flight.length && !r.dsts.isEmpty then
        if c.resultsToCome s.beat then .next s else .next (s.setCore (c.emptySlot s.beat))
      else
        match body s with
        | .retire s o => .next (s.finish r none o)
        | .branch s b o => .next (s.finish r (some b) o)
        | .trap s t => .next (s.takeTrap t)
        | .wait s => .next s
        | .emptySlot s => .next (s.modCore fun c => c.emptySlot s.beat)
        | .whole s => .next (s.retired (c.ss && !c.tm))
        | .leaves s => .next s

end Sys2Proof.Machine
end

