-- ==== Sys2Proof/Machine/Operands.lean ====
section
/-! DEFINITION. Operand forms: sign extension of immediates and offsets, shifts and bit fields (R234-R236, R250-R252),
effective addresses, and the lanes of a vector source with the source modifier (R231). -/

namespace Sys2Proof.Machine

/-- SignExt(imm32) (R252). -/
def sextImm (imm : BitVec 32) : W64 := imm.signExtend 64

/-- A shift left by any amount: zeros enter, and an amount of 64 or more gives 0 (R250). -/
def shiftL (x : W64) (n : Nat) : W64 := if 64 ≤ n then 0 else BitVec.ofNat 64 (x.toNat * 2 ^ n)

/-- A logical shift right by any amount (R250). -/
def shiftR (x : W64) (n : Nat) : W64 := if 64 ≤ n then 0 else BitVec.ofNat 64 (x.toNat / 2 ^ n)

/-- An arithmetic shift right: copies of bit 63 enter, also by 64 or more (R250). -/
def shiftA (x : W64) (n : Nat) : W64 := w64 (sgn x / 2 ^ (if 64 ≤ n then 64 else n))

/-- A rotation left by n mod 64 (R250). -/
def rotL (x : W64) (n : Nat) : W64 := shiftL x (n % 64) ||| (if n % 64 = 0 then 0 else shiftR x (64 - n % 64))

/-- POS of a field control word (R251). -/
def fieldPos (c : W64) : Nat := fld c.toNat 0 6

/-- LEN of a field control word, at most 64 (R251). -/
def fieldLen (c : W64) : Nat := min (fld c.toNat 8 7) 64

/-- The field mask, cut off at bit 63 (R251). -/
def fieldMask (c : W64) : W64 := BitVec.ofNat 64 ((2 ^ fieldLen c - 1) * 2 ^ fieldPos c)

/-- The address of an M-format access: S[base] + SignExt(off25) (R234, R292). -/
def memAddress (w : MemF) (s : State) : W64 := s.srcS w.base + w.off.signExtend 64

/-- The target of a B-format branch: its own address plus 8 × disp28 (R235). -/
def brTarget (w : BrF) (at_ : W64) : W64 := at_ + 8 * w.disp.signExtend 64

/-- S[a] + SignExt(imm23), the address form of YIELD and CKPT (R264, R265). -/
def sysAddress (w : SysF) (s : State) : W64 := s.srcS w.a + w.imm.signExtend 64

/-- Bytes of an M-format access, by its size field (R234). -/
def memBytes (w : MemF) : Nat := 2 ^ w.size.toNat

/-- The lane that lane `i` of the operation sees under modA (R231, Table 12.3). -/
def modLane (modA i : Nat) : Nat :=
  let size := 2 ^ fld modA 6 4
  let dist := fld modA 0 6
  let o := i - i % size
  let p := i % size
  match fld modA 10 2 with
  | 0 => i
  | 1 => o + (p + dist) % size
  | 2 => o + (p ^^^ dist)
  | _ => o + dist

/-- Source a of an A3 word as lanes of width `w`, rearranged by its modifier (R231). -/
def State.lanesA (s : State) (x : A3) (w : Nat) : List Nat :=
  let v := (s.srcV x.a).toNat
  (List.range (1024 / w)).map fun i => lane w v (modLane x.modA.toNat i)

/-- A vector source as lanes of width `w`. -/
def State.lanesV (s : State) (r : Spec) (w : Nat) : List Nat := lanesOf w (1024 / w) (s.srcV r).toNat

end Sys2Proof.Machine
end

