-- ==== Sys2Proof/Machine/Flags.lean ====
section
/-! DEFINITION. Conditions of compares and branches (Table 13.3), and the sticky floating-point flags of STATUS (Table 9.2). -/

namespace Sys2Proof.Machine

/-- The condition of a code holds of two scalars (Table 13.3). -/
def condHolds (code : Nat) (x y : W64) : Bool :=
  match code with
  | 0 => x == y
  | 1 => x != y
  | 2 => decide (sgn x < sgn y)
  | 3 => decide (sgn y ≤ sgn x)
  | 4 => decide (x.toNat < y.toNat)
  | 5 => decide (y.toNat ≤ x.toNat)
  | 6 => x == 0
  | _ => x != 0

/-- The sticky flags that an operation raises (Table 9.2). -/
structure Sticky where
  invalid : Bool := false
  overflow : Bool := false
  underflow : Bool := false
  inexact : Bool := false
  saturate : Bool := false
  scaleUnderflow : Bool := false
  deriving DecidableEq, Repr

/-- Two sets of flags together. -/
def Sticky.or (x y : Sticky) : Sticky :=
  { invalid := x.invalid || y.invalid, overflow := x.overflow || y.overflow, underflow := x.underflow || y.underflow,
    inexact := x.inexact || y.inexact, saturate := x.saturate || y.saturate,
    scaleUnderflow := x.scaleUnderflow || y.scaleUnderflow }

/-- The flags of several operations. -/
def stickyAll (xs : List Sticky) : Sticky := xs.foldl Sticky.or {}

/-- The flags at their places in STATUS (Table 9.2). -/
def Sticky.bits (x : Sticky) : W64 :=
  BitVec.ofNat 64 (2 ^ 10 * bit x.invalid + 2 ^ 11 * bit x.overflow + 2 ^ 12 * bit x.underflow + 2 ^ 13 * bit x.inexact
    + 2 ^ 14 * bit x.saturate + 2 ^ 15 * bit x.scaleUnderflow)

/-- Flags set in the core's STATUS; they stay until MTC clears them. -/
def State.raiseFlags (s : State) (x : Sticky) : State := s.modCore fun c => { c with status := c.status ||| x.bits }

end Sys2Proof.Machine
end

