-- ==== Sys2Proof/Machine/Scalar.lean ====
section
/-! DEFINITION. The scalar instructions of Tables 13.1 and 13.2 (R247-R252): each result as a function of its sources,
and each meaning over the one shared operation. -/

namespace Sys2Proof.Machine

/-- The request of a scalar A3 word that reads its first `n` sources. -/
def reqScalar (op : Nat) (ok : Bool) (w : A3) (n : Nat) : Req :=
  { op := BitVec.ofNat 8 op, ok := ok, pred := w.pred,
    srcs := [(w.a, w.ea), (w.b, w.eb), (w.c, w.ec)].take n, dsts := [w.d] }

/-- A scalar result of a class. -/
def giveS (cls : Nat) (d : Spec) (x : W64) (s : State) : Issue :=
  .retire s { writes := [.s (specIdx d) x], cls := cls }

/-- A scalar A3 instruction of a class: S[d] := f of its sources. -/
def scalarOp (op cls n : Nat) (ok : Bool) (f : W64 → W64 → W64 → W64) (w : A3) (s : State) : Result :=
  issue (reqScalar op ok w n) (fun s => giveS cls w.d (f (s.srcS w.a) (s.srcS w.b) (s.srcS w.c)) s) s

/-- The request of an I32 word that reads its source when `reads` holds. -/
def reqImm (op : Nat) (ok : Bool) (w : I32) (reads : Bool) : Req :=
  { op := BitVec.ofNat 8 op, ok := ok, pred := w.pred, srcs := if reads then [(w.a, w.ea)] else [], dsts := [w.d] }

/-- An I32 instruction (R252), class 0: S[d] := f of the source and the immediate. -/
def immOp (op : Nat) (ok reads : Bool) (f : W64 → BitVec 32 → W64) (w : I32) (s : State) : Result :=
  issue (reqImm op ok w reads) (fun s => giveS 0 w.d (f (s.srcS w.a) w.imm) s) s

/-- The result of ADD (R248). -/
def valAdd (x y _ : W64) : W64 := x + y

/-- The result of SUB (R248). -/
def valSub (x y _ : W64) : W64 := x - y

/-- The result of MUL (R248). -/
def valMul (x y _ : W64) : W64 := x * y

/-- The result of MULHI (R248). -/
def valMulhi (x y _ : W64) : W64 := BitVec.ofNat 64 (x.toNat * y.toNat / 2 ^ 64)

/-- The result of MULHS (R248). -/
def valMulhs (x y _ : W64) : W64 := w64 (sgn x * sgn y / 2 ^ 64)

/-- The result of DIV (R249). -/
def valDiv (x y _ : W64) : W64 := if y = 0 then BitVec.allOnes 64 else BitVec.ofNat 64 (x.toNat / y.toNat)

/-- The result of DIVS (R249). -/
def valDivs (x y _ : W64) : W64 := if y = 0 then BitVec.allOnes 64 else w64 (Int.tdiv (sgn x) (sgn y))

/-- The result of REM (R249). -/
def valRem (x y _ : W64) : W64 := if y = 0 then x else BitVec.ofNat 64 (x.toNat % y.toNat)

/-- The result of REMS (R249). -/
def valRems (x y _ : W64) : W64 := if y = 0 then x else w64 (sgn x - sgn y * Int.tdiv (sgn x) (sgn y))

/-- The result of AND (R248). -/
def valAnd (x y _ : W64) : W64 := x &&& y

/-- The result of OR (R248). -/
def valOr (x y _ : W64) : W64 := x ||| y

/-- The result of XOR (R248). -/
def valXor (x y _ : W64) : W64 := x ^^^ y

/-- The result of SHL (R250). -/
def valShl (x y _ : W64) : W64 := shiftL x y.toNat

/-- The result of SHR (R250). -/
def valShr (x y _ : W64) : W64 := shiftR x y.toNat

/-- The result of SRA (R250). -/
def valSra (x y _ : W64) : W64 := shiftA x y.toNat

/-- The result of ROT (R250). -/
def valRot (x y _ : W64) : W64 := rotL x y.toNat

/-- The result of CLZ (R248). -/
def valClz (x _ _ : W64) : W64 := BitVec.ofNat 64 (leadingZeros 64 x.toNat)

/-- The result of CTZ (R248). -/
def valCtz (x _ _ : W64) : W64 := BitVec.ofNat 64 (trailingZeros 64 x.toNat)

/-- The result of POPC (R248). -/
def valPopc (x _ _ : W64) : W64 := BitVec.ofNat 64 (popCount 64 x.toNat)

/-- The result of BEXT (R251). -/
def valBext (x y _ : W64) : W64 := (shiftR x (fieldPos y)) &&& BitVec.ofNat 64 (2 ^ fieldLen y - 1)

/-- The result of BINS (R251). -/
def valBins (x y z : W64) : W64 := (x &&& ~~~(fieldMask z)) ||| (shiftL y (fieldPos z) &&& fieldMask z)

/-- The result of MIN (R248). -/
def valMin (x y _ : W64) : W64 := if x.toNat ≤ y.toNat then x else y

/-- The result of MAX (R248). -/
def valMax (x y _ : W64) : W64 := if x.toNat ≤ y.toNat then y else x

/-- The result of MINS (R248). -/
def valMins (x y _ : W64) : W64 := if sgn x ≤ sgn y then x else y

/-- The result of MAXS (R248). -/
def valMaxs (x y _ : W64) : W64 := if sgn x ≤ sgn y then y else x

/-- The result of SEL (R248). -/
def valSel (x y z : W64) : W64 := if x ≠ 0 then y else z

/-- The result of ADDI (R252). -/
def valAddi (x : W64) (imm : BitVec 32) : W64 := x + sextImm imm

/-- The result of ANDI (R252). -/
def valAndi (x : W64) (imm : BitVec 32) : W64 := x &&& sextImm imm

/-- The result of ORI (R252). -/
def valOri (x : W64) (imm : BitVec 32) : W64 := x ||| sextImm imm

/-- The result of XORI (R252). -/
def valXori (x : W64) (imm : BitVec 32) : W64 := x ^^^ sextImm imm

/-- The result of SHLI (R252). -/
def valShli (x : W64) (imm : BitVec 32) : W64 := shiftL x imm.toNat

/-- The result of SHRI (R252). -/
def valShri (x : W64) (imm : BitVec 32) : W64 := shiftR x imm.toNat

/-- The result of SRAI (R252). -/
def valSrai (x : W64) (imm : BitVec 32) : W64 := shiftA x imm.toNat

/-- The result of LDI (R252). -/
def valLdi (_ : W64) (imm : BitVec 32) : W64 := sextImm imm

/-- The result of LDIH (R252). -/
def valLdih (x : W64) (imm : BitVec 32) : W64 := BitVec.ofNat 64 (x.toNat % 2 ^ 32 + imm.toNat * 2 ^ 32)

/-- The result of CMP under a condition code (R248, Table 13.3). -/
def valCmp (cond : Nat) (x y _ : W64) : W64 := if condHolds cond x y then 1 else 0

/-- The result of LEA at an address (R252). -/
def valLea (at_ : W64) (imm : BitVec 32) : W64 := at_ + sextImm imm

/-- ADD (R248): class 0. -/
def execAdd (w : A3) (s : State) : Result := scalarOp 0x01 0 2 (checkAdd w) valAdd w s

/-- SUB (R248): class 0. -/
def execSub (w : A3) (s : State) : Result := scalarOp 0x02 0 2 (checkSub w) valSub w s

/-- MUL (R248): class 1. -/
def execMul (w : A3) (s : State) : Result := scalarOp 0x03 1 2 (checkMul w) valMul w s

/-- MULHI (R248): class 1. -/
def execMulhi (w : A3) (s : State) : Result := scalarOp 0x04 1 2 (checkMulhi w) valMulhi w s

/-- MULHS (R248): class 1. -/
def execMulhs (w : A3) (s : State) : Result := scalarOp 0x05 1 2 (checkMulhs w) valMulhs w s

/-- DIV (R249): class 2. -/
def execDiv (w : A3) (s : State) : Result := scalarOp 0x06 2 2 (checkDiv w) valDiv w s

/-- DIVS (R249): class 2. -/
def execDivs (w : A3) (s : State) : Result := scalarOp 0x07 2 2 (checkDivs w) valDivs w s

/-- REM (R249): class 2. -/
def execRem (w : A3) (s : State) : Result := scalarOp 0x08 2 2 (checkRem w) valRem w s

/-- REMS (R249): class 2. -/
def execRems (w : A3) (s : State) : Result := scalarOp 0x09 2 2 (checkRems w) valRems w s

/-- AND (R248): class 0. -/
def execAnd (w : A3) (s : State) : Result := scalarOp 0x0a 0 2 (checkAnd w) valAnd w s

/-- OR (R248): class 0. -/
def execOr (w : A3) (s : State) : Result := scalarOp 0x0b 0 2 (checkOr w) valOr w s

/-- XOR (R248): class 0. -/
def execXor (w : A3) (s : State) : Result := scalarOp 0x0c 0 2 (checkXor w) valXor w s

/-- SHL (R250): class 0. -/
def execShl (w : A3) (s : State) : Result := scalarOp 0x0d 0 2 (checkShl w) valShl w s

/-- SHR (R250): class 0. -/
def execShr (w : A3) (s : State) : Result := scalarOp 0x0e 0 2 (checkShr w) valShr w s

/-- SRA (R250): class 0. -/
def execSra (w : A3) (s : State) : Result := scalarOp 0x0f 0 2 (checkSra w) valSra w s

/-- ROT (R250): class 0. -/
def execRot (w : A3) (s : State) : Result := scalarOp 0x10 0 2 (checkRot w) valRot w s

/-- CLZ (R248): class 0. -/
def execClz (w : A3) (s : State) : Result := scalarOp 0x11 0 1 (checkClz w) valClz w s

/-- CTZ (R248): class 0. -/
def execCtz (w : A3) (s : State) : Result := scalarOp 0x12 0 1 (checkCtz w) valCtz w s

/-- POPC (R248): class 0. -/
def execPopc (w : A3) (s : State) : Result := scalarOp 0x13 0 1 (checkPopc w) valPopc w s

/-- BEXT (R251): class 0. -/
def execBext (w : A3) (s : State) : Result := scalarOp 0x14 0 2 (checkBext w) valBext w s

/-- BINS (R251): class 0. -/
def execBins (w : A3) (s : State) : Result := scalarOp 0x15 0 3 (checkBins w) valBins w s

/-- MIN (R248): class 0. -/
def execMin (w : A3) (s : State) : Result := scalarOp 0x16 0 2 (checkMin w) valMin w s

/-- MAX (R248): class 0. -/
def execMax (w : A3) (s : State) : Result := scalarOp 0x17 0 2 (checkMax w) valMax w s

/-- MINS (R248): class 0. -/
def execMins (w : A3) (s : State) : Result := scalarOp 0x18 0 2 (checkMins w) valMins w s

/-- MAXS (R248): class 0. -/
def execMaxs (w : A3) (s : State) : Result := scalarOp 0x19 0 2 (checkMaxs w) valMaxs w s

/-- CMP (R248): S[d] is 1 if the condition in fn holds (Table 13.3), else 0; .z and .nz read no second source. -/
def execCmp (w : A3) (s : State) : Result :=
  scalarOp 0x1a 0 (if w.fn.toNat < 6 then 2 else 1) (checkCmp w) (valCmp w.fn.toNat) w s

/-- SEL (R248): class 0. -/
def execSel (w : A3) (s : State) : Result := scalarOp 0x1b 0 3 (checkSel w) valSel w s

/-- ADDI (R252): class 0. -/
def execAddi (w : I32) (s : State) : Result := immOp 0x20 (checkAddi w) true valAddi w s

/-- ANDI (R252): class 0. -/
def execAndi (w : I32) (s : State) : Result := immOp 0x21 (checkAndi w) true valAndi w s

/-- ORI (R252): class 0. -/
def execOri (w : I32) (s : State) : Result := immOp 0x22 (checkOri w) true valOri w s

/-- XORI (R252): class 0. -/
def execXori (w : I32) (s : State) : Result := immOp 0x23 (checkXori w) true valXori w s

/-- SHLI (R252): class 0. -/
def execShli (w : I32) (s : State) : Result := immOp 0x24 (checkShli w) true valShli w s

/-- SHRI (R252): class 0. -/
def execShri (w : I32) (s : State) : Result := immOp 0x25 (checkShri w) true valShri w s

/-- SRAI (R252): class 0. -/
def execSrai (w : I32) (s : State) : Result := immOp 0x26 (checkSrai w) true valSrai w s

/-- LDI (R252): class 0. -/
def execLdi (w : I32) (s : State) : Result := immOp 0x27 (checkLdi w) false valLdi w s

/-- LDIH (R252): class 0. -/
def execLdih (w : I32) (s : State) : Result := immOp 0x28 (checkLdih w) true valLdih w s

/-- LEA (R252): S[d] is the address of the word itself plus the sign-extended immediate. -/
def execLea (w : I32) (s : State) : Result :=
  issue (reqImm 0x29 (checkLea w) w false) (fun s => giveS 0 w.d (valLea s.core.f0 w.imm) s) s

end Sys2Proof.Machine
end

