-- ==== Sys2Proof/Machine/Control.lean ====
section
/-! DEFINITION. Branches, jumps, calls and the modulo sequencer (R253-R257). -/

namespace Sys2Proof.Machine

/-- The word is an unsquashed body word of a LOOPM, where branches, HALT, CONT, YIELD, RETI and LOOPM are refused with
RESERVED_FIELD (R257). -/
def State.inLoop (s : State) : Bool := s.core.looping.isSome

/-- The trap of a misaligned jump target (R254); FAULTVA holds the address. -/
def misalignedTarget (t : W64) : Trap := { code := codeMisaligned, fva := t }

/-- Address of the word that issues. -/
def State.pc (s : State) : W64 := s.core.f0

/-- The sources that a condition uses (R253): z and nz test a alone. -/
def brSrcs (w : BrF) : List (Spec × Bool) := if w.cond.toNat < 6 then [(w.a, w.ea), (w.b, w.eb)] else [(w.a, w.ea)]

/-- The request of a conditional branch (R253). -/
def reqBr (w : BrF) (s : State) : Req :=
  { op := 0x30, ok := checkBr w && !s.inLoop, pred := w.pred, srcs := brSrcs w }

/-- BR (R253, R168): the condition on the sources read at issue decides whether F2 becomes the target, and null which
outcome annuls both delay slots. -/
def execBr (w : BrF) (s : State) : Result :=
  issue (reqBr w s) (fun s =>
    .branch s { taken := condHolds w.cond.toNat (s.srcS w.a) (s.srcS w.b), target := brTarget w s.pc, null := w.null.toNat } {}) s

/-- The request of a jump in B format (R253). -/
def reqJump (op : Nat) (ok : Bool) (w : BrF) (dsts : List Spec) (s : State) : Req :=
  { op := BitVec.ofNat 8 op, ok := ok && !s.inLoop, pred := w.pred, dsts := dsts }

/-- J (R253): always taken. -/
def execJ (w : BrF) (s : State) : Result :=
  issue (reqJump 0x31 (checkJ w) w [] s) (fun s => .branch s { taken := true, target := brTarget w s.pc, null := w.null.toNat } {}) s

/-- The specifier of the link register s63. -/
def linkReg : Spec := 0x3F

/-- The link, address + 24, as a class 0 result (R253). -/
def linkTo (s : State) : Outcome := { writes := [.s 63 (s.pc + 24)], cls := 0 }

/-- CALL (R253): always taken, and s63 takes the link. -/
def execCall (w : BrF) (s : State) : Result :=
  issue (reqJump 0x32 (checkCall w) w [linkReg] s) (fun s =>
    .branch s { taken := true, target := brTarget w s.pc, null := w.null.toNat } (linkTo s)) s

/-- The request of a register jump (R254). -/
def reqRegJump (op : Nat) (ok : Bool) (w : A3) (srcs : List (Spec × Bool)) (dsts : List Spec) (s : State) : Req :=
  { op := BitVec.ofNat 8 op, ok := ok && !s.inLoop, pred := w.pred, srcs := srcs, dsts := dsts }

/-- A jump to a register address; a target with bits 2:0 nonzero raises MISALIGNED precisely (R254). -/
def jumpTo (t : W64) (fn : BitVec 5) (o : Outcome) (s : State) : Issue :=
  if t.toNat % 8 != 0 then .trap s (misalignedTarget t) else .branch s { taken := true, target := t, null := fn.toNat } o

/-- JR (R254). -/
def execJr (w : A3) (s : State) : Result :=
  issue (reqRegJump 0x33 (checkJr w) w [(w.a, w.ea)] [] s) (fun s => jumpTo (s.srcS w.a) w.fn {} s) s

/-- CALLR (R254): the old register is the target, then the link is written. -/
def execCallr (w : A3) (s : State) : Result :=
  issue (reqRegJump 0x34 (checkCallr w) w [(w.a, w.ea)] [linkReg] s) (fun s => jumpTo (s.srcS w.a) w.fn (linkTo s) s) s

/-- RET (R254): jumps to S[63], which it reads with the stalling behaviour. -/
def execRet (w : A3) (s : State) : Result :=
  issue (reqRegJump 0x35 (checkRet w) w [(linkReg, false)] [] s) (fun s => jumpTo (s.srcS linkReg) w.fn {} s) s

/-- The request of a LOOPM (R256). -/
def reqLoopm (w : LoopF) (s : State) : Req :=
  { op := 0x36, ok := checkLoopm w && !s.inLoop, pred := w.pred, srcs := [(w.a, w.ea)] }

/-- A branch issued in one of the two slots before has changed the triple (R257). -/
def Core.bent (c : Core) : Bool := c.f1 != c.f0 + 8 || c.f2 != c.f0 + 16

/-- The loop that a LOOPM starts: the body begins at the word after it (R256). -/
def loopStart (w : LoopF) (at_ : W64) (trips : Nat) : LoopSt :=
  { k := 0, m := 0, trips := trips, ii := w.ii.toNat, sc := w.sc.toNat, base := at_ + 8 }

/-- The core after a LOOPM has issued: its slot is spent, and the triple names the first words that the sequencer issues,
or those after the body when the trip count is 0 (R256). -/
def Core.enterLoop (c : Core) (l : LoopSt) (beat : Nat) : Core :=
  if l.trips = 0 then
    let a := l.base + BitVec.ofNat 64 (8 * l.words)
    { c with f0 := a, f1 := a + 8, f2 := a + 16, a0 := false, a1 := false }.spend beat
  else { c with f0 := l.addr 0, f1 := l.addr 1, f2 := l.addr 2, a0 := false, a1 := false, loop := some l }.spend beat

/-- LOOPM (R256, R257): T = u(S[a]) iterations of the II × SC words after it. T above 2^32 - SC, trap mode, and a branch in
one of the two slots before raise RESERVED_FIELD. -/
def execLoopm (w : LoopF) (s : State) : Result :=
  issue (reqLoopm w s) (fun s =>
    let t := (s.srcS w.a).toNat
    if decide (2 ^ 32 - w.sc.toNat < t) || s.core.tm || s.core.bent then .trap s { code := 0x02 }
    else .whole (s.modCore fun c => c.enterLoop (loopStart w c.f0 t) s.beat)) s

end Sys2Proof.Machine
end

