-- ==== Sys2Proof/Machine/Index.lean ====
section
/-! DEFINITION. The prefix index: probes, references, insertion, publication and abandonment (R153, R154). -/

namespace Sys2Proof.Machine

/-- STATE of a prefix entry (Table 8.2). -/
def prefixEmpty : Nat := 0
def prefixBuilding : Nat := 1
def prefixReady : Nat := 2

/-- Status codes (Table 8.3). -/
def pxMiss : Nat := 0
def pxReady : Nat := 1
def pxBuilding : Nat := 2
def pxInserted : Nat := 3
def pxFull : Nat := 4
def pxBusy : Nat := 5
def pxStale : Nat := 6

def State.prefix_ (s : State) (slot : Nat) : Prefix := SMap.get ({} : Prefix) s.prefixes slot

def State.setPrefix (s : State) (slot : Nat) (p : Prefix) : State := { s with prefixes := SMap.set ({} : Prefix) s.prefixes slot p }

/-- The probe window of a digest (R153). -/
def probeWindow (d : BitVec 128) : List Nat := (List.range 8).map fun i => (d.toNat % 65536 + i) % 65536

/-- The matching entry of a digest for a context (R153). -/
def State.prefixMatch (s : State) (d : BitVec 128) (ctx : Nat) : Option Nat :=
  (probeWindow d).find? fun i =>
    let p := s.prefix_ i
    p.tag == d && p.ctx == ctx && p.state != prefixEmpty

/-- A prefix handle (R153). -/
def prefixHandle (slot : Nat) (p : Prefix) : Nat := p.gen % 65536 * 65536 + slot

/-- The entry ID holds a reference (R154). -/
def State.holdsPrefix (s : State) (slot entry : Nat) : Bool := s.prefixRefs.contains (slot, entry)

/-- Pairs of the reference table (R154). -/
def prefixRefCapacity : Nat := 4096

/-- A request that would take a reference cannot (R154). -/
def State.prefixBusy (s : State) (slot entry : Nat) : Bool :=
  !(s.holdsPrefix slot entry) && ((s.prefix_ slot).refs == 65535 || decide (prefixRefCapacity ≤ s.prefixRefs.length))

/-- A reference taken, if the entry holds none; LASTUSE is set when one is taken (R154, Table 8.2). -/
def State.takePrefixRef (s : State) (slot entry : Nat) : State :=
  if s.holdsPrefix slot entry then s
  else
    let p := s.prefix_ slot
    { s.setPrefix slot { p with refs := p.refs + 1, lastUse := s.beat } with prefixRefs := s.prefixRefs ++ [(slot, entry)] }

/-- What a prefix request answers: status, handle and set. -/
structure PxAnswer where
  status : Nat
  handle : Nat := 0
  set_ : Nat := 0xFFFFFFFF
  deriving DecidableEq, Repr

/-- A READY match: a reference, and LASTUSE set (R154). -/
def State.answerReady (s : State) (slot entry : Nat) : State × PxAnswer :=
  let p := s.prefix_ slot
  if s.prefixBusy slot entry then (s, { status := pxBusy })
  else
    let s := s.takePrefixRef slot entry
    (s.setPrefix slot { s.prefix_ slot with lastUse := s.beat }, { status := pxReady, handle := prefixHandle slot p, set_ := p.block })

/-- PXLOOK on a digest (R154). -/
def State.lookPrefix (s : State) (d : BitVec 128) (ctx entry : Nat) : State × PxAnswer :=
  match s.prefixMatch d ctx with
  | none => (s, { status := pxMiss })
  | some slot =>
    let p := s.prefix_ slot
    if p.state = prefixReady then s.answerReady slot entry
    else (s, { status := pxBuilding, handle := prefixHandle slot p, set_ := p.block })

/-- The slot that a new entry takes: the first EMPTY one of the window, else the least recently used READY entry of the
context with no reference (R154). -/
def State.prefixRoom (s : State) (d : BitVec 128) (ctx : Nat) : Option Nat :=
  match (probeWindow d).find? fun i => (s.prefix_ i).state = prefixEmpty with
  | some i => some i
  | none =>
    argMin? (fun a b => decide ((s.prefix_ a).lastUse < (s.prefix_ b).lastUse))
      ((probeWindow d).filter fun i =>
        let p := s.prefix_ i
        p.state == prefixReady && p.ctx == ctx && p.refs == 0)

/-- PXINS (R154): digest, set, READYSEM and w. -/
def State.insertPrefix (s : State) (d : BitVec 128) (ctx entry block sem : Nat) (w : Bool) : State × PxAnswer :=
  match s.prefixMatch d ctx with
  | some slot =>
    let p := s.prefix_ slot
    if p.state = prefixReady then s.answerReady slot entry
    else if !w then (s, { status := pxBuilding, handle := prefixHandle slot p, set_ := p.block })
    else if s.prefixBusy slot entry then (s, { status := pxBusy })
    else
      let s := s.takePrefixRef slot entry
      let q := s.prefix_ slot
      (s.setPrefix slot { q with waiters := min (q.waiters + 1) 255 },
        { status := pxBuilding, handle := prefixHandle slot p, set_ := p.block })
  | none =>
    match s.prefixRoom d ctx with
    | none => (s, { status := pxFull })
    | some slot =>
      let old := s.prefix_ slot
      if prefixRefCapacity ≤ s.prefixRefs.length then (s, { status := pxBusy })
      else
        let evicted := old.state = prefixReady
        let gen := if evicted then (old.gen + 1) % 65536 else old.gen
        let p : Prefix := { state := prefixBuilding, tag := d, block := block, refs := 1, gen := gen, ctx := ctx, waiters := 0,
                            readySem := sem, builder := entry, lastUse := s.beat }
        ({ s.setPrefix slot p with prefixRefs := s.prefixRefs ++ [(slot, entry)] },
          { status := pxInserted, handle := prefixHandle slot p, set_ := if evicted then old.block else 0xFFFFFFFF })

/-- READYSEM is signalled with count WAITERS (R154); SEM_OVERFLOW is logged under the front end (R299). -/
def State.signalReady (s : State) (p : Prefix) (entry : Nat) : State :=
  if p.waiters = 0 then s
  else
    match s.drainWrites.signal p.readySem p.waiters with
    | (s, excess) => if excess then s.logError 0x08 7 0 entry else s

/-- An entry is abandoned: every reference dropped, READYSEM signalled, EMPTY, and the next generation (R154; DEDUCED, log 40). -/
def State.abandonPrefix (s : State) (slot entry : Nat) : State :=
  let p := s.prefix_ slot
  let s := { s with prefixRefs := s.prefixRefs.filter fun r => r.1 ≠ slot }
  let s := s.signalReady p entry
  s.setPrefix slot { ({} : Prefix) with gen := (p.gen + 1) % 65536 }

/-- One reference of an entry ID released (R154). -/
def State.releasePrefix (s : State) (slot entry : Nat) : State :=
  let p := s.prefix_ slot
  let s := { s with prefixRefs := s.prefixRefs.filter (· ≠ (slot, entry)) }
  s.setPrefix slot { p with refs := p.refs - 1, lastUse := s.beat }

/-- An entry ends: what it builds is abandoned, and its references are released (R154). -/
def State.endPrefixes (s : State) (entry : Nat) : State :=
  let building := (s.prefixes.filter fun x => x.2.state = prefixBuilding && x.2.builder = entry).map (·.1)
  let s := building.foldl (fun s i => s.abandonPrefix i entry) s
  ((s.prefixRefs.filter fun r => r.2 = entry).map (·.1)).foldl (fun s i => s.releasePrefix i entry) s

end Sys2Proof.Machine
end

