-- ==== Sys2Proof/Machine/Jobs.lean ====
section
/-! DEFINITION. Engine jobs: making one (R315), its copy tag (R304), its end with a signal or a deferred fault (R185,
R315), and its suspension on a memory fault (R99). -/

namespace Sys2Proof.Machine

/-- The job in flight with a number. -/
def State.job? (s : State) (id : Nat) : Option Job := s.jobs.find? (·.id = id)

/-- A change to the job in flight with a number. -/
def State.modJob (s : State) (id : Nat) (f : Job → Job) : State :=
  { s with jobs := s.jobs.map fun j => if j.id = id then f j else j }

/-- A change to a continuation wherever it is: on a core, or saved in its record (R304). -/
def State.modCont (s : State) (cont : Nat) (f : Core → Core) : State :=
  { s with
    cores := s.cores.map (fun c => if c.running && c.cont = cont then f c else c),
    ready := s.ready.map fun r =>
      match r.saved with
      | some c => if c.cont = cont then { r with saved := some (f c) } else r
      | none => r }

/-- Whether a continuation still lives. -/
def State.contLives (s : State) (cont : Nat) : Bool :=
  s.cores.toList.any (fun c => c.running && c.cont = cont)
    || s.ready.any fun r => match r.saved with
      | some c => c.cont = cont
      | none => false

/-- Jobs of a continuation in the outstanding set of a tag (R304). -/
def State.tagJobs (s : State) (cont t : Nat) : List Job := s.jobs.filter fun j => j.cont = cont && j.tag = some t

/-- A bit of a 64-bit register set or cleared. -/
def setBit64 (x : W64) (i : Nat) (b : Bool) : W64 :=
  if b then x ||| BitVec.ofNat 64 (2 ^ i) else x &&& ~~~(BitVec.ofNat 64 (2 ^ i))

/-- The unit kind and index of a job in error records (R37, R299). -/
def JobUnit.logKind : JobUnit → Nat × Nat
  | .array y => (1, y)
  | .bte y _ => (2, y)
  | .mcs d => (3, d)
  | .layout => (5, 0)
  | .frontEnd => (7, 0)

/-- The unit kind and index of a job in error records: the copy of a COPY record is one of the BTE (R53). -/
def Job.logKind (j : Job) : Nat × Nat := match j.kind with
  | .recordCopy _ => (2, 0)
  | _ => j.unit.logKind

/-- The job waits for or runs on a unit; a bank job does so on the MCS of every port (R328). -/
def Job.uses (j : Job) (u : JobUnit) : Bool :=
  match j.kind, u with
  | .bcall d _, .mcs n => d.ports.getLsbD n
  | _, _ => j.unit == u

/-- Two jobs have a unit in common. -/
def Job.shares (x j : Job) : Bool :=
  match x.kind, j.kind with
  | .bcall a _, .bcall b _ => a.ports &&& b.ports != 0
  | _, _ => x.unit == j.unit

/-- Jobs of the yard of the core whose turn it is that are queued at a unit (R315). -/
def State.unitLoad (s : State) (u : JobUnit) : Nat :=
  (s.jobs.filter fun j => j.phase == .queued && j.uses u && j.core / 8 == s.subj.core.val / 8).length

/-- A job issued by the core whose turn it is: its tag bit is cleared, and its take is placed (R236, R304, R315). It begins
two beats later at the earliest (DEDUCED, log 25). -/
def State.newJob (s : State) (kind : JobKind) (unit : JobUnit) (wait sig tag err : Option Nat) : State :=
  let c := s.core
  let id := s.fresh
  let s := { s with fresh := s.fresh + 1 }
  let s := match tag with
    | some t =>
      let open_ := !(s.tagJobs c.cont t).isEmpty
      s.modCore fun c => { c with tagmap := setBit64 c.tagmap t false, tagOld := setBit64 c.tagOld t false,
                                  tagFaulted := if open_ then c.tagFaulted else setBit64 c.tagFaulted t false }
    | none => s
  let r : State × Option Nat := match wait with
    | some n => ((s.placeTake n 1 (.job id)).1, some (s.placeTake n 1 (.job id)).2)
    | none => (s, none)
  let j : Job :=
    { id := id, kind := kind, unit := unit, core := s.subj.core.val, cont := c.cont, entry := c.entry, ctx := c.ctx,
      wait := wait, sig := sig, tag := tag, err := err, ready := s.beat + 2, take := r.2 }
  { r.1 with jobs := r.1.jobs ++ [j] }

/-- A completion sets a bit of TAGMAP; what TAGMAP held at the start of the beat is kept with it (R266, R304). -/
def Core.completeTag (c : Core) (t beat : Nat) : Core :=
  { c with tagmap := setBit64 c.tagmap t true, tagOld := if c.tagBeat = beat then c.tagOld else c.tagmap, tagBeat := beat }

/-- TAGMAP as it stands at the start of a beat (R266). -/
def Core.tagStart (c : Core) (beat : Nat) : W64 := if c.tagBeat = beat then c.tagOld else c.tagmap

/-- An MTC to TAGMAP: the bits of `x` are cleared, and completions of the same beat set theirs after the clear (R266). -/
def Core.clearTags (c : Core) (x : W64) (beat : Nat) : Core :=
  let done := if c.tagBeat = beat then c.tagmap &&& ~~~c.tagOld else 0
  { c with tagmap := c.tagmap &&& ~~~x ||| done, tagOld := c.tagOld &&& ~~~x }

/-- A job leaves its tag's outstanding set; the last to leave closes it, and the bit is set if none of them faulted
(R304). -/
def State.leaveTag (s : State) (j : Job) (faulted : Bool) : State :=
  match j.tag with
  | none => s
  | some t =>
    let s := if faulted then s.modCont j.cont fun c => { c with tagFaulted := setBit64 c.tagFaulted t true } else s
    if ((s.tagJobs j.cont t).filter (·.id ≠ j.id)).isEmpty then
      s.modCont j.cont fun c => if c.tagFaulted.getLsbD t then c else c.completeTag t s.beat
    else s

/-- A job is gone from the unit, and its handles are released. -/
def State.removeJob (s : State) (j : Job) : State :=
  { s with jobs := s.jobs.filter (·.id ≠ j.id), ctxs := j.kind.pinned.foldl (fun cs h => unpin cs j.ctx h) s.ctxs }

/-- A job ends without fault: it signals its sig clause as a release, then sets its tag (R113, R315). -/
def State.endJob (s : State) (j : Job) : State :=
  let s := match j.sig with
    | some n => s.signalLogged n j.unit.logKind.1 j.unit.logKind.2 j.entry
    | none => s
  (s.leaveTag j false).removeJob j

/-- The error semaphore of a job, signalled once (R299). -/
def State.signalErr (s : State) (j : Job) : State :=
  match j.err with
  | some n => s.signalLogged n j.unit.logKind.1 j.unit.logKind.2 j.entry
  | none => s

/-- A job stops with a fault, which is charged to its continuation as a deferred engine fault (R185); where the
continuation has ended, the entry fails (R179). -/
def State.failJob (s : State) (j : Job) (code : BitVec 8) : State :=
  let k := j.unit.logKind
  let d : Deferred :=
    { job := j.id, code := code, sem := j.sig, tag := j.tag, unitKind := k.1, unitIndex := k.2, mpc := j.mpc, va := j.va,
      path := j.path }
  let lives := s.contLives j.cont
  let s := ((s.signalErr j).leaveTag j true).removeJob j
  let s := match j.take, j.wait with
    | some id, some n => s.dropTake n id
    | _, _ => s
  if lives then s.modCont j.cont fun c => { c with deferred := c.deferred ++ [d] } else s.failEntry j.entry code

/-- The queue of an entry ID (R44). -/
def entryQueue (id : Nat) : Nat := fld id 21 10

/-- KIND of CTX_EFAULT for a fault code (Table 5.5). -/
def efaultKind (code : BitVec 8) : Nat :=
  if code = codeTranslation then 0 else if code = codePermission then 1 else if code = codeMemtype then 2 else 3

/-- The report of a suspension: CTX_EFAULT of the first one, an error record, and FAULT_VEC of the entry's queue when that
queue is enabled (R99). -/
def State.reportEfault (s : State) (ctx : Nat) (code : BitVec 8) (va path kind index entry : Nat) : State :=
  let c := vget {} s.ctxs ctx
  let first := !c.efault.valid
  let s := s.logError code.toNat kind index entry
  if first then
    let e : Efault := { valid := true, kind := efaultKind code, path := path, va := BitVec.ofNat 64 va }
    let s := { s with ctxs := vset s.ctxs ctx { c with efault := e } }
    let q := s.queue (entryQueue entry)
    if q.enable then s.sendMsix q.faultVec else s
  else s

/-- A job is suspended at its MPC on a fault of its access, and its unit is released (R99). -/
def State.suspendJob (s : State) (id : Nat) (code : BitVec 8) (va path : Nat) : State :=
  match s.job? id with
  | none => s
  | some j =>
    (s.modJob id fun j => { j with phase := .suspended, va := BitVec.ofNat 64 va, path := path, fault := code }).reportEfault
      j.ctx code va path j.logKind.1 j.logKind.2 j.entry

/-- CTX_RESUME: VALID clears, and every suspended job of the context is replayed from its MPC (R99). -/
def State.resumeCtx (s : State) (ctx : Nat) : State :=
  let c := vget {} s.ctxs ctx
  { s with
    ctxs := vset s.ctxs ctx { c with efault := { c.efault with valid := false } },
    jobs := s.jobs.map (fun j => if j.ctx = ctx && j.phase = .suspended then { j with phase := .queued } else j),
    experts := s.experts.map fun (x : Nat × Expert) =>
      if x.2.owner = ctx then (x.1, { x.2 with suspended := false }) else x }

/-! ### Deferred faults at a wait (R185) -/

/-- The trap that delivers a deferred fault, and the core without it (DEDUCED, log 67). -/
def Deferred.trap (d : Deferred) (viaTag : Bool) : Trap :=
  { code := d.code, deferred := true, path := d.path, fva := d.va, jobkind := viaTag,
    jobref := if viaTag then d.tag.getD 0 else d.sem.getD 0 }

/-- MPCSAVE of a deferred fault (Table 9.5). -/
def Deferred.mpcWord (d : Deferred) : W64 :=
  BitVec.ofNat 64 (d.mpc % 2 ^ 48 + 2 ^ 48 * (d.unitIndex % 4096) + 2 ^ 60 * (d.unitKind % 16))

/-- The first deferred fault that a wait delivers, oldest issue first, as a trap (R185). A fault of the matrix array ends the
cancelling of the continuation's matrix jobs (R198). -/
def State.deliver (s : State) (pick : Deferred → Bool) (viaTag : Deferred → Bool) : Option State :=
  match argMin? (fun (a b : Deferred) => decide (a.job < b.job)) (s.core.deferred.filter pick) with
  | none => none
  | some d =>
    some ((s.modCore fun c => { c with deferred := c.deferred.filter (· ≠ d), mpcsave := d.mpcWord,
                                       matCancel := if d.unitKind = 1 then none else c.matCancel }).takeTrap (d.trap (viaTag d)))

/-- An instruction that waits: a deferred fault that it delivers comes before its own decoding checks (R176). -/
def waitIssue (r : Req) (pick : Deferred → Bool) (viaTag : Deferred → Bool) (body : State → Issue) (s : State) : Result :=
  if !(s.core.awaits (predSpec r.pred)) && s.core.predHolds r.pred then
    match s.deliver pick viaTag with
    | some t => .next t
    | none => issue r body s
  else issue r body s

end Sys2Proof.Machine
end

