-- ==== Sys2Proof/Machine/Tails.lean ====
section
/-! DEFINITION. The tail rule of work queues (R40) and what a core sees of a mapped queue page (R43). -/

namespace Sys2Proof.Machine

/-! ### Requests of the link (R15, R366) -/

/-- The TDI is LOCKED or in RUN. -/
def Link.tdiBound (l : Link) : Bool := l.tdi == .locked || l.tdi == .run

/-- A refused request is entered in the error log as ACCESS_REFUSED of the host link (R366). -/
def State.logRefused (s : State) : State := s.logError 0x26 8 0 0

/-- The TDI is LOCKED or in RUN, and the request is not on a selective IDE stream bound to it (R15). -/
def State.refuses (s : State) (src : Requester) : Bool := s.link.tdiBound && !(src.stream.any fun n => s.env.ideBound.contains n)

/-- A write of a register of the register window by the requester whose event it is: dropped and logged where it is refused (R15). -/
def hostWrite (s written : State) : Result := .next (if s.refuses s.subj.src then s.logRefused else written)

/-! ### Tails -/

/-- Entries of a ring (R38). -/
def WorkQueue.ring (q : WorkQueue) : Nat := 2 ^ q.log2

/-- Published entries not yet consumed. -/
def WorkQueue.pending (q : WorkQueue) : Nat := (q.tail + 2 ^ 32 - q.head) % 2 ^ 32

/-- A write of `t` to TAIL judged against TAIL and HEAD (R40). An accepted write wakes a parked queue (R41). -/
def WorkQueue.writeTail (q : WorkQueue) (t : Nat) : WorkQueue :=
  if !q.enable || q.busy || q.contained then q
  else
    let d := (t + 2 ^ 32 - q.tail) % 2 ^ 32
    if d = 0 then q
    else if 2 ^ 31 ≤ d then { q with ignored := min (q.ignored + 1) 0xFFFFFFFF }
    else if q.pending + d ≤ q.ring then { q with tail := t, parked := none }
    else { q with overrun := true }

/-- A TAIL write; its acceptance is a release at package scope of the writes that arrived before it (R42, R117). -/
def State.writeTail (s : State) (n t : Nat) : State :=
  let s := s.drainWrites
  s.setQueue n ((s.queue n).writeTail (t % 2 ^ 32))

/-- The bytes a core reads at an offset of a queue's 4 KiB slot: HEAD and TAIL, zero elsewhere (R43). -/
def WorkQueue.slotByte (q : WorkQueue) (off : Nat) : Byte :=
  if 0x10 ≤ off ∧ off < 0x14 then BitVec.ofNat 8 (q.head / 2 ^ (8 * (off - 0x10)))
  else if 0x18 ≤ off ∧ off < 0x1C then BitVec.ofNat 8 (q.tail / 2 ^ (8 * (off - 0x18)))
  else 0

/-- CTX_EFAULT (Table 5.5). -/
def Efault.word (e : Efault) : Nat :=
  2 ^ 63 * bit e.valid + 2 ^ 60 * (e.kind % 8) + 2 ^ 57 * (e.path % 8) + e.va.toNat % 2 ^ 57

/-- A byte at a physical address as an access of `n` bytes by a core reads it: memory, or a register page (R43, R88). -/
def State.readPhys (s : State) (n pa : Nat) : Byte :=
  match regionOf pa with
  | .queuePage => if n = 4 || n = 8 then (s.queue (pageIndex pa)).slotByte (pa % 4096) else 0
  | .contextPage =>
    if n = 8 && pa % 4096 / 8 = 6 then BitVec.ofNat 8 ((s.ctxAt (pageIndex pa)).efault.word / 2 ^ (8 * (pa % 8))) else 0
  | _ => s.readByte pa

end Sys2Proof.Machine
end

