-- ==== Sys2Proof/Machine/Contain.lean ====
section
/-! DEFINITION. Context discard and process containment (R49), and the discard side of contexts, pens, stages, loft banks,
semaphores, handles, keys, experts and prefix entries (R55, R92, R141, R155, R171, R172, R298). -/

namespace Sys2Proof.Machine

/-- Memory cells outside a range. -/
def Memory.clear (m : Memory) (a n : Nat) : Memory := m.filter fun c => decide (c.1 < a ∨ a + n ≤ c.1)

/-- A range scrubbed to zero, in the arrays and in the write queue. -/
def State.scrub (s : State) (a n : Nat) : State := { s with mem := Memory.clear s.mem a n, wq := Memory.clear s.wq a n }

/-- Every cached leaf of a context leaves every cache, GLOBAL ones included (R85). -/
def State.flushCtx (s : State) (ctx : Nat) : State :=
  { s with
    yards := s.yards.map (fun y => { y with tlb := y.tlb.filter (·.ctx ≠ ctx) }),
    mcs := s.mcs.map fun m => { m with tlb := m.tlb.filter (·.ctx ≠ ctx) } }

/-- Loft banks that a context owns are scrubbed, then their LFMT returns to format 0 (R49, R92). -/
def State.scrubLofts (s : State) (ctx : Nat) : State :=
  let owned := (List.range 512).filter fun i =>
    let f := vget {} (vget {} s.yards (i / 64)).lfmt (i % 64)
    f.owned && f.owner = ctx
  let s := owned.foldl (fun s i => s.scrub (Config.loftBase + i * 0x40000) 0x40000) s
  { s with yards := s.yards.map fun y =>
      { y with lfmt := y.lfmt.map fun f => if f.owned && f.owner = ctx then {} else f } }

/-- A context is discarded (R49 step 4). -/
def State.discardCtx (s : State) (ctx : Nat) : State :=
  let c := s.ctxAt ctx
  let s := s.flushCtx ctx
  let s := if c.stageLen = 0 then s else s.scrub c.stageBase c.stageLen
  let s := s.scrubLofts ctx
  let empty := fun (h : Nat × Handle) => (h.1, { ({} : Handle) with gen := h.2.gen })
  let s := s.setCtx ctx { c with
    live := false, efault := {}, tmpltab := none, bound := false, held := [], invalBusy := c.invalBusy,
    handles := (c.handles.map empty).filter (fun h => h.2 ≠ {}), handleEpoch := c.handleEpoch + 1 }
  { s with
    sems := s.sems.map (fun x => if x.assigned && x.ctx = ctx then {} else x),
    pens := s.pens.map (fun p => if p.owner = some ctx then {} else p),
    yards := s.yards.map (fun y => { y with stages := y.stages.map (fun g => if g.ctx = ctx then {} else g),
                                            tmpls := y.tmpls.filter (·.1 ≠ ctx) }),
    experts := s.experts.filter (fun x => x.2.owner ≠ ctx),
    prefixRefs := s.prefixRefs.filter (fun r => (SMap.get ({} : Prefix) s.prefixes r.1).ctx ≠ ctx),
    prefixes := (s.prefixes.map fun (p : Nat × Prefix) => if p.2.ctx = ctx && p.2.state ≠ prefixEmpty
        then (p.1, { ({} : Prefix) with gen := (p.2.gen + 1) % 65536 }) else p).filter (fun p => p.2 ≠ {}),
    blockTabs := s.blockTabs.filter (fun b => b.ctx ≠ ctx),
    link := { s.link with keys := s.link.keys.map fun k => match k with
      | some k => if k.ctx = ctx then none else some k
      | none => none } }

/-- The queues of a queue's process: itself, and every enabled queue of the same PROC (R49). -/
def State.process (s : State) (q : Nat) : List Nat :=
  (s.queues.filter fun x => x.1 = q || (x.2.enable && x.2.proc = (s.queue q).proc)).map (·.1)

/-- The entries of some queues. -/
def State.entriesOf (s : State) (qs : List Nat) : List Nat := (s.entries.filter fun e => e.queue ∈ qs).map (·.id)

/-- Entries are cancelled without completion record or signal, and leave the device (R49 step 3, R50). -/
def State.dropEntries (s : State) (ids : List Nat) : State :=
  let s := ids.foldl State.endPrefixes (s.cancelWork fun e => e ∈ ids)
  { s with entries := s.entries.filter fun e => !(e.id ∈ ids) }

/-- The pins of entries on their handles are released (R49, R51). -/
def State.unpinEntries (s : State) (ids : List Nat) : State :=
  let own := s.entries.filter fun e => e.id ∈ ids
  { s with ctxs := own.foldl (fun cs e => e.handles.foldl
      (fun cs h => if h = 0 then cs else unpin cs e.ctx (fld h.toNat 0 16)) cs) s.ctxs }

/-- Containment of the process of a queue after a CAPABILITY fault (R49). -/
def State.contain (s : State) (q entry : Nat) : State :=
  let qs := s.process q
  let ids := s.entriesOf qs
  let ctxs := qs.map fun n => (s.queue n).ctx
  let s := s.logError 0x40 7 0 entry
  let s := s.setQueue q { s.queue q with lastFault := 0x40 }
  let s := qs.foldl (fun s n => s.setQueue n { s.queue n with contained := true }) s
  let s := (s.unpinEntries ids).dropEntries ids
  let s := ctxs.eraseDups.foldl State.discardCtx s
  s.sendMsix (s.queue q).faultVec

end Sys2Proof.Machine
end

