-- ==== Sys2Proof/Machine/Power.lean ====
section
/-! DEFINITION. Modelled power (R68, R73), the ballast that shapes its falls and the ramps of pinned entries (R75, R76), and
the projection that a completion record reports (R75). Powers are in milliwatts. -/

namespace Sys2Proof.Machine

/-- Watts of each power class (Table 4.3). -/
def classWatts (c : Nat) : Nat := [2, 4, 6, 8, 12, 16, 24, 32, 48, 64, 80, 96, 128, 160, 208, 220].getD c 0

/-! ### Charge weights (R68, R73) -/

def coreMw : Nat := 300
def arrayMw : Nat := 12500
def channelMw : Nat := 360
def floorMw : Nat := 20000

def dramMw : Nat := 310
def readMw : Nat := 104
def multiplyMw : Nat := 42

/-- Issue lanes enabled in EM (R341). -/
def Port.enabled (p : Port) : List Nat := (List.range 8).filter fun e => nbit p.em e

/-- The arrays of the channels on which a port's enabled lanes lie, and the BGUs of these lanes at a weight each (R341). -/
def Port.lanesMw (p : Port) (each : Nat) : Nat :=
  (p.enabled.map (· % 2)).eraseDups.length * dramMw + p.enabled.length * each

/-- An MCS in a word: the arrays of the channels on which the word reads or writes columns, and the BGUs that read, or read and multiply. A
word that is not lane-replicated is served by one BGU at a time; DRN writes on all eight lanes (R73, R341, R344; DEDUCED, log 50). -/
def Port.wordMw (p : Port) (w : Nat) : Nat :=
  match decodeBank w with
  | .dotK4 _ => p.lanesMw (readMw + multiplyMw)
  | .dotK4Cont _ => p.lanesMw (readMw + multiplyMw)
  | .dotKv _ => dramMw + readMw + multiplyMw
  | .axpy _ => dramMw + readMw + multiplyMw
  | .bcast _ => p.lanesMw readMw
  | .rdw _ => dramMw + readMw
  | .drn _ => 2 * dramMw
  | .kvwK _ => dramMw
  | .kvwV _ => dramMw
  | .wrw _ => dramMw
  | _ => 0

/-- A weight scaled by the calibration of R22. -/
def Gov.scaled (g : Gov) (mw : Nat) : Nat := mw * g.calibration / 1000

/-- The job is an MSTRM that its array has begun and that has rows left to stream (R191). -/
def Job.streaming (j : Job) : Bool :=
  j.phase == .running && match j.kind with
    | .mstrm d _ => decide (j.mpc < d.rows)
    | _ => false

/-- The array of a yard streams, or runs a lunge run, for a job for which `own` holds (R73, R191; DEDUCED, log 50). -/
def State.arrayWorks (s : State) (y : Nat) (own : Nat → Bool) : Bool :=
  ((vget {} s.yards y).arr.lunge.any fun l => own l.entry) || s.jobs.any fun j => j.unit == .array y && j.streaming && own j.entry

/-- Weight of a yard's cores and array that work for the entries for which `own` holds. -/
def State.yardMw (s : State) (y : Nat) (own : Nat → Bool) : Nat :=
  let n := ((upFrom (8 * y) 8).filter fun i => (s.coreAt i).running && own (s.coreAt i).entry).length
  s.gov.scaled (n * coreMw + if s.arrayWorks y own then arrayMw else 0)

/-- Weight of the MCSs that execute bank jobs of the entries for which `own` holds, each in its last word. -/
def State.bankPower (s : State) (own : Nat → Bool) : Nat :=
  s.gov.scaled (((s.bankJobs.filter fun b => (s.job? b.id).any fun j => own j.entry).flatMap fun b => b.ports.map fun p =>
    if (vget ({} : Mcs) s.mcs p.die).holder = some b.id then p.ran.elim 0 fun w => p.wordMw w.toNat else 0).foldl (· + ·) 0)

/-- Weight of the channels that transfer: those with waiting writes, and those of the ordinary reads of this beat or the last (R73;
DEDUCED, log 50). -/
def State.channelPower (s : State) : Nat :=
  let reads := if s.beat ≤ s.readBeat + 1 then s.readChannels else []
  s.gov.scaled (((s.wq.map fun c => (placeOf c.1).channel) ++ reads).eraseDups.length * channelMw)

/-- Power attributed to an entry on each yard, and on the bank units at index 8 (R68). -/
def State.attributedMw (s : State) (entry : Nat) : List Nat :=
  (List.range 8).map (fun y => s.yardMw y (· = entry)) ++ [s.bankPower (· = entry)]

def sumMw (xs : List Nat) : Nat := xs.foldl (· + ·) 0

/-- Modelled power without ballast (R73). -/
def State.realMw (s : State) : Nat :=
  s.gov.scaled floorMw + sumMw ((List.range 8).map fun y => s.yardMw y fun _ => true) + s.bankPower (fun _ => true) + s.channelPower

/-- Ballast that runs now. -/
def State.ballastNow (s : State) : Nat := sumMw (s.yards.toList.map (·.ballastMw))

/-- The level that no window exceeds: min(PEAK_W, ThermalBudget()) (R22, R73, R78). -/
def Gov.levelMw (g : Gov) : Nat := min (g.board.peak * 1000) (g.budgetDw * 100)

/-- Modelled power (R73). -/
def State.modelledNow (s : State) : Nat := s.realMw + s.ballastNow

/-! ### Ballast (R75, R76) -/

/-- A need shared in order, each part up to its own limit. -/
def fillUp (need : Nat) : List Nat → List Nat
  | [] => []
  | x :: xs => min need x :: fillUp (need - min need x) xs

/-- The level that the slots granted so far allow a pinned entry, of W watts over `n` slots: each raises it by an equal part, W / n (R76;
DESIGN CHOICE, log 98: the spec gives the level after the last slot, W, and not the step of each). -/
def rampLevel (watts n past : Nat) : Nat := if n = 0 then 0 else watts * 1000 * min past n / n

/-- Yards on which the ramp ballast of an entry runs: those of the cores of its launch's pens, or yard[0] (R76). -/
def State.rampYards (s : State) (e : Entry) : List Nat :=
  let named := match s.launches.find? (·.entry = e.id), e.op with
    | some l, _ => some l.body
    | none, some (.launch b, _) => some b
    | _, _ => none
  let pens := match named with
    | some b => (List.range b.pencnt).map fun i => fld b.penset.toNat (8 * i) 8
    | none => []
  let ys := (List.range 8).filter fun y => pens.any fun p => fld (vget ({} : Pen) s.pens p).bitmap.toNat (8 * y) 8 ≠ 0
  if ys.isEmpty then [0] else ys

/-- The level granted to a pinned entry so far (R76). -/
def State.grantedMw (s : State) (e : Entry) : Nat :=
  rampLevel (classWatts e.powerClass) e.rampSlots.length (e.rampSlots.filter fun b => decide (b ≤ s.gov.windowAt)).length

/-- The ramp ballast of a pinned entry ends: its attributed power has reached the granted level (R76). -/
def State.endRamp (s : State) (e : Entry) : Entry :=
  if e.pinned && s.grantedMw e != 0 && decide (s.grantedMw e ≤ sumMw (s.attributedMw e.id)) then { e with rampDone := true } else e

/-- Ramp ballast of an entry on a yard: its share of the level granted, less what the entry's own items draw there. -/
def State.rampMw (s : State) (y : Nat) (e : Entry) : Nat :=
  let level := s.grantedMw e
  let ys := s.rampYards e
  if e.pinned && e.status.isNone && !e.rampDone && ys.contains y then level / ys.length - s.yardMw y (· = e.id) else 0

/-- The governor runs ballast: the ramps of pinned entries, then what keeps modelled power at the floor of the window, on the
yards whose power fell, in ascending order and each up to its own drop (R75, R76). Ramps keep to the level that no window exceeds. -/
def State.settleBallast (s : State) : State :=
  let s := { s with entries := s.entries.map s.endRamp }
  let ramp := fillUp (s.gov.levelMw - s.realMw) ((List.range 8).map fun y => sumMw (s.entries.map (s.rampMw y)))
  let real := (List.range 8).map fun y => s.yardMw y fun _ => true
  let need := s.gov.windowStartMw - s.gov.board.rampDown * 1000 - (s.realMw + sumMw ramp)
  let drops := (List.range 8).map fun y => (vget ({} : Yard) s.yards y).startMw - real.getD y 0 - ramp.getD y 0
  let fill := fillUp need drops
  { s with yards := Vector.ofFn fun (y : Fin 8) => { s.yards[y] with ballastMw := ramp.getD y.val 0 + fill.getD y.val 0 } }

/-- The windows that follow a fall, each with the ballast that the rule runs in it: yard-beats until none is left (R75). -/
def fallWindows (down window level : Nat) : Nat → Nat → List Nat → Nat
  | 0, _, _ => 0
  | fuel + 1, start, drops =>
    let fill := fillUp (start - down - level) drops
    let n := (fill.filter (· ≠ 0)).length
    if n = 0 then 0 else n * window + fallWindows down window level fuel (level + sumMw fill) fill

/-- The ballast beats projected when the last work of an entry drains (R75). -/
def State.projectedBallast (s : State) (e : Entry) : Nat :=
  let drops := e.attributed.take 8
  let level := e.sampleMw - sumMw drops
  let down := s.gov.board.rampDown * 1000
  let w := s.gov.board.window
  let fill := fillUp (s.gov.windowStartMw - down - level) drops
  let n := (fill.filter (· ≠ 0)).length
  n * (s.gov.windowAt + w - s.beat) + fallWindows down w level 512 (level + sumMw fill) fill

end Sys2Proof.Machine
end

