-- ==== Sys2Proof/Machine/Num.lean ====
section
/-! DEFINITION. Number formats (11): exact values, the one rounding of R210, arithmetic (R221, R275), the correctly
rounded transcendentals (R279), and quantisation into blocks (R219). -/

namespace Sys2Proof.Machine

/-- An exact value: NaN, an infinity, or (-1)^neg × m × 2^e; a zero keeps its sign (R213). -/
inductive Num where
  | nan
  | inf (neg : Bool)
  | fin (neg : Bool) (m : Nat) (e : Int)
  deriving DecidableEq, Repr

/-- How a format uses its highest codes (Table 11.1, Table 11.5). -/
inductive FmtKind where
  /-- Infinity and NaN; a finite overflow gives an infinity. -/
  | ieee
  /-- Infinity and NaN; a finite overflow saturates (E5M2). -/
  | ieeeSat
  /-- One NaN code, no infinity; overflow and infinities saturate (E4M3). -/
  | oneNan
  /-- Neither (E2M1). -/
  | none
  deriving DecidableEq, Repr

/-- A floating-point format (Table 11.1): fraction bits, exponent bits, bias, largest finite code, canonical NaN. -/
structure FloatFmt where
  p : Nat
  eb : Nat
  bias : Nat
  maxCode : Nat
  nan : Nat
  kind : FmtKind
  deriving DecidableEq, Repr

def fp32 : FloatFmt := { p := 23, eb := 8, bias := 127, maxCode := 0x7F7FFFFF, nan := 0x7FC00000, kind := .ieee }
def bf16 : FloatFmt := { p := 7, eb := 8, bias := 127, maxCode := 0x7F7F, nan := 0x7FC0, kind := .ieee }
def fp16 : FloatFmt := { p := 10, eb := 5, bias := 15, maxCode := 0x7BFF, nan := 0x7E00, kind := .ieee }
def e4m3 : FloatFmt := { p := 3, eb := 4, bias := 7, maxCode := 0x7E, nan := 0x7F, kind := .oneNan }
def e5m2 : FloatFmt := { p := 2, eb := 5, bias := 15, maxCode := 0x7B, nan := 0x7E, kind := .ieeeSat }
def e2m1 : FloatFmt := { p := 1, eb := 2, bias := 1, maxCode := 0x7, nan := 0, kind := .none }

/-- Width in bits. -/
def FloatFmt.width (f : FloatFmt) : Nat := 1 + f.eb + f.p

/-- The sign bit set. -/
def FloatFmt.signed (f : FloatFmt) (neg : Bool) (code : Nat) : Nat := code + (if neg then 2 ^ (f.eb + f.p) else 0)

/-- The exact value of a code (R213). -/
def FloatFmt.decode (f : FloatFmt) (x : Nat) : Num :=
  let neg := nbit x (f.eb + f.p)
  let ex := fld x f.p f.eb
  let fr := fld x 0 f.p
  let top := ex = 2 ^ f.eb - 1
  match f.kind with
  | .ieee | .ieeeSat =>
    if top then (if fr = 0 then .inf neg else .nan)
    else if ex = 0 then .fin neg fr (1 - (f.bias : Int) - f.p) else .fin neg (2 ^ f.p + fr) ((ex : Int) - f.bias - f.p)
  | .oneNan =>
    if top && fr = 2 ^ f.p - 1 then .nan
    else if ex = 0 then .fin neg fr (1 - (f.bias : Int) - f.p) else .fin neg (2 ^ f.p + fr) ((ex : Int) - f.bias - f.p)
  | .none =>
    if ex = 0 then .fin neg fr (1 - (f.bias : Int) - f.p) else .fin neg (2 ^ f.p + fr) ((ex : Int) - f.bias - f.p)

/-- m × 2^e rounded to the nearest integer, ties to even (R210, R216), and whether it was exact. -/
def rneScaled (m : Nat) (e : Int) : Nat × Bool :=
  if 0 ≤ e then (m * 2 ^ e.toNat, true)
  else
    let d := (-e).toNat
    let q := m / 2 ^ d
    let r := m % 2 ^ d
    let up := decide (2 ^ d < 2 * r) || (2 * r == 2 ^ d && q % 2 == 1)
    (q + bit up, r == 0)

/-- Whether m × 2^e > n × 2^k. -/
def scaledGt (m : Nat) (e : Int) (n : Nat) (k : Int) : Bool :=
  let lo := min e k
  decide (n * 2 ^ (k - lo).toNat < m * 2 ^ (e - lo).toNat)

/-- The exponent of the highest bit of m × 2^e, for m > 0. -/
def topExp (m : Nat) (e : Int) : Int := (Nat.log2 m : Int) + e

/-- A finite value rounded to a format by R210 with the overflow rule of Table 11.5, and the flags of R212. -/
def FloatFmt.round (f : FloatFmt) (neg : Bool) (m : Nat) (e : Int) : Nat × Sticky :=
  if m = 0 then (f.signed neg 0, {})
  else
    let emin : Int := 1 - f.bias
    let top := topExp m e
    let q := (if top < emin then emin else top) - f.p
    match rneScaled m (e - q) with
    | (n, exact) =>
      let code := (q + f.p + f.bias - 1).toNat * 2 ^ f.p + n
      let tiny := decide (top < emin)
      let excess := decide (f.maxCode < code) || (f.kind == .none && scaledGt m e 6 0)
      if excess then
        match f.kind with
        | .ieee => (f.signed neg (f.maxCode + 1), { overflow := true, inexact := true })
        | _ => (f.signed neg f.maxCode, { saturate := true, inexact := true })
      else (f.signed neg code, { inexact := !exact, underflow := tiny && !exact })

/-- A value encoded in a floating-point format (Table 11.5). -/
def FloatFmt.encode (f : FloatFmt) : Num → Nat × Sticky
  | .nan => match f.kind with
    | .none => (0, { invalid := true })
    | _ => (f.nan, {})
  | .inf neg => match f.kind with
    | .ieee | .ieeeSat => (f.signed neg ((2 ^ f.eb - 1) * 2 ^ f.p), {})
    | _ => (f.signed neg f.maxCode, { saturate := true })
  | .fin neg m e => f.round neg m e

/-- A value encoded in a `w`-bit integer format (Table 11.5). -/
def encodeInt (w : Nat) : Num → Nat × Sticky
  | .nan => (0, { invalid := true })
  | .inf neg => (wrap w (if neg then -((2 ^ (w - 1) : Nat) : Int) else ((2 ^ (w - 1) : Nat) : Int) - 1), { saturate := true })
  | .fin neg m e =>
    let big := decide (m ≠ 0) && decide ((w : Int) < topExp m e)
    match if big then (2 ^ w, false) else rneScaled m e with
    | (n, exact) =>
      let i : Int := if neg then -(n : Int) else n
      let c := clampS w i
      (wrap w c, { saturate := c ≠ i, inexact := !exact || c ≠ i })

/-- The scalar formats by FORMAT code (Table 5.7). -/
def floatFmt? (code : Nat) : Option FloatFmt :=
  match code with
  | 1 => some fp32 | 2 => some bf16 | 3 => some fp16 | 4 => some e4m3 | 5 => some e5m2 | 6 => some e2m1
  | _ => none

/-- The exact value of an integer element. -/
def numOfInt (i : Int) : Num := .fin (decide (i < 0)) i.natAbs 0

/-- The exact value of an element of a scalar format (R222). -/
def decodeElem (code x : Nat) : Num :=
  match floatFmt? code with
  | some f => f.decode x
  | none => numOfInt (sext (fmtWidth code) x)

/-- An element of a scalar format from a value (R222). -/
def encodeElem (code : Nat) (v : Num) : Nat × Sticky :=
  match floatFmt? code with
  | some f => f.encode v
  | none => encodeInt (fmtWidth code) v

/-- The floating-point format of an fn of R275. -/
def fnFmt (fn : Nat) : FloatFmt := if fn = 9 then bf16 else if fn = 10 then fp16 else fp32

/-! ### Arithmetic (R221, R275, R276) -/

/-- -x. -/
def Num.neg : Num → Num
  | .nan => .nan
  | .inf s => .inf (!s)
  | .fin s m e => .fin (!s) m e

/-- |x|. -/
def Num.abs : Num → Num
  | .nan => .nan
  | .inf _ => .inf false
  | .fin _ m e => .fin false m e

def Num.isNan : Num → Bool
  | .nan => true
  | _ => false

def Num.isZero : Num → Bool
  | .fin _ m _ => m == 0
  | _ => false

/-- The sign of a value. -/
def Num.sign : Num → Bool
  | .nan => false
  | .inf s => s
  | .fin s _ _ => s

/-- An exact sum, and whether it is invalid (inf - inf); x + (-x) = +0 and (-0) + (-0) = -0 (R221). -/
def Num.add (x y : Num) : Num × Bool :=
  match x, y with
  | .nan, _ => (.nan, false)
  | _, .nan => (.nan, false)
  | .inf a, .inf b => if a = b then (.inf a, false) else (.nan, true)
  | .inf a, _ => (.inf a, false)
  | _, .inf b => (.inf b, false)
  | .fin a m e, .fin b n k =>
    let lo := min e k
    let i : Int := (if a then -1 else 1) * (m * 2 ^ (e - lo).toNat : Nat) + (if b then -1 else 1) * (n * 2 ^ (k - lo).toNat : Nat)
    if i = 0 then (.fin (m = 0 && n = 0 && a && b) 0 0, false) else (.fin (decide (i < 0)) i.natAbs lo, false)

/-- An exact product, and whether it is invalid (0 × inf) (R276). -/
def Num.mul (x y : Num) : Num × Bool :=
  match x, y with
  | .nan, _ => (.nan, false)
  | _, .nan => (.nan, false)
  | .inf a, y => if y.isZero then (.nan, true) else (.inf (a != y.sign), false)
  | x, .inf b => if x.isZero then (.nan, true) else (.inf (x.sign != b), false)
  | .fin a m e, .fin b n k => (.fin (a != b) (m * n) (e + k), false)

/-- x × 2^n (R278). -/
def Num.scale (x : Num) (n : Int) : Num :=
  match x with
  | .fin s m e => .fin s m (e + clampS 14 n)
  | x => x

/-- An exact result and its validity rounded to a format. -/
def FloatFmt.finish (f : FloatFmt) (r : Num × Bool) : Nat × Sticky :=
  match f.encode r.1 with
  | (x, fl) => (x, { fl with invalid := fl.invalid || r.2 })

def FloatFmt.add (f : FloatFmt) (x y : Nat) : Nat × Sticky := f.finish ((f.decode x).add (f.decode y))
def FloatFmt.sub (f : FloatFmt) (x y : Nat) : Nat × Sticky := f.finish ((f.decode x).add (f.decode y).neg)
def FloatFmt.mul (f : FloatFmt) (x y : Nat) : Nat × Sticky := f.finish ((f.decode x).mul (f.decode y))

/-- x × y + z rounded once (R276). A zero product plus a zero is -0 only when both are. -/
def FloatFmt.fma (f : FloatFmt) (x y z : Nat) : Nat × Sticky :=
  match (f.decode x).mul (f.decode y) with
  | (.nan, bad) => f.finish (.nan, bad)
  | (p, _) => f.finish (p.add (f.decode z))

/-- x < y of two values that are no NaN, with -0 below +0 when `zeros` holds (R276, R284). -/
def Num.lt (zeros : Bool) (x y : Num) : Bool :=
  match x, y with
  | .nan, _ => false
  | _, .nan => false
  | .inf a, .inf b => a && !b
  | .inf a, _ => a
  | _, .inf b => !b
  | .fin a m e, .fin b n k =>
    let lo := min e k
    let i : Int := (if a then -1 else 1) * (m * 2 ^ (e - lo).toNat : Nat)
    let j : Int := (if b then -1 else 1) * (n * 2 ^ (k - lo).toNat : Nat)
    decide (i < j) || (zeros && i == 0 && j == 0 && a && !b)

/-- x = y of two values; -0 equals +0, and a NaN equals nothing (R277). -/
def Num.eq (x y : Num) : Bool := !x.isNan && !y.isNan && !(x.lt false y) && !(y.lt false x)

/-- The lesser of two codes; a NaN operand gives the canonical NaN (R276). -/
def FloatFmt.minimum (f : FloatFmt) (x y : Nat) : Nat :=
  if (f.decode x).isNan || (f.decode y).isNan then f.nan else if (f.decode y).lt true (f.decode x) then y else x

/-- The greater of two codes; a NaN operand gives the canonical NaN (R276). -/
def FloatFmt.maximum (f : FloatFmt) (x y : Nat) : Nat :=
  if (f.decode x).isNan || (f.decode y).isNan then f.nan else if (f.decode x).lt true (f.decode y) then y else x

/-- A code with its sign cleared, or the canonical NaN (R276). -/
def FloatFmt.absolute (f : FloatFmt) (x : Nat) : Nat :=
  if (f.decode x).isNan then f.nan else x % 2 ^ (f.eb + f.p)

/-- A code with its sign inverted, or the canonical NaN (R276). -/
def FloatFmt.negate (f : FloatFmt) (x : Nat) : Nat :=
  if (f.decode x).isNan then f.nan else if nbit x (f.eb + f.p) then x - 2 ^ (f.eb + f.p) else x + 2 ^ (f.eb + f.p)

/-- x × 2^n rounded once (R278). -/
def FloatFmt.scaled (f : FloatFmt) (x : Nat) (n : Int) : Nat × Sticky := f.encode ((f.decode x).scale n)

/-- A condition of Table 14.3. -/
def fpCond (cond : Nat) (x y : Num) : Bool :=
  match cond with
  | 0 => x.eq y
  | 1 => !(x.eq y)
  | 2 => x.lt false y
  | 3 => !x.isNan && !y.isNan && !(x.lt false y)
  | 6 => x.isZero
  | _ => !x.isZero

/-! ### Transcendentals (R279)

A value that is not exact is given by enough of its bits and one more bit below them that is 1: rounding to any format
of the device then gives the rounding of the value itself. -/

/-- The value m × 2^e, or one just above it when it is not exact. -/
def jammed (neg : Bool) (m : Nat) (e : Int) (exact : Bool) : Num := .fin neg (2 * m + bit (!exact)) (e - 1)

/-- The integer square root, bit by bit from 2^(fuel - 1) down. -/
def isqrt : Nat → Nat → Nat → Nat
  | 0, _, r => r
  | fuel + 1, n, r => if (r + 2 ^ fuel) * (r + 2 ^ fuel) ≤ n then isqrt fuel n (r + 2 ^ fuel) else isqrt fuel n r

/-- √x. -/
def Num.sqrt (x : Num) : Num × Bool :=
  match x with
  | .nan => (.nan, false)
  | .inf s => if s then (.nan, true) else (.inf false, false)
  | .fin s m e =>
    if m = 0 then (.fin s 0 0, false)
    else if s then (.nan, true)
    else
      let odd := e % 2 != 0
      let m := (if odd then 2 * m else m) * 2 ^ 80
      let e := (if odd then e - 1 else e) - 80
      let r := isqrt 64 m 0
      (jammed false r (e / 2) (r * r == m), false)

/-- 1/x. -/
def Num.recip (x : Num) : Num × Bool :=
  match x with
  | .nan => (.nan, false)
  | .inf s => (.fin s 0 0, false)
  | .fin s m e =>
    if m = 0 then (.inf s, false)
    else (jammed s (2 ^ 80 / m) (-e - 80) (2 ^ 80 % m == 0), false)

/-- 1/√x. -/
def Num.rsqrt (x : Num) : Num × Bool :=
  match x with
  | .nan => (.nan, false)
  | .inf s => if s then (.nan, true) else (.fin false 0 0, false)
  | .fin s m e =>
    if m = 0 then (.inf s, false)
    else if s then (.nan, true)
    else
      let odd := e % 2 != 0
      let m := if odd then 2 * m else m
      let e := if odd then e - 1 else e
      let q := 2 ^ 120 / m
      let r := isqrt 64 q 0
      (jammed false r (-(e / 2) - 60) (r * r * m == 2 ^ 120), false)

/-- ln 2 × 2^240, rounded down. -/
def ln2Bits : Nat := 0xb17217f7d1cf79abc9e3b39803f2f6af40f343267298b62d8a0d175b8baa

/-- Σ y^k / k! from term `k` on, in units of 2^-240, each term rounded down. -/
def expTail : Nat → Nat → Nat → Nat → Nat
  | 0, _, _, _ => 0
  | fuel + 1, k, term, y => term + expTail fuel (k + 1) (term * y / 2 ^ 240 / (k + 1)) y

/-- 2^x. -/
def Num.exp2 (x : Num) : Num × Bool :=
  match x with
  | .nan => (.nan, false)
  | .inf s => (if s then .fin false 0 0 else .inf false, false)
  | .fin s m e =>
    if m = 0 then (.fin false 1 0, false)
    else if 13 < topExp m e then (if s then jammed false 1 (-10000) false else jammed false 1 10000 false, false)
    else
      let i : Int := (if s then -1 else 1) * (if 0 ≤ e then (m * 2 ^ e.toNat : Nat) else (m : Nat))
      let d : Nat := if 0 ≤ e then 0 else (-e).toNat
      let whole := i / (2 ^ d : Nat)
      let frac := (i % (2 ^ d : Nat)).toNat
      if frac = 0 then (.fin false 1 whole, false)
      else
        let y := frac * ln2Bits / 2 ^ d
        (jammed false (expTail 60 0 (2 ^ 240) y) (whole - 240) false, false)

/-- Σ z^(2k+1) / (2k+1), in units of 2^-240. -/
def atanhTail : Nat → Nat → Nat → Nat → Nat
  | 0, _, _, _ => 0
  | fuel + 1, k, power, z2 => power / (2 * k + 1) + atanhTail fuel (k + 1) (power * z2 / 2 ^ 240) z2

/-- log2 x. -/
def Num.log2 (x : Num) : Num × Bool :=
  match x with
  | .nan => (.nan, false)
  | .inf s => if s then (.nan, true) else (.inf false, false)
  | .fin s m e =>
    if m = 0 then (.inf true, false)
    else if s then (.nan, true)
    else
      let top := Nat.log2 m
      let whole : Int := (top : Int) + e
      if m = 2 ^ top then (.fin (decide (whole < 0)) whole.natAbs 0, false)
      else
        let z := (m - 2 ^ top) * 2 ^ 240 / (m + 2 ^ top)
        let l : Nat := 2 * atanhTail 80 0 z (z * z / 2 ^ 240) * 2 ^ 240 / ln2Bits
        let v : Int := whole * (2 ^ 240 : Nat) + (l : Int)
        if 0 ≤ v then (jammed false v.toNat (-240) false, false) else (jammed true (v.natAbs - 1) (-240) false, false)

/-! ### Shared functions on FP32 words (R221) -/

/-- AddFP32. -/
def addFP32 (x y : W32) : W32 × Sticky :=
  match fp32.add x.toNat y.toNat with
  | (n, f) => (BitVec.ofNat 32 n, f)

/-- ToFP32 of an exact integer. -/
def toFP32 (i : Int) : W32 := BitVec.ofNat 32 (fp32.encode (numOfInt i)).1

/-- ScaleExp2. -/
def scaleExp2 (x : W32) (n : Int) : W32 × Sticky :=
  match fp32.encode ((fp32.decode x.toNat).scale n) with
  | (v, f) => (BitVec.ofNat 32 v, f)

/-- RoundFP32 of an exact value. -/
def roundFP32 (v : Num) : W32 × Sticky :=
  match fp32.encode v with
  | (x, f) => (BitVec.ofNat 32 x, f)

/-- The canonical NaN of FP32 and the poison pattern (R132, R211). -/
def nanFP32 : W32 := 0x7FC00000
def poisonFP32 : W32 := 0x7FC00BAD

/-! ### Block formats (R217-R219) -/

/-- The greatest magnitude, for values without NaN. -/
def amaxOf (xs : List Num) : Num := xs.foldl (fun a x => if a.lt false x.abs then x.abs else a) (.fin false 0 0)

/-- Whether amax / 2^e ≤ 127. -/
def fits127 (m : Nat) (e k : Int) : Bool := !(scaledGt m e 127 k)

/-- The scale exponent of a block before clamping (R219). -/
def scaleExp (e2m1Rule : Bool) (amax : Num) : Int :=
  match amax with
  | .fin _ m e =>
    if e2m1Rule then topExp m e - 2
    else if fits127 m e (topExp m e - 6) then topExp m e - 6 else topExp m e - 5
  | _ => 128

/-- QuantiseBlock (R219): the scale code, the element codes, and the flags a core sets. -/
def quantiseBlock (e2m1Rule : Bool) (xs : List Num) : Nat × List Nat × Sticky :=
  if xs.any Num.isNan then (0xFF, xs.map fun _ => 0, {})
  else
    let amax := amaxOf xs
    if amax.isZero then (0, xs.map fun _ => 0, {})
    else
      let e := scaleExp e2m1Rule amax
      let c : Int := if 127 < e then 127 else if e < -127 then -127 else e
      let q := xs.map fun x =>
        let y := x.scale (-c)
        if e2m1Rule then e2m1.encode y
        else
          match encodeInt 8 y with
          | (v, f) => if v = 0x80 then (0x81, { f with saturate := true, inexact := match y with
              | .fin _ _ _ => true
              | _ => false }) else (v, f)
      ((c + 127).toNat, q.map (·.1), (stickyAll (q.map (·.2))).or { scaleUnderflow := decide (e < -127) })

/-- The exact value of a block element under a scale code (R218); `code` is a block format or MXFP4's element. -/
def blockValue (e2m1Rule : Bool) (scale x : Nat) : Num :=
  if scale = 0xFF then .nan
  else (if e2m1Rule then e2m1.decode x else numOfInt (sext 8 x)).scale ((scale : Int) - 127)

/-! ### Conversions of byte strings (R222-R225) -/

/-- The 4-bit elements of bytes, two to a byte (R215). -/
def nibbles (bs : List Byte) : List Nat := bs.flatMap fun b => [b.toNat % 16, b.toNat / 16]

/-- Bytes from 4-bit elements; a missing last one is 0 (R215, R225). -/
def packNibbles : List Nat → List Byte
  | [] => []
  | [x] => [BitVec.ofNat 8 (x % 16)]
  | x :: y :: rest => BitVec.ofNat 8 (x % 16 + 16 * (y % 16)) :: packNibbles rest

/-- The list cut into pieces of `n`. -/
def chunk {α : Type} (n : Nat) : Nat → List α → List (List α)
  | 0, _ => []
  | fuel + 1, xs => if xs.isEmpty then [] else xs.take n :: chunk n fuel (xs.drop n)

def chunks {α : Type} (n : Nat) (xs : List α) : List (List α) := chunk n xs.length xs

/-- Bytes of one element (or block) of a format; E2M1 is counted by the byte (R217, R225). -/
def unitBytes (fmt : Nat) : Nat := if 9 ≤ fmt then 129 else if fmt = 6 then 1 else fmtWidth fmt / 8

/-- Elements of one unit of a format (R217). -/
def unitElems (fmt : Nat) : Nat := if 9 ≤ fmt then blockElems fmt else if fmt = 6 then 2 else 1

/-- The exact values of the elements in bytes of a format (R222). -/
def decodeBytes (fmt : Nat) (bs : List Byte) : List Num :=
  if 9 ≤ fmt then
    (chunks 129 bs).flatMap fun b =>
      let scale := (b.getD 128 0).toNat
      if fmt = 9 then (nibbles (b.take 128)).map (blockValue true scale)
      else (b.take 128).map fun x => blockValue false scale x.toNat
  else if fmt = 6 then (nibbles bs).map (decodeElem 6)
  else (chunks (unitBytes fmt) bs).map fun b => decodeElem fmt (fromBytes b)

/-- Bytes of a format from values (R222). -/
def encodeNums (fmt : Nat) (xs : List Num) : List Byte :=
  if 9 ≤ fmt then
    (chunks (blockElems fmt) xs).flatMap fun g =>
      match quantiseBlock (fmt = 9) g with
      | (scale, q, _) =>
        (if fmt = 9 then packNibbles q else q.map (BitVec.ofNat 8)) ++ [BitVec.ofNat 8 scale]
  else if fmt = 6 then packNibbles (xs.map fun x => (encodeElem 6 x).1)
  else xs.flatMap fun x => toBytes (unitBytes fmt) (encodeElem fmt x).1

/-- Bytes converted by a pair of R224; A8 and KV8 copy between each other (R223). -/
def convertBytes (pair : Nat) (bs : List Byte) : List Byte :=
  let f := pair / 16
  let t := pair % 16
  if pair = 0 || (10 ≤ f && 10 ≤ t) then bs else encodeNums t (decodeBytes f bs)

/-- A conversion byte that R224 allows: 0, or two different formats of 1 to 11. -/
def pairOk (pair : Nat) : Bool :=
  pair = 0 || (decide (1 ≤ pair / 16 ∧ pair / 16 ≤ 11 ∧ 1 ≤ pair % 16 ∧ pair % 16 ≤ 11) && pair / 16 != pair % 16)

/-- Elements that some bytes hold in a format; none when they are no whole number of units (R225). -/
def elemCount (fmt n : Nat) : Option Nat := if n % unitBytes fmt = 0 then some (n / unitBytes fmt * unitElems fmt) else none

/-- Whether bytes of the source convert whole: a multiple of both block sizes (R225). -/
def convertible (pair n : Nat) : Bool :=
  pair = 0 ||
    match elemCount (pair / 16) n with
    | some k => k % (if 9 ≤ pair % 16 then blockElems (pair % 16) else 1) = 0
    | none => false

/-- Bytes of the destination for bytes of the source (R225). -/
def convertedLen (pair n : Nat) : Nat :=
  if pair = 0 then n
  else
    let k := n / unitBytes (pair / 16) * unitElems (pair / 16)
    let t := pair % 16
    if 9 ≤ t then k / blockElems t * 129 else ceilDiv (k * fmtWidth t) 8

end Sys2Proof.Machine
end

