-- ==== Sys2Proof/Machine/Memory.lean ====
section
/-! DEFINITION. Loads, stores, vector accesses, atomics and the ordering instructions of a core (R291-R297), with the
BTE aperture (R306) and the register pages (R43, R88). -/

namespace Sys2Proof.Machine

/-- An access of the core whose turn it is, on the CORE path (Table 6.2). -/
def State.coreAccess (s : State) (need : Need) : Access :=
  { ctx := s.core.ctx, path := pathCore, need := need, cache := .yard s.yardIdx }

/-- The trap of a memory fault (R97, R175). -/
def memTrap (path : Nat) (f : BitVec 8 × Nat) : Trap := { code := f.1, path := path, fva := BitVec.ofNat 64 f.2 }

/-- The latency class of an access by the frames it reaches: the highest of local loft 8, remote loft 9, package and
register pages 10 (R240, R291). -/
def accessClass (yard : Nat) (pas : List Nat) : Nat :=
  pas.foldl (fun c pa => max c (match regionOf pa with
    | .loft => if loftYard pa = yard then 8 else 9
    | _ => 10)) 8

/-- Whether some byte lies in a column whose ECC error cannot be corrected (R134; DESIGN CHOICE, log 34). -/
def State.eccBad (s : State) (pas : List Nat) : Bool :=
  pas.any fun pa => regionOf pa == .package && s.env.badColumns.contains (pa / 64 * 64)

/-- A load that met an uncorrectable error: ECC_UNCORRECTABLE precisely at it, and the entry ends FAILED (R134). -/
def eccStop (s : State) : Issue :=
  let e := s.core.entry
  .leaves ((s.takeTrap { code := 0x21 }).failEntry e 0x21)

/-- An instruction whose reads at issue are still to be served waits for them (R13). -/
def Issue.whenServed (i : Issue) (s : State) : Issue :=
  match i with
  | .retire t o => if t.unserved then .wait s else .retire t o
  | .whole t => if t.unserved then .wait s else .whole t
  | .leaves t => if t.unserved then .wait s else .leaves t
  | other => other

/-- An access that an order field makes a release, or a fence, at a scope beyond the core: the loads before it have been
performed, and at memory scope and beyond earlier writes enter the arrays first (R104, R106). -/
def State.releaseAt (s : State) (scope : Nat) : State :=
  let t := if scope = 0 then s else s.modCore Core.settle
  if 4 ≤ scope then t.drainWrites else t

/-- An M word is a release (R105). -/
def releases (w : MemF) : Bool := w.order = 2 || w.order = 3

/-- The release side of an M word (R105, R106). -/
def State.order (s : State) (w : MemF) : State := if releases w then s.releaseAt w.scope.toNat else s

/-- An access of a strongly ordered page: the accesses before it have been performed at every scope (R88, R103). -/
def State.strongOrder (s : State) (strong : Bool) : State := if strong then s.releaseAt 11 else s

/-- An access that orders earlier writes before it waits while a refresh keeps one of them from its array (R13, R104). -/
def State.orderWaits (s : State) (w : MemF) (strong : Bool) : Bool :=
  s.drainWaits && (strong || (releases w && decide (4 ≤ w.scope.toNat)))

/-- The bytes that a store to a strongly ordered page has written are performed at every scope with it (R103). -/
def Issue.performed (i : Issue) (strong : Bool) : Issue :=
  match i with
  | .retire s o => .retire (s.strongOrder strong) o
  | other => other

/-- The loads of active lanes or of one scalar as a plan: each span's destination byte and its addresses (R98). -/
def planOf (dest : Spec) (signBits size : Nat) (ordered : Bool) (at_ : List Nat) (pas : List (List Nat)) : LoadPlan :=
  { dest := dest, signBits := signBits, size := size, ordered := ordered,
    bytes := (at_.zip pas).flatMap fun p => (List.range p.2.length).map fun i => (p.1 + i, p.2.getD i 0) }

/-- Perform a checked load: ECC, class, result (R134, R240). Loads before it that it follows have been performed (R102, R103),
and it waits for the refresh of a bank that it reads (R13). -/
def finishLoad (s : State) (dest : Spec) (signBits size : Nat) (ordered : Bool) (at_ : List Nat) (pas : List (List Nat)) : Issue :=
  let all := pas.flatten
  if s.eccBad all then eccStop s
  else
    let p := planOf dest signBits size ordered at_ pas
    let t := s.ordinaryRead all
    .retire (t.modCore fun c => c.settleAt all)
      { writes := p.perform (s.readPhys size), cls := accessClass s.yardIdx.val all, redo := some p, notBefore := t.served }

/-- Bytes that an instruction reads at issue by a CORE-path load (R315): the loads before it have been performed (R102, R103, R106), and
from a strongly ordered page every access before it, once that can be. An uncorrectable error is its fault (R134). -/
def readCore (s : State) (span : Span) : State × Except (BitVec 8 × Nat) (List Byte) :=
  match reach s (s.coreAccess .read) [span] with
  | (s, .error f) => (s, .error f)
  | (s, .ok pas) =>
    let strong := strongly s (s.coreAccess .read) [span]
    if s.eccBad pas.flatten then (s, .error (0x21, span.va))
    else
      let t := ((s.strongOrder strong).ordinaryRead pas.flatten).modCore Core.settle
      (if strong && s.drainWaits then { t with served := max t.served (s.beat + 1) } else t, .ok (pas.flatten.map t.readByte))

/-- A load at issue that faults, or meets an uncorrectable error (R134). -/
def readStop (s : State) (f : BitVec 8 × Nat) : Issue := if f.1 = 0x21 then eccStop s else .trap s (memTrap pathCore f)

/-- A load of the core with its order: an acquire, or one from a strongly ordered page, is followed by later accesses (R103,
R106). -/
def orderedLoad (s : State) (w : MemF) (a : Access) (spans : List Span) (dest : Spec) (signBits size : Nat) (at_ : List Nat)
    (pas : List (List Nat)) : Issue :=
  let strong := strongly s a spans
  if s.orderWaits w strong then .wait s
  else finishLoad (s.strongOrder strong) dest signBits size (strong || w.order = 1) at_ pas

/-- Bytes of a scalar access: the size field, or 16 with .a16 (R292). -/
def scalarBytes (w : MemF) : Nat := if w.atom = 2 then 16 else memBytes w

/-- The alignment that the atomicity field asks for (R109). -/
def atomAlign (w : MemF) : Nat := if w.atom = 1 then 8 else if w.atom = 2 then 16 else 1

/-- The registers of a scalar access: d, and d + 1 for 16 bytes (R292). -/
def pairOf (w : MemF) : List Spec := if w.atom = 2 then [w.d, w.d + 1] else [w.d]

/-- .a16 needs ATOM16 (R109, Table 2.6). -/
def State.atom16Ok (s : State) (w : MemF) : Bool := w.atom != 2 || s.accepts featAtom16

/-- The request of a scalar load (R292). -/
def reqLoad (op : Nat) (ok : Bool) (w : MemF) (s : State) : Req :=
  { op := BitVec.ofNat 8 op, ok := ok && s.atom16Ok w, pred := w.pred, srcs := [(w.base, w.eb)], dsts := pairOf w, touches := true }

/-- The one access of a scalar load or store. -/
def scalarSpan (w : MemF) (s : State) : Span := { va := (memAddress w s).toNat, len := scalarBytes w, align := atomAlign w }

/-- A scalar load (R292). -/
def scalarLoad (op : Nat) (ok signed : Bool) (w : MemF) (s : State) : Result :=
  issue (reqLoad op ok w s) (fun s =>
    let n := scalarBytes w
    match reach s (s.coreAccess .read) [scalarSpan w s] with
    | (t, .error f) => .trap t (memTrap pathCore f)
    | (t, .ok pas) => orderedLoad t w (s.coreAccess .read) [scalarSpan w s] w.d (if signed then 8 * n else 0) n [0] pas) s

/-- LD (R292): zero-extended. -/
def execLd (w : MemF) (s : State) : Result := scalarLoad 0x40 (checkLd w) false w s

/-- LDX (R292): sign-extended from bit 8 × size - 1. -/
def execLdx (w : MemF) (s : State) : Result := scalarLoad 0x41 (checkLdx w) true w s

/-! ### Stores -/

/-- Bytes written at physical addresses, in order. -/
def State.putBytes (s : State) (pas : List Nat) (bs : List Byte) : State :=
  (pas.zip bs).foldl (fun s p => s.writeByte p.1 p.2) s

/-- A device write that a held staging range discards is logged under the unit that made it (R56, R366; DEDUCED, log 83). -/
def State.logHeld (s : State) (pas : List Nat) (kind index entry : Nat) : State :=
  if pas.any s.heldAt then s.logError 0x26 kind index entry else s

/-- Fields of the data of an aperture store (Table 15.3). -/
structure Aperture where
  index : Nat
  wait : Nat
  sig : Nat
  rsv : Nat
  waitEn : Bool
  sigEn : Bool
  tagEn : Bool
  tag : Nat
  tmpl : Nat
  deriving DecidableEq, Repr

def apertureOf (x : Nat) : Aperture :=
  { index := fld x 40 24, wait := fld x 32 8, sig := fld x 24 8, rsv := fld x 19 5, waitEn := nbit x 18, sigEn := nbit x 17,
    tagEn := nbit x 16, tag := fld x 10 6, tmpl := fld x 0 10 }

/-- An aligned 8-byte store to the aperture: the copy job it starts on a channel of the core's yard, or its precise fault,
or a full channel (R306, R315). -/
def apertureStore (s : State) (channel x : Nat) : Issue :=
  let a := apertureOf x
  let ctx := s.core.ctx
  if (s.ctxAt ctx).tmpltab.isNone || a.rsv != 0 || (a.wait != 0 && !a.waitEn) || (a.sig != 0 && !a.sigEn) then
    .trap s { code := 0x02 }
  else if (a.waitEn && !(s.semOwned a.wait ctx)) || (a.sigEn && !(s.semOwned a.sig ctx)) then .trap s { code := 0x06 }
  else
    let u := JobUnit.bte s.yardIdx.val channel
    if Config.unitQueue ≤ s.unitLoad u then .wait s
    else
      let table := (s.ctxAt ctx).tmpltab.getD 0
      .retire (s.newJob (.copy table a.tmpl a.index) u (if a.waitEn then some a.wait else none)
        (if a.sigEn then some a.sig else none) (if a.tagEn then some a.tag else none) none) {}

/-- A store of `n` bytes of `x` at checked addresses: memory, the queue page or the context page (R43, R88). Of the aligned 8-byte
stores to the aperture only a plain one starts a copy (R306; DEDUCED, log 70). -/
def storeAt (s : State) (plain : Bool) (pas : List Nat) (n x : Nat) : Issue :=
  let pa := pas.headD 0
  let off := pa % 4096
  let s := s.modCore fun c => c.settleAt pas
  match regionOf pa with
  | .queuePage =>
    if 0x800 ≤ off ∧ off < 0x840 then (if plain then apertureStore s ((off - 0x800) / 8) x else .retire s {})
    else if off = 0x18 && (n = 4 || n = 8) then .retire (s.writeTail (pageIndex pa) x) {}
    else .retire s {}
  | .contextPage =>
    if off = 0x38 && n = 8 && x % 2 = 1 then .retire (s.resumeCtx (pageIndex pa)) {} else .retire s {}
  | _ => .retire ((s.logHeld pas 0 s.subj.core.val s.core.entry).putBytes pas (toBytes n x)) {}

/-- A span of a store reaches the aperture with another size or alignment than an aligned 8-byte store: MEMTYPE (R306). -/
def apertureMisuse (s : State) (a : Access) (spans : List Span) : Option Nat :=
  least ((spans.filter fun x => x.len != 8 || x.va % 8 != 0).flatMap fun x => (piecesOf x.va x.len).filterMap fun p =>
    match (translate s a p.1).2 with
    | .ok (pa, _) => if regionOf pa = .queuePage ∧ 0x800 < pa % 4096 + p.2 ∧ pa % 4096 < 0x840 then some p.1 else none
    | .error _ => none)

/-- The checks of a store's accesses, MEMTYPE of the aperture before MISALIGNED (R97, R306). -/
def reachStore (s : State) (a : Access) (spans : List Span) : State × Except (BitVec 8 × Nat) (List (List Nat)) :=
  match reach s { a with probe := true } spans with
  | (s', res) =>
    match apertureMisuse s' a spans, res with
    | none, .ok _ => reach s' a spans
    | none, .error f => (s', .error f)
    | some va, .ok _ => (s', .error (codeMemtype, va))
    | some va, .error f => (s', .error (if (if a.lanes then va ≤ f.2 else f.1 = codeMisaligned) then (codeMemtype, va) else f))

/-- The value of d, or of d and d + 1 together, as a store reads it. -/
def storeValue (w : MemF) (s : State) : Nat :=
  (s.srcS w.d).toNat + (if w.atom = 2 then 2 ^ 64 * (s.srcS (w.d + 1)).toNat else 0)

/-- The request of a scalar store (R292). -/
def reqStore (w : MemF) (s : State) : Req :=
  { op := 0x42, ok := checkSt w && s.atom16Ok w, pred := w.pred, srcs := (w.base, w.eb) :: (pairOf w).map fun r => (r, false),
    touches := true }

/-- An M word with neither order nor atomicity (R105, R109). -/
def plainAccess (w : MemF) : Bool := w.order = 0 && w.atom = 0

/-- ST (R292): the low bytes of S[d] are written; an aperture store starts a copy (R306). -/
def execSt (w : MemF) (s : State) : Result :=
  issue (reqStore w s) (fun s =>
    match reachStore s (s.coreAccess .write) [scalarSpan w s] with
    | (t, .error f) => .trap t (memTrap pathCore f)
    | (t, .ok pas) =>
      let strong := strongly t (s.coreAccess .write) [scalarSpan w s]
      if t.orderWaits w strong then .wait t
      else (storeAt ((t.order w).strongOrder strong) (plainAccess w) pas.flatten (scalarBytes w) (storeValue w s)).performed strong) s

/-- PREF (R292): no effect that a program can see, and no fault after the decoding checks, so that an empty base is waited for
whatever its e-bit (DEDUCED, log 70). -/
def execPref (w : MemF) (s : State) : Result :=
  issue { op := 0x43, ok := checkPref w, pred := w.pred, srcs := [(w.base, false)] } (fun s => .retire s {}) s

/-! ### Vector accesses (R293, R294) -/

/-- The active lanes of a vector access at width `w`. -/
def lanesActive (s : State) (pred : BitVec 4) (w : Nat) : List Nat := (List.range (1024 / w)).filter (s.core.laneActive pred w)

/-- Width of the elements of a VLD or VST (R234). -/
def vmemWidth (w : MemF) : Nat := 8 * memBytes w

/-- The spans of VLD and VST: one per active lane, after one of no length that carries the alignment of the whole (R293). -/
def vmemSpans (w : MemF) (s : State) : List Span :=
  let va := memAddress w s
  { va := va.toNat, len := 0, align := atomAlign w } ::
    (lanesActive s w.pred (vmemWidth w)).map fun i => { va := (va + BitVec.ofNat 64 (i * memBytes w)).toNat, len := memBytes w }

/-- VLD (R293): 128 bytes into the active lanes. -/
def execVld (w : MemF) (s : State) : Result :=
  issue { op := 0x44, ok := checkVld w && s.atom16Ok w, pred := w.pred, perLane := true, srcs := [(w.base, w.eb)], dsts := [w.d],
          touches := true }
    (fun s =>
      match reach s (s.coreAccess .read) (vmemSpans w s) with
      | (t, .error f) => .trap t (memTrap pathCore f)
      | (t, .ok pas) =>
        orderedLoad t w (s.coreAccess .read) (vmemSpans w s) w.d 0 (memBytes w)
          ((lanesActive s w.pred (vmemWidth w)).map (· * memBytes w)) (pas.drop 1)) s

/-- Elements stored in ascending lane order (R98, R293, R294), from `s₀` on. A lane of the aperture that faults or waits (R306) keeps
every lane from its access. -/
def storeLanes (s₀ s : State) (n : Nat) : List (List Nat × Nat) → Issue
  | [] => .retire s {}
  | (pas, x) :: rest =>
    match storeAt s true pas n x with
    | .retire s _ => storeLanes s₀ s n rest
    | .trap _ t => .trap s₀ t
    | _ => .wait s₀

/-- VST (R293): the active lanes, in ascending order. -/
def execVst (w : MemF) (s : State) : Result :=
  issue { op := 0x45, ok := checkVst w && s.atom16Ok w, pred := w.pred, perLane := true, srcs := [(w.base, w.eb), (w.d, false)],
          touches := true }
    (fun s =>
      match reachStore s (s.coreAccess .write) (vmemSpans w s) with
      | (t, .error f) => .trap t (memTrap pathCore f)
      | (t, .ok pas) =>
        let v := (s.srcV w.d).toNat
        let strong := strongly t (s.coreAccess .write) (vmemSpans w s)
        if t.orderWaits w strong then .wait t
        else
          (storeLanes t ((t.order w).strongOrder strong) (memBytes w)
            ((pas.drop 1).zip ((lanesActive s w.pred (vmemWidth w)).map fun i => lane (vmemWidth w) v i))).performed strong) s

/-- The element address of lane i of VLDS, VGATH and VSCAT, modulo 2^64 (R294). -/
def strideAddr (x : A3) (s : State) (i : Nat) : Nat := wrap 64 ((s.srcS x.a).toNat + i * sgn (s.srcS x.b))

def indexAddr (x : A3) (s : State) (i : Nat) : Nat :=
  let w := elemBits x.fn.toNat
  ((s.srcS x.a).toNat + lane w (s.srcV x.b).toNat i * (w / 8)) % 2 ^ 64

/-- The spans of the active lanes under an address function. -/
def laneSpans (x : A3) (s : State) (addr : Nat → Nat) : List Span :=
  (lanesActive s x.pred (elemBits x.fn.toNat)).map fun i => { va := addr i, len := elemBits x.fn.toNat / 8 }

/-- A strided or indexed vector load (R294). -/
def laneLoad (op : Nat) (ok : Bool) (addr : State → Nat → Nat) (x : A3) (s : State) : Result :=
  issue { op := BitVec.ofNat 8 op, ok := ok, pred := x.pred, perLane := true, srcs := [(x.a, x.ea), (x.b, x.eb)], dsts := [x.d],
          touches := true }
    (fun s =>
      let n := elemBits x.fn.toNat / 8
      let a := { s.coreAccess .read with lanes := true }
      match reach s a (laneSpans x s (addr s)) with
      | (t, .error f) => .trap t (memTrap pathCore f)
      | (t, .ok pas) =>
        let strong := strongly t a (laneSpans x s (addr s))
        if strong && t.drainWaits then .wait t
        else finishLoad (t.strongOrder strong) x.d 0 n strong ((lanesActive s x.pred (8 * n)).map (· * n)) pas) s

/-- VLDS (R294): lane i from S[a] + i × s(S[b]). -/
def execVlds (x : A3) (s : State) : Result := laneLoad 0x46 (checkVlds x) (fun s => strideAddr x s) x s

/-- VGATH (R294): lane i from S[a] + u(B[i]) × w/8. -/
def execVgath (x : A3) (s : State) : Result := laneLoad 0x47 (checkVgath x) (fun s => indexAddr x s) x s

/-- VSCAT (R294): active lanes stored in ascending order; every lane is checked before any is performed. -/
def execVscat (x : A3) (s : State) : Result :=
  issue { op := 0x48, ok := checkVscat x, pred := x.pred, perLane := true, srcs := [(x.a, x.ea), (x.b, x.eb), (x.d, false)],
          touches := true }
    (fun s =>
      let w := elemBits x.fn.toNat
      let a := { s.coreAccess .write with lanes := true }
      match reachStore s a (laneSpans x s (indexAddr x s)) with
      | (t, .error f) => .trap t (memTrap pathCore f)
      | (t, .ok pas) =>
        let strong := strongly t a (laneSpans x s (indexAddr x s))
        if strong && t.drainWaits then .wait t
        else
          (storeLanes t (t.strongOrder strong) (w / 8)
            (pas.zip ((lanesActive s x.pred w).map fun i => lane w (s.srcV x.d).toNat i))).performed strong) s

/-! ### Atomics (R295, R296) -/

/-- Bytes of an atomic's operand (R295). -/
def atomicBytes (w : MemF) : Nat := if w.size = 2 then 4 else if w.atom = 2 then 16 else 8

/-- A register operand of an atomic: one register's low bytes, or a pair for 16 bytes. -/
def atomicOperand (w : MemF) (s : State) (r : Spec) : Nat :=
  if atomicBytes w = 16 then (s.srcS r).toNat + 2 ^ 64 * (s.srcS (r + 1)).toNat else (s.srcS r).toNat % 2 ^ (8 * atomicBytes w)

/-- The register of ACAS's new value: d + 1, or d + 2 for 16 bytes (R295). -/
def casNew (w : MemF) : Spec := if w.atom = 2 then w.d + 2 else w.d + 1

/-- The registers that hold the old value (DEDUCED, log 22). -/
def atomicResult (w : MemF) (old : Nat) : List Write :=
  if atomicBytes w = 16 then [.s (specIdx w.d) (BitVec.ofNat 64 old), .s (specIdx w.d + 1) (BitVec.ofNat 64 (old / 2 ^ 64))]
  else [.s (specIdx w.d) (BitVec.ofNat 64 old)]

/-- The request of an atomic; `cas` reads the new value's registers too. -/
def reqAtomic (op : Nat) (ok cas : Bool) (w : MemF) (s : State) : Req :=
  let two := fun (r : Spec) => if w.atom = 2 then [r, r + 1] else [r]
  { op := BitVec.ofNat 8 op, ok := ok && s.atom16Ok w, pred := w.pred,
    srcs := (w.base, w.eb) :: (two w.d ++ if cas then two (casNew w) else []).map fun r => (r, false), dsts := two w.d,
    touches := true }

/-- The one access of an atomic. -/
def atomicSpan (w : MemF) (s : State) : Span := { va := (memAddress w s).toNat, len := atomicBytes w, align := atomicBytes w }

/-- An atomic at the coherence point (R114, R295): the new value from the bits, the old value, the operand and ACAS's new
value; it reads and writes in one step, and S[d] receives the old value. It enters both queues, so the loads before it have been
performed (R103). -/
def atomicOp (op : Nat) (ok cas : Bool) (f : Nat → Nat → Nat → Nat → Nat) (w : MemF) (s : State) : Result :=
  issue (reqAtomic op ok cas w s) (fun s =>
    let n := atomicBytes w
    match reach s (s.coreAccess .atomic) [atomicSpan w s] with
    | (t, .error e) => .trap t (memTrap pathCore e)
    | (t, .ok pas) =>
      let at_ := pas.flatten
      let strong := strongly t (s.coreAccess .atomic) [atomicSpan w s]
      if t.orderWaits w strong then .wait t
      else
        let t := (((t.order w).strongOrder strong).ordinaryRead at_).modCore Core.settle
        let old := fromBytes (at_.map t.readByte)
        let new := f (8 * n) old (atomicOperand w s w.d) (atomicOperand w s (casNew w))
        (Issue.retire ((t.logHeld at_ 0 t.subj.core.val t.core.entry).putBytes at_ (toBytes n new))
          { writes := atomicResult w old, cls := accessClass t.yardIdx.val at_, notBefore := t.served }).performed strong) s

/-- The new value of AFAMAX (R296). -/
def famax (m v : Nat) : Nat :=
  let a := fp32.decode m
  let b := fp32.decode v
  if a.isNan || b.isNan then fp32.nan else if a.lt true b.abs then v % 2 ^ 31 else m

/-- AADD (R295). -/
def execAadd (w : MemF) (s : State) : Result := atomicOp 0x49 (checkAadd w) false (fun b m v _ => (m + v) % 2 ^ b) w s
/-- AMIN (R295): signed lesser. -/
def execAmin (w : MemF) (s : State) : Result :=
  atomicOp 0x4a (checkAmin w) false (fun b m v _ => if sext b m ≤ sext b v then m else v) w s
/-- AMAX (R295): signed greater. -/
def execAmax (w : MemF) (s : State) : Result :=
  atomicOp 0x4b (checkAmax w) false (fun b m v _ => if sext b m ≤ sext b v then v else m) w s
/-- AAND (R295). -/
def execAand (w : MemF) (s : State) : Result := atomicOp 0x4c (checkAand w) false (fun _ m v _ => m &&& v) w s
/-- AOR (R295). -/
def execAor (w : MemF) (s : State) : Result := atomicOp 0x4d (checkAor w) false (fun _ m v _ => m ||| v) w s
/-- AXOR (R295). -/
def execAxor (w : MemF) (s : State) : Result := atomicOp 0x4e (checkAxor w) false (fun _ m v _ => m ^^^ v) w s
/-- AXCHG (R295). -/
def execAxchg (w : MemF) (s : State) : Result := atomicOp 0x4f (checkAxchg w) false (fun _ _ v _ => v) w s
/-- ACAS (R295): the new value where the location holds the compared one, else the old value again. -/
def execAcas (w : MemF) (s : State) : Result := atomicOp 0x50 (checkAcas w) true (fun _ m v n => if m = v then n else m) w s
/-- AFADD (R295): AddFP32, no flag. -/
def execAfadd (w : MemF) (s : State) : Result := atomicOp 0x51 (checkAfadd w) false (fun _ m v _ => (fp32.add m v).1) w s
/-- AFAMAX (R296): no flag. -/
def execAfamax (w : MemF) (s : State) : Result := atomicOp 0x52 (checkAfamax w) false (fun _ m v _ => famax m v) w s

/-! ### Ordering instructions (R297) -/

/-- A fence at a scope waits while a refresh keeps a waiting write from its array (R13, R104). -/
def State.fenceWaits (s : State) (scope : Nat) : Bool := s.drainWaits && decide (4 ≤ scope)

/-- FENCE (R107): every earlier access is performed at the scope before any later one; at memory scope and beyond the
waiting writes enter the arrays. -/
def execFence (w : SysF) (s : State) : Result :=
  issue { op := 0x53, ok := checkFence w, pred := w.pred } (fun s =>
    let scope := fld w.ctl.toNat 0 4
    if s.fenceWaits scope then .wait s else .retire (s.releaseAt scope) {}) s

/-- MARK (R103): the accesses before it have been performed at yard scope. -/
def execMark (w : SysF) (s : State) : Result :=
  issue { op := 0x55, ok := checkMark w, pred := w.pred } (fun s => .retire (s.releaseAt 1) {}) s

end Sys2Proof.Machine
end

