-- ==== Sys2Proof/Machine/Stream.lean ====
section
/-! DEFINITION. The elements of streams: their pattern and addresses (R311), and the transfer unit that reads and writes them on
the STREAM path (R173). -/

namespace Sys2Proof.Machine

/-- The pattern of a stream: offset in bytes of element `i`, innermost dimension fastest (R311). -/
def patternOffset (fmt : Nat) : List Nat → List Int → Nat → Int
  | n :: ns, d :: ds, i =>
    let j := i % n
    (if fmt = 13 then (j / 2 : Nat) else j) * d + patternOuter ns ds (i / n)
  | _, _, _ => 0
where
  /-- The outer dimensions. -/
  patternOuter : List Nat → List Int → Nat → Int
    | [n], [d], i => (i : Nat) * d + 0 * (n : Int)
    | n :: ns, d :: ds, i => (i % n : Nat) * d + patternOuter ns ds (i / n)
    | _, _, _ => 0

/-- Address of element `i` of a stream, modulo 2^64 (R311). -/
def Stream.elemAddr (b : Stream) (i : Nat) : Nat := wrap 64 (b.base.toNat + patternOffset b.fmt b.counts b.strides i)

/-- Nibble of its byte that holds an E2M1 element (R215, R311): the one of its innermost index. -/
def Stream.nibble (b : Stream) (i : Nat) : Nat := i % b.counts.headD 1 % 2

/-- Bytes that one element takes part in. -/
def elemBytes (fmt : Nat) : Nat := max 1 (elemBits fmt / 8)

/-- An access of the core's stream transfer unit (Table 6.2). -/
def State.streamAccess (s : State) (need : Need) : Access :=
  { ctx := s.core.ctx, path := pathStream, need := need, cache := .yard s.yardIdx }

/-- One element's checked address, or the fault its transfer meets. -/
def State.elemAt (s : State) (a : Access) (b : Stream) (i : Nat) : State × Except (BitVec 8 × Nat) (List Nat) :=
  match reach s a [{ va := b.elemAddr i, len := elemBytes b.fmt }] with
  | (s, .error f) => (s, .error (f.1, b.elemAddr i))
  | (s, .ok pas) => (s, .ok pas.flatten)

/-- Elements `i`, `i + 1`, … of which there are `n` read in order, or the first fault. Past the pattern's end, where the
manual gives an element no value, each is a free value (DESIGN CHOICE, log 10). -/
def State.readElems (s : State) (a : Access) (b : Stream) (i : Nat) : Nat → State × Except (BitVec 8 × Nat) (List Nat)
  | 0 => (s, .ok [])
  | n + 1 =>
    let rest := fun (s : State) (x : Nat) =>
      match s.readElems a b (i + 1) n with
      | (s, .error f) => (s, .error f)
      | (s, .ok xs) => (s, .ok (x :: xs))
    if b.total ≤ i then rest { s with fresh := s.fresh + 1 } (Config.freeElement s.fresh)
    else
      match s.elemAt a b i with
      | (s, .error f) => (s, .error f)
      | (s, .ok pas) =>
        let x := fromBytes (pas.map s.readByte)
        rest s (if b.fmt = 13 then fld x (4 * b.nibble i) 4 else x)

/-- Elements written in order from element `i`; the first fault ends it. -/
def State.writeElems (s : State) (a : Access) (b : Stream) (i : Nat) : List Nat → State × Option (BitVec 8 × Nat)
  | [] => (s, none)
  | x :: xs =>
    if b.total ≤ i then (s, none)
    else
      match s.elemAt a b i with
      | (s, .error f) => (s, some f)
      | (s, .ok pas) =>
        let old := fromBytes (pas.map s.readByte)
        let new := if b.fmt = 13 then (if b.nibble i = 0 then old / 16 * 16 + x % 16 else old % 16 + 16 * (x % 16)) else x
        ((s.logHeld pas 0 s.subj.core.val s.core.entry).putBytes pas (toBytes (elemBytes b.fmt) new)).writeElems a b (i + 1) xs

/-- The binding of q register `i` of the core changed. -/
def State.setStream (s : State) (i : Nat) (b : Stream) : State := s.modCore fun c => { c with q := vset c.q i (some b) }

/-- The vectors that wait in a write stream are performed in order, up to a fault of the transfer unit (R111, R173, R311). -/
def State.performVectors (s : State) (a : Access) (b : Stream) : List VReg → State × Stream
  | [] => (s, { b with buf := [] })
  | x :: rest =>
    let w := elemBits b.fmt
    match s.writeElems a b b.pos (lanesOf w (1024 / w) x.toNat) with
    | (s, some f) => (s, { b with buf := x :: rest, fault := some (f.1, BitVec.ofNat 64 f.2) })
    | (s, none) => s.performVectors a { b with pos := b.pos + 1024 / w } rest

/-- Every element appended to a write stream of the core is performed (R111, R173). -/
def State.performStreams (s : State) : State :=
  (List.range 16).foldl (fun s i =>
    match s.core.getQ i with
    | some b =>
      if b.isWrite && b.fault.isNone && !b.buf.isEmpty then
        match s.performVectors (s.streamAccess .write) b b.buf with
        | (s, b) => s.setStream i b
      else s
    | none => s) s

/-- Prefetched elements of read streams are discarded; they are read again from the position (R111, R173). -/
def Core.dropPrefetch (c : Core) : Core :=
  { c with q := c.q.map fun b => b.map fun b => if b.isWrite then b else { b with buf := [] } }

end Sys2Proof.Machine
end

