-- ==== Sys2Proof/Machine/Sched.lean ====
section
/-! DEFINITION. Dispatch: keys (R61, R62), code object headers (R241, R242), continuation records (R58-R60), saves and
resumes (R181-R183), and what a core takes up when it pops a record (R63, R161). -/

namespace Sys2Proof.Machine

/-! ### Keys (R61, R62) -/

/-- The effective priority of an entry: 255 after a continued miss, its PRIORITY for a deadline entry, else aged (R62,
R71). -/
def Entry.effective (e : Entry) : Nat :=
  if e.continued then 255 else if e.dl then e.prio else min 255 (e.prio + e.wait / 2600000)

/-- The dispatch key of an item of an entry: deadline, 255 minus effective priority, ready beat, entry ID, and the record
index that settles what is left (R58, R61). -/
def State.keyOf (s : State) (entry ready index : Nat) : List Nat :=
  match s.entry? entry with
  | some e => [if e.dl then e.deadline else 2 ^ 64, 255 - e.effective, ready, entry, index]
  | none => [2 ^ 64, 255, ready, entry, index]

/-- A key precedes another, field by field (R61). -/
def keyLess : List Nat → List Nat → Bool
  | a :: as, b :: bs => decide (a < b) || (a == b && keyLess as bs)
  | _, _ => false

/-- A key precedes another in the fields of R61 alone: an item pre-empts, or is yielded to, only then (R64, R264; DEDUCED, log 64). -/
def keyPrecedes (a b : List Nat) : Bool := keyLess (a.take 4) (b.take 4)

/-! ### Code object headers (R241, R242) -/

/-- What a header declares. -/
structure Header where
  lattab : W64
  ckptint : Nat
  deriving DecidableEq, Repr

/-- The header in 64 bytes, or none where R242 calls it malformed. -/
def parseHeader (pmaxCores : Nat) (bs : List Byte) : Option Header :=
  let lat := numAt bs 8 8
  let ckpt := numAt bs 0x10 4
  let len := numAt bs 0x14 4
  let bucket := numAt bs 6 1
  if numAt bs 0 4 = 0x4B594345 ∧ numAt bs 4 2 = 1 ∧ numAt bs 7 1 = 0 ∧ numAt bs 0x18 40 = 0
      ∧ (bucket = 0 ∨ (8 ≤ bucket ∧ bucket ≤ 13))
      ∧ fld lat 8 4 = 0 ∧ fld lat 36 4 = 0 ∧ fld lat 40 4 = 0 ∧ fld lat 56 4 = 0 ∧ fld lat 60 4 = 0
      ∧ 1 ≤ ckpt ∧ ckpt ≤ 1048447 ∧ len ≠ 0 ∧ len % 8 = 0 ∧ ckpt + 128 ≤ pmaxCores
  then some { lattab := BitVec.ofNat 64 lat, ckptint := ckpt } else none

/-- The header at CODE - 64, read with the permissions of a fetch: the header, none where it is malformed, or the read's
own fault (R241). -/
def readHeader (s : State) (ctx : Nat) (cache : CacheId) (code : W64) : State × Except (BitVec 8 × Nat) (Option Header) :=
  match reach s { ctx := ctx, path := pathCore, need := .fetch, cache := cache } [{ va := (code - 64).toNat, len := 64 }] with
  | (s, .error f) => (s, .error f)
  | (s, .ok pas) => (s.ordinaryRead pas.flatten, .ok (parseHeader s.gov.pmaxCores (pas.flatten.map s.readByte)))

/-! ### Records -/

/-- Record `i` of a launch (R58). -/
def LaunchGen.record (l : LaunchGen) (i num : Nat) : ContRec :=
  { num := num, code := l.body.code, frame := l.body.frame + BitVec.ofNat 64 (i * l.body.stride), joinblk := 0,
    penset := l.body.penset, pencnt := l.body.pencnt, entry := l.entry, ctx := l.ctx, launch := l.id, index := i,
    ready := l.ready }

/-- A record enters the dispatch queues (R60). -/
def State.enqueue (s : State) (r : ContRec) : State :=
  { s with ready := s.ready ++ [{ r with num := s.fresh }], fresh := s.fresh + 1 }

/-- The dispatch queues are full (R60). -/
def State.queuesFull (s : State) : Bool := decide (Config.dispatchCapacity ≤ s.ready.length)

/-- Pen indices named by a PENSET: its first PENCNT bytes (Table 4.1). -/
def pensOf (penset : BitVec 32) (pencnt : Nat) : List Nat := (List.range pencnt).map fun i => fld penset.toNat (8 * i) 8

/-! ### Saves (R181-R183, R264) -/

/-- A live-range table (Table 9.9). -/
structure LiveTable where
  smask : Nat
  vmask : Nat
  kmask : Nat
  qmask : Nat
  ranges : List (Nat × Nat)
  deriving DecidableEq, Repr

/-- The table in 256 bytes, or none where R182 turns the save into a forced one. -/
def parseTable (bs : List Byte) : Option LiveTable :=
  let n := numAt bs 0x0D 1
  let rs := (List.range n).map fun j => (numAt bs (0x20 + 16 * j) 8, numAt bs (0x28 + 16 * j) 4, numAt bs (0x2C + 16 * j) 4)
  if n ≤ 14 ∧ numAt bs 0x10 16 = 0
      ∧ rs.all (fun r => decide (r.1 % 64 = 0 ∧ 64 ≤ r.2.1 ∧ r.2.1 ≤ 2 ^ 20 ∧ r.2.1 % 64 = 0 ∧ r.2.2 = 0))
  then some { smask := numAt bs 0 8, vmask := numAt bs 8 4, kmask := numAt bs 0x0C 1, qmask := numAt bs 0x0E 2,
              ranges := rs.map fun r => (r.1, r.2.1) }
  else none

/-- Bytes of a range of the core's context, when every one of them can be read. -/
def State.fetchRange (s : State) (va n : Nat) : State × Option (List Byte) :=
  match reach s (s.coreAccess .read) [{ va := va, len := n }] with
  | (s, .ok pas) => (s.ordinaryRead pas.flatten, some (pas.flatten.map s.readByte))
  | (s, .error _) => (s, none)

/-- The table at an address, 64-byte aligned in the continuation's context (R181). -/
def State.readTable (s : State) (at_ : W64) : State × Option LiveTable :=
  if at_.toNat % 64 ≠ 0 then (s, none)
  else
    match s.fetchRange at_.toNat 256 with
    | (s, some bs) => (s, parseTable bs)
    | (s, none) => (s, none)

/-- Bytes of a range that lies in the loft, when every one of them can be read. -/
def State.fetchLoft (s : State) (va n : Nat) : State × Option (List Byte) :=
  match reach s (s.coreAccess .read) [{ va := va, len := n }] with
  | (s, .ok pas) => (s, if pas.flatten.all fun pa => regionOf pa == .loft then some (pas.flatten.map s.readByte) else none)
  | (s, .error _) => (s, none)

/-- The bytes of a table's loft ranges; none when one cannot be read or is out of the loft's range (R182). -/
def State.readRanges (s : State) : List (Nat × Nat) → State × Option (List (W64 × List Byte))
  | [] => (s, some [])
  | (va, n) :: rest =>
    match s.fetchLoft va n with
    | (s, none) => (s, none)
    | (s, some bs) =>
      match s.readRanges rest with
      | (s, none) => (s, none)
      | (s, some xs) => (s, some ((BitVec.ofNat 64 va, bs) :: xs))

/-- The registers that a table keeps; the others read zero and full, streams not live are unbound (R183). -/
def Core.keep (c : Core) (t : LiveTable) : Core :=
  { c with
    s := Vector.ofFn fun i => if nbit t.smask i.val then c.s[i] else 0,
    v := Vector.ofFn fun i => if nbit t.vmask i.val then c.v[i] else 0,
    k := Vector.ofFn fun i => if nbit t.kmask i.val then c.k[i] else 0,
    q := Vector.ofFn fun i => if nbit t.qmask i.val then c.q[i] else none,
    sFull := c.sFull ||| ~~~(BitVec.ofNat 64 t.smask), vFull := c.vFull ||| ~~~(BitVec.ofNat 32 t.vmask) }

/-- The continuation of the core is saved with some state and ranges, and its record re-enters the queues under a ready
beat; the core is free (R64, R182). Its stores are performed at package scope, and the elements that it has appended to streams,
before the state is taken (R108, R173, R313; DEDUCED, log 71). Where the entry has ended, nothing is saved (R77). -/
def State.yieldCore (s : State) (keep : Core → Core) (ranges : List (W64 × List Byte)) (ready : Nat) : State :=
  let s := s.performStreams.drainWrites
  let c := s.core
  if s.hasEnded c.entry then ((s.vacate s.subj.core.val).stopItems c.entry) else
  let kept := keep c
  let r : ContRec :=
    { num := 0, code := 0, frame := 0, joinblk := c.joinblk, penset := c.penset, pencnt := c.pencnt, entry := c.entry,
      ctx := c.ctx, launch := c.launch, index := c.index, ready := ready,
      saved := some { kept.dropPrefetch with take := none, intTake := none, preemptReq := false, resumed := c.resumed || kept.pn },
      ranges := ranges }
  ((s.dropTake? c.take).dropTake? c.intTake).enqueue r |>.modCore fun c => { c.release with deferred := [] }

/-- A forced save: the full state, with the loft ranges of the last table where it can be read (R182). What the core has appended to
streams is performed before the ranges are read (R313). -/
def State.forcedSave (s : State) (ready : Nat) : State :=
  if !s.core.ckpted then s.yieldCore id [] ready
  else
    match s.performStreams.readTable s.core.ckpttab with
    | (s, none) => s.yieldCore id [] ready
    | (s, some t) =>
      match s.readRanges t.ranges with
      | (s, none) => s.yieldCore id [] ready
      | (s, some xs) => s.yieldCore id xs ready

/-- A save at a CKPT, or at a YIELD that names a table: the live state, or a forced save where the table cannot be used
(R182, R264). -/
def State.tableSave (s : State) (at_ : W64) (ready : Nat) : State :=
  match s.performStreams.readTable at_ with
  | (s, none) => s.forcedSave ready
  | (s, some t) =>
    match s.readRanges t.ranges with
    | (s, none) => s.forcedSave ready
    | (s, some xs) => s.yieldCore (fun c => c.keep t) xs ready

/-! ### Popping (R63, R73, R161, R183) -/

/-- Class wattage of the admitted deadline entries that have not started, in milliwatts: while heat lowers the envelope, best-effort
items are withheld before them (R78). -/
def State.awaitedMw (s : State) : Nat :=
  sumMw ((s.entries.filter fun e => e.dl && !e.started && e.status.isNone).map fun e => classWatts e.powerClass * 1000)

/-- What the envelope still allows an entry in the current window, in milliwatts (R73, R78). -/
def State.allowance (s : State) (e : Entry) : Nat :=
  min (s.gov.board.rampUp * 1000 - s.gov.risenMw)
    (s.gov.levelMw - s.modelledNow - if e.dl || decide (10 * s.gov.board.peak ≤ s.gov.budgetDw) then 0 else s.awaitedMw)

/-- The rise of an entry has been granted: by ramp slots where its class exceeds one window's rise, else in this window (R73, R74). -/
def State.riseGranted (s : State) (e : Entry) : Bool :=
  !e.rampSlots.isEmpty && (decide (s.gov.board.rampUp < classWatts e.powerClass) || e.rampSlots.contains s.gov.windowAt)

/-- What the released part of an entry's launch adds to modelled power as it starts: the shares of the released pens (R74), and no more than
the class less the ramp ballast that it replaces (R76). -/
def State.startMw (s : State) (e : Entry) : Nat :=
  let w := classWatts e.powerClass * 1000
  let pens := match s.launches.find? (·.entry = e.id) with
    | some l => (pensOf l.body.penset l.body.pencnt).eraseDups.length
    | none => 0
  if e.pinned then w - sumMw ((List.range 8).map fun y => s.rampMw y e)
  else if e.released || pens = 0 then w else w * e.pensReleased.length / pens

/-- An item of an entry may be dispatched (R63, R68, R73, R76, R77): the first one when the class wattage fits what the
envelope allows, or the governor has granted its rise and the level allows it; a later one unless the entry is not pinned and drew more
than its class at the last sample. -/
def State.powerFits (s : State) (entry : Nat) : Bool :=
  match s.entry? entry with
  | none => true
  | some e =>
    let level := decide (s.modelledNow + s.startMw e ≤ s.gov.levelMw)
    if e.started then e.pinned || decide (e.drawnMw ≤ classWatts e.powerClass * 1000)
    else if e.pinned then level && e.rampSlots.all fun b => decide (b ≤ s.beat)
    else if (e.released || !e.pensReleased.isEmpty) && s.riseGranted e then level
    else decide (classWatts e.powerClass * 1000 ≤ s.allowance e)

/-- The governor lets a core take a continuation: the launch is released, or the core is a member of a released pen that the
continuation names (R63, R74). -/
def State.mayTake (s : State) (core entry : Nat) (penset : BitVec 32) (pencnt : Nat) : Bool :=
  match s.entry? entry with
  | none => true
  | some e =>
    e.status.isNone &&
      if pencnt = 0 then e.released
      else (pensOf penset pencnt).any fun p =>
        (e.released || e.pensReleased.contains p) && (vget {} s.pens p).bitmap.getLsbD core

/-- An item that a core could pop: a record, or the next record of a launch. -/
inductive PopItem where
  | record (r : ContRec)
  | launch (l : LaunchGen)
  deriving DecidableEq, Repr

def PopItem.key (s : State) : PopItem → List Nat
  | .record r => s.keyOf r.entry r.ready r.index
  | .launch l => s.keyOf l.entry l.ready l.next

/-- A core may take an item, power included (R63). -/
def State.mayPop (s : State) (core : Nat) : PopItem → Bool
  | .record r => r.gate.isNone && s.mayTake core r.entry r.penset r.pencnt && s.powerFits r.entry
  | .launch l => decide (l.next < l.body.count) && s.mayTake core l.entry l.body.penset l.body.pencnt && s.powerFits l.entry

/-- The items of the dispatch queues. -/
def State.items (s : State) : List PopItem := s.ready.map PopItem.record ++ s.launches.map PopItem.launch

/-- The first continuation in key order that a core may take (R63). -/
def State.popChoice (s : State) (core : Nat) : Option PopItem :=
  argMin? (fun a b => keyLess (a.key s) (b.key s)) (s.items.filter (s.mayPop core))

/-- An item of an entry is dispatched: its wait restarts, and the first one starts the entry; a rise that no slot granted
is counted in the window (R57, R62, R73). -/
def State.noteDispatch (s : State) (entry : Nat) : State :=
  match s.entry? entry with
  | none => s
  | some e =>
    let rise := if e.started || e.pinned || s.riseGranted e then 0 else classWatts e.powerClass * 1000
    { s with gov := { s.gov with risenMw := s.gov.risenMw + rise } }.modEntry entry fun e =>
      { e with started := true, wait := 0, dispatchedAt := some s.beat }

/-- The control state of a fresh continuation on a core (R161). -/
def freshCore (r : ContRec) (h : Header) (cont beat : Nat) (budgetTrap : Bool) : Core :=
  { running := true, cont := cont, ctx := r.ctx, s := (Vector.replicate 64 0).set 1 r.frame, f0 := r.code, f1 := r.code + 8,
    f2 := r.code + 16, lattab := h.lattab, ckptInt := h.ckptint, ckptAt := beat, penset := r.penset, pencnt := r.pencnt,
    entry := r.entry, joinblk := r.joinblk, launch := r.launch, readyAt := r.ready, index := r.index, budgetTrap := budgetTrap }

/-- Saved loft ranges written back before the first instruction issues (R183). -/
def State.restoreRanges (s : State) : List (W64 × List Byte) → State
  | [] => s
  | (va, bs) :: rest =>
    match reach s (s.coreAccess .write) [{ va := va.toNat, len := bs.length }] with
    | (s, .ok pas) => (s.putBytes pas.flatten bs).restoreRanges rest
    | (s, .error _) => s.restoreRanges rest

/-- A record taken up by the core whose turn it is (R63, R161, R183). A header that has become malformed or cannot be read
stops the continuation (R242). -/
def State.takeUp (s : State) (r : ContRec) : State :=
  let s := s.noteDispatch r.entry
  match r.saved with
  | some c =>
    let s := (s.setCore { c with running := true, ckptAt := s.beat }).restoreRanges r.ranges
    s.tendInterrupt
  | none =>
    let trapNew := match s.entry? r.entry with
      | some e => e.trapNew
      | none => false
    let cont := s.fresh
    let s := { s with fresh := s.fresh + 1 }
    match readHeader s r.ctx (.yard s.yardIdx) r.code with
    | (s, .ok (some h)) => s.setCore (freshCore r h cont s.beat trapNew)
    | (s, .ok none) => (s.setCore (freshCore r { lattab := 0, ckptint := 1 } cont s.beat false)).stopContinuation 0x02
    | (s, .error f) => (s.setCore (freshCore r { lattab := 0, ckptint := 1 } cont s.beat false)).stopContinuation f.1

/-- The launch with its next record generated (R58). -/
def State.advanceLaunch (s : State) (l : LaunchGen) : State :=
  { s with launches := s.launches.map fun x => if x.id = l.id then { x with next := x.next + 1 } else x }

/-- An item leaves the dispatch queues. -/
def State.takeItem (s : State) : PopItem → State × ContRec
  | .record r => ({ s with ready := s.ready.filter (·.num ≠ r.num) }, r)
  | .launch l => ({ s.advanceLaunch l with fresh := s.fresh + 1 }, l.record l.next s.fresh)

/-- Work of firmware or the front end that reads a bank in refresh is put off until the refresh is over (R13). -/
def State.orFirm (t s : State) : State := if t.unserved then { s with firmAt := t.served } else t

/-- CONTINUATION_POP (R63): an idle core pops the first eligible continuation in key order. -/
def execContinuationPop (s : State) : Result :=
  if s.core.running || s.boot.state != 0x0A then .next s
  else
    match s.popChoice s.subj.core.val with
    | none => .next s
    | some x =>
      match s.takeItem x with
      | (t, r) => .next ((t.takeUp r).orFirm s)

/-- FORCED_SAVE (R182): a pre-emption is requested and the interval has passed without a CKPT, so the full state is saved and
the core yields at this boundary, once the last table has been read (R13). -/
def execForcedSave (s : State) : Result :=
  let c := s.core
  let t := s.forcedSave c.readyAt
  if c.running && c.preemptReq && !c.hollow && decide (c.ckptAt + c.ckptInt ≤ s.beat) && !t.unserved then .next t else .next s

/-- The launch's hardware join counts down (R59). -/
def State.countDown (s : State) (entry : Nat) : State := s.modEntry entry fun e => { e with hwJoin := e.hwJoin - 1 }

end Sys2Proof.Machine
end

