-- ==== Sys2Proof/Machine/Sync.lean ====
section
/-! DEFINITION. Semaphores, pen barriers, the stage ring, spawning, copy tags and streams of a core (R298-R305, R311,
R312). -/

namespace Sys2Proof.Machine

/-- The semaphore, pen or stage number in ctl[7:0]. -/
def ctlIndex (w : SysF) : Nat := fld w.ctl.toNat 0 8

/-- A semaphore that is not assigned to the core's context raises PERMISSION precisely (R298). -/
def ownedSem (s : State) (n : Nat) (body : Issue) : Issue :=
  if s.semOwned n s.core.ctx then body else .trap s { code := codePermission }

/-! ### Semaphores (R299) -/

/-- A semw places its take when it first issues, and issues with its grant: when the take stands at the head of the queue and the
counter covers it (R291, R299). -/
def semwTake (n units : Nat) (s : State) : Issue :=
  let r := match s.core.take with
    | some (_, id) => (s, id)
    | none => s.placeTake n units (.core s.subj.core.val)
  let s := r.1.modCore fun c => { c with take := some (n, r.2) }
  if s.servable n r.2 then .retire ((s.serveTake n).modCore fun c => { c with take := none }) {} else .wait s

/-- The request of a semaphore instruction. -/
def reqSem (op : Nat) (ok : Bool) (w : SysF) : Req := { op := BitVec.ofNat 8 op, ok := ok, pred := w.pred }

/-- SEMW (R299, R291): takes c units when the counter covers them and the take stands at the head. -/
def execSemw (w : SysF) (s : State) : Result :=
  let n := ctlIndex w
  waitIssue (reqSem 0x56 (checkSemw w) w) (fun d => d.sem == some n) (fun _ => false) (fun s =>
    ownedSem s n (semwTake n (fld w.imm.toNat 0 16) s)) s

/-- The releases at package scope of a core that are no access: what is before them has been performed (R106, R113). -/
def State.releaseAll (s : State) : State := s.releaseAt 7

/-- SEMS (R299, R113): adds c units as a release at package scope; beyond 0xFFFF it changes nothing and raises
SEM_OVERFLOW. -/
def execSems (w : SysF) (s : State) : Result :=
  issue (reqSem 0x57 (checkSems w) w) (fun s =>
    let n := ctlIndex w
    let units := fld w.imm.toNat 0 16
    ownedSem s n (if 0xFFFF < (s.sem n).count + units then .trap s { code := 0x08 }
      else if s.drainWaits then .wait s else .retire (s.releaseAll.signal n units).1 {})) s

/-- The counter is set, and the takes that the new value satisfies are granted (R299). -/
def State.presetSem (s : State) (n v : Nat) : State := (s.setSem n { s.sem n with count := v }).settleSem n

/-- SEMI (R299). -/
def execSemi (w : SysF) (s : State) : Result :=
  issue (reqSem 0x58 (checkSemi w) w) (fun s =>
    ownedSem s (ctlIndex w) (.retire (s.presetSem (ctlIndex w) (fld w.imm.toNat 0 16)) {})) s

/-- Some job that the continuation issued names semaphore `n` in its wait or signal clause (R299). -/
def State.jobNames (s : State) (n : Nat) : Bool :=
  s.jobs.any fun j => j.cont == s.core.cont && (j.wait == some n || j.sig == some n)

/-- SEMR (R299): waits for the continuation's jobs that name the semaphore, then sets its counter to 0. -/
def execSemr (w : SysF) (s : State) : Result :=
  issue (reqSem 0x59 (checkSemr w) w) (fun s =>
    let n := ctlIndex w
    ownedSem s n (if s.jobNames n then .wait s else .retire (s.presetSem n 0) {})) s

/-! ### Pen barriers (R300) -/

def State.pen (s : State) (p : Nat) : Pen := vget {} s.pens p

def State.setPen (s : State) (p : Nat) (x : Pen) : State := { s with pens := vset s.pens p x }

/-- The core may arrive at a pen: it is among its PENSET, and the pen's bitmap holds the core (R300). -/
def State.inPen (s : State) (p : Nat) : Bool :=
  (pensOf s.core.penset s.core.pencnt).contains p && (s.pen p).bitmap.getLsbD s.subj.core.val

/-- The pen after core `c` has arrived: the bitmap is captured at the first arrival, and the generation completes when
every member has arrived (R300). -/
def Pen.arrive (x : Pen) (c : Nat) : Pen :=
  let all := x.captured.getD x.bitmap
  let arr := x.arr ||| BitVec.ofNat 64 (2 ^ c)
  if arr = all then { x with arr := 0, captured := none, gen := x.gen + 1 } else { x with arr := arr, captured := some all }

/-- PBAR (R300). -/
def execPbar (w : SysF) (s : State) : Result :=
  issue { op := 0x5a, ok := checkPbar w, pred := w.pred } (fun s =>
    let p := ctlIndex w
    let at_ := s.core.f0
    match s.core.pbarGen.find? (fun x => x.1 == at_ && x.2.1 == p) with
    | some x =>
      if (s.pen p).gen = x.2.2 then .wait s
      else .retire (s.modCore fun c => { c with pbarGen := c.pbarGen.filter (· ≠ x) }) {}
    | none =>
      if !s.inPen p then .trap s { code := 0x09 }
      else if (s.pen p).arr.getLsbD s.subj.core.val then .wait s
      else
        let before := s.pen p
        let after := before.arrive s.subj.core.val
        let s := (s.releaseAt 3).setPen p after
        if after.gen = before.gen then .wait (s.modCore fun c => { c with pbarGen := c.pbarGen ++ [(at_, p, before.gen)] })
        else .retire s {}) s

/-! ### Stage ring (R172, R301) -/

def State.stage (s : State) (k : Nat) : Stage := vget {} s.yards[s.yardIdx].stages k

def State.setStage (s : State) (k : Nat) (x : Stage) : State :=
  let y := s.yards[s.yardIdx]
  { s with yards := s.yards.set s.yardIdx { y with stages := vset y.stages k x } }

/-- ACQS (R301): waits for the stage, then sets its context. -/
def execAcqs (w : SysF) (s : State) : Result :=
  issue { op := 0x5b, ok := checkAcqs w, pred := w.pred } (fun s =>
    let k := fld w.ctl.toNat 0 3
    let g := s.stage k
    if g.full == nbit w.ctl.toNat 3 && g.owner == s.coreInYard && (g.ctx == s.core.ctx || !(s.ctxAt g.ctx).live) then
      .retire (s.setStage k { g with ctx := s.core.ctx }) {}
    else .wait s) s

/-- RELS (R301): STAGE_OWNER where the stage is another core's or context's; else the stage passes on. -/
def execRels (w : SysF) (s : State) : Result :=
  issue { op := 0x5c, ok := checkRels w, pred := w.pred, srcs := [(w.a, w.ea)] } (fun s =>
    let k := fld w.ctl.toNat 0 3
    let g := s.stage k
    if g.owner == s.coreInYard && g.ctx == s.core.ctx then
      .retire (s.setStage k { full := nbit w.ctl.toNat 3, owner := fld w.ctl.toNat 4 3, ctx := s.core.ctx,
                              data := (s.srcS w.a).setWidth 32 }) {}
    else .trap s { code := 0x0A }) s

/-! ### Copy tags (R304, R305) -/

/-- A deferred fault of a job whose tag is in the mask that a waitt reads (R185). -/
def tagPick (w : SysF) (s : State) (d : Deferred) : Bool :=
  match d.tag with
  | some t => s.core.isFull w.a && !(s.core.awaits w.a) && (s.srcS w.a).getLsbD t
  | none => false

/-- The request of a waitt. -/
def reqWaitt (ok : Bool) (w : SysF) : Req := { op := 0x5d, ok := ok, pred := w.pred, srcs := [(w.a, w.ea)] }

/-- WAITT.ANY (R305): a mask of 0 raises RESERVED_FIELD; waits until a masked tag is set. -/
def execWaittAny (w : SysF) (s : State) : Result :=
  waitIssue (reqWaitt (checkWaittAny w) w) (tagPick w s) (fun _ => true) (fun s =>
    if s.srcS w.a = 0 then .trap s { code := 0x02 }
    else if s.core.tagmap &&& s.srcS w.a = 0 then .wait s else .retire s {}) s

/-- WAITT.ALL (R305): waits until every masked tag is set. -/
def execWaittAll (w : SysF) (s : State) : Result :=
  waitIssue (reqWaitt (checkWaittAll w) w) (tagPick w s) (fun _ => true) (fun s =>
    if s.core.tagmap &&& s.srcS w.a = s.srcS w.a then .retire s {} else .wait s) s

/-- FFRT (R305): index of the least set bit of TAGMAP AND S[a], or 64. -/
def execFfrt (w : SysF) (s : State) : Result :=
  issue { op := 0x5e, ok := checkFfrt w, pred := w.pred, srcs := [(w.a, w.ea)], dsts := [w.d] } (fun s =>
    .retire s { writes := [.s (specIdx w.d) (BitVec.ofNat 64 (trailingZeros 64 (s.core.tagmap &&& s.srcS w.a).toNat))] }) s

/-! ### Spawning (R302) -/

/-- An address that is a multiple of `n` within 57 bits (R302, Table 4.1). -/
def recordAddr (n : Nat) (x : W64) : Bool := decide (x.toNat % n = 0 ∧ x.toNat < 2 ^ 57)

/-- The child's record (R302). -/
def childRecord (w : A3) (s : State) : ContRec :=
  let c := s.core
  { num := 0, code := s.srcS w.a, frame := s.srcS w.b, joinblk := s.srcS w.c,
    penset := if w.fn = 0 then c.penset else 0, pencnt := if w.fn = 0 then c.pencnt else 0,
    entry := c.entry, ctx := c.ctx, launch := c.launch, index := c.index, ready := s.beat }

/-- SPAWN (R302): the child enters the dispatch queues, and the launch's hardware join counts up; it stalls while the
queues are full (R60). -/
def execSpawn (w : A3) (s : State) : Result :=
  issue { op := 0xeb, ok := checkSpawn w, pred := w.pred, srcs := [(w.a, w.ea), (w.b, w.eb), (w.c, w.ec)], touches := true } (fun s =>
    if !(recordAddr 8 (s.srcS w.a) && recordAddr 64 (s.srcS w.b) && recordAddr 64 (s.srcS w.c)) then .trap s { code := 0x02 }
    else
      match readHeader s s.core.ctx (.yard s.yardIdx) (s.srcS w.a) with
      | (t, .error f) => .trap t (memTrap pathCore f)
      | (t, .ok none) => .trap t { code := 0x02 }
      | (t, .ok (some _)) =>
        if t.queuesFull then .wait t
        else
          let e := t.core.entry
          (Issue.retire ((t.releaseAll.enqueue (childRecord w t)).modEntry e fun e => { e with hwJoin := e.hwJoin + 1 }) {}).whenServed s) s

/-! ### Streams (R111, R173, R311, R312) -/

/-- Element types that a stream may have (R311). -/
def streamFmt (f : Nat) : Bool := (decide (1 ≤ f) && decide (f ≤ 3)) || (decide (8 ≤ f) && decide (f ≤ 14))

/-- The binding that 64 descriptor bytes describe, or none where R311 refuses them (Table 15.5). -/
def parseStream (bs : List Byte) : Option Stream :=
  let fmt := numAt bs 8 1
  let counts := (List.range 4).map fun i => numAt bs (0x10 + 4 * i) 4
  let strides := (List.range 4).map fun i => sext 64 (numAt bs (0x20 + 8 * i) 8)
  let size := elemBytes fmt
  if streamFmt fmt && decide (numAt bs 9 1 ≤ 1) && numAt bs 10 6 == 0
      && counts.all (fun n => decide (1 ≤ n ∧ n ≤ 2 ^ 24)) && strides.all (fun d => d % (size : Int) == 0)
      && numAt bs 0 8 % size == 0 && counts.foldl (· * ·) 1 % (1024 / elemBits fmt) == 0
  then some { isWrite := numAt bs 9 1 = 1, fmt := fmt, base := BitVec.ofNat 64 (numAt bs 0 8), counts := counts,
              strides := strides, pos := 0, buf := [], fault := none }
  else none

/-- STRB (R311): binds a q register to the descriptor at S[a]. -/
def execStrb (w : SysF) (s : State) : Result :=
  issue { op := 0xcd, ok := checkStrb w, pred := w.pred, srcs := [(w.a, w.ea)], touches := true } (fun s =>
    if s.streamHeld w.d then .wait s
    else if (s.core.getQ (specIdx w.d)).isSome then .trap s { code := 0x02 }
    else
      match readCore s { va := (s.srcS w.a).toNat, len := 64 } with
      | (u, .error f) => readStop u f
      | (u, .ok bs) =>
        match parseStream bs with
        | none => .trap u { code := 0x02 }
        | some b =>
          match reach u { u.streamAccess (if b.isWrite then .write else .read) with probe := true } [{ va := b.base.toNat, len := 1 }] with
          | (v, .error f) => .trap v (memTrap pathStream f)
          | (v, .ok _) => (Issue.retire (v.modCore fun c => { c with q := vset c.q (specIdx w.d) (some b) }) {}).whenServed s) s

/-- The binding that a stru, strq or strs names, after the fault that its transfer unit met (R311). -/
def withStream (s : State) (r : Spec) (stalls : Bool) (unbound : Issue) (body : Stream → Issue) : Issue :=
  if stalls && s.streamHeld r then .wait s
  else match s.core.getQ (specIdx r) with
  | none => unbound
  | some b =>
    match b.fault with
    | some f => .trap (s.modCore fun c => { c with q := vset c.q (specIdx r) (some { b with fault := none }) })
        { code := f.1, path := pathStream, fva := f.2 }
    | none => body b

/-- A result on its way to a stream register, whose slot has passed or which has none, so that no slot is needed for it to be
appended (R164, R166). -/
def Core.appends (c : Core) (r : Spec) : Bool := c.flight.any fun f => f.dest == r && (f.land == .arrival || f.passed c.slot)

/-- A stream unbound. -/
def State.unbind (s : State) (i : Nat) : State := s.modCore fun c => { c with q := vset c.q i none }

/-- STRU (R312): waits until every element appended is performed, then unbinds; a read stream loses what was prefetched. A result
whose landing slot is still to come has not been appended (R165; DEDUCED, log 72). -/
def execStru (w : SysF) (s : State) : Result :=
  issue { op := 0xce, ok := checkStru w, pred := w.pred } (fun s =>
    withStream s w.d true (.trap s { code := 0x0B }) fun b =>
      if b.isWrite && (!b.buf.isEmpty || s.core.appends w.d) then .wait s
      else .retire (s.unbind (specIdx w.d)) {}) s

/-- Position of a stream in elements, with what has been appended to it (R173). -/
def Stream.position (b : Stream) : Nat := if b.isWrite then b.pos + b.buf.length * (1024 / elemBits b.fmt) else b.pos

/-- STRQ (R312): the position, as class 14; 0 where the register is unbound. -/
def execStrq (w : SysF) (s : State) : Result :=
  issue { op := 0xcf, ok := checkStrq w, pred := w.pred, dsts := [w.d] } (fun s =>
    let out := fun (n : Nat) => Issue.retire s { writes := [.s (specIdx w.d) (BitVec.ofNat 64 n)], cls := 14 }
    withStream s w.a false (out 0) fun b => out b.position) s

/-- STRS (R312): advances the position by u(S[a]) elements; past the end of the pattern it raises RESERVED_FIELD. A write
stream first has its appended elements performed. A stream whose position comes to the end so stays bound, and a read of it stalls as
one of an empty stream does (R173; DEDUCED, log 23). -/
def execStrs (w : SysF) (s : State) : Result :=
  issue { op := 0xd0, ok := checkStrs w, pred := w.pred, srcs := [(w.a, w.ea)] } (fun s =>
    withStream s w.d true (.trap s { code := 0x0B }) fun b =>
      let target := b.position + (s.srcS w.a).toNat
      if b.total < target then .trap s { code := 0x02 }
      else if b.isWrite && !(b.buf.isEmpty) then .wait s
      else .retire (s.modCore fun c => { c with q := vset c.q (specIdx w.d) (some { b with pos := target, buf := [] }) }) {}) s

/-- Path codes that an XFENCE names (R297). -/
def fencePath (w : SysF) (at_ : Nat) : Nat := fld w.ctl.toNat at_ 3

/-- Results are on their way to a stream register, so that elements are still to be appended (R164, R166). -/
def Core.appending (c : Core) : Bool := (List.range 16).any fun i => c.appends (BitVec.ofNat 8 (0x80 + i))

/-- XFENCE (R111): the accesses of path A before it are performed at the scope before those of path B after it. With A = STREAM
it waits for results on their way to stream registers, and the elements appended to write streams are performed; with B = STREAM what
read streams had prefetched is read anew. -/
def execXfence (w : SysF) (s : State) : Result :=
  issue { op := 0x54, ok := checkXfence w, pred := w.pred } (fun s =>
    let scope := fld w.ctl.toNat 0 4
    let t := if fencePath w 4 = pathStream then s.performStreams else s
    if fencePath w 4 == pathStream && s.core.appending then .wait s
    else if t.fenceWaits scope then .wait t
    else
      let s := t.releaseAt scope
      .retire (if fencePath w 7 = pathStream then s.modCore Core.dropPrefetch else s) {}) s

/-- STREAM_TRANSFER (R173, R311): the transfer unit prefetches one vector into a read stream that has room, or performs the
oldest vector of a write stream. It stops at a fault until an instruction has raised it. -/
def execStreamTransfer (q : Fin 16) (s : State) : Result :=
  match s.core.getQ q.val with
  | none => .next s
  | some b =>
    let w := elemBits b.fmt
    let n := 1024 / w
    if b.fault.isSome || !s.core.running then .next s
    else if b.isWrite then
      match b.buf with
      | [] => .next s
      | x :: rest =>
        match s.writeElems (s.streamAccess .write) b b.pos (lanesOf w n x.toNat) with
        | (s, some f) => .next (s.setStream q.val { b with fault := some (f.1, BitVec.ofNat 64 f.2) })
        | (s, none) => .next (s.setStream q.val { b with pos := b.pos + n, buf := rest })
    else
      let i := b.pos + n * b.buf.length
      if Config.streamDepth ≤ b.buf.length ∨ b.total ≤ i then .next s
      else
        match s.readElems (s.streamAccess .read) b i n with
        | (s, .error f) => .next (s.setStream q.val { b with fault := some (f.1, BitVec.ofNat 64 f.2) })
        | (s, .ok xs) => .next (s.setStream q.val { b with buf := b.buf ++ [vecOf w xs] })

end Sys2Proof.Machine
end

