-- ==== Sys2Proof/Machine/System.lean ====
section
/-! DEFINITION. The system instructions (R258-R268), JOIN (R303), control registers (R162), the fetch of an instruction, and
the events of a core: interrupts (R180), fetch faults, unassigned opcodes (R176) and results that arrive (R166). -/

namespace Sys2Proof.Machine

/-! ### Fetch -/

/-- The word at the front of the triple, on the CORE path, or the fault of its fetch (R97, R176). An address that is not
8-byte aligned, which only an EPC written by MTC can bring, raises MISALIGNED (DEDUCED, log 12). -/
def State.fetch (s : State) : State × Except (BitVec 8 × Nat) W64 :=
  let at_ := s.core.f0.toNat
  match reach s (s.coreAccess .fetch) [{ va := at_, len := 8, align := 8 }] with
  | (s, .error f) => (s, .error f)
  | (s, .ok pas) => (s.ordinaryRead pas.flatten, .ok (BitVec.ofNat 64 (fromBytes (pas.flatten.map s.readByte))))

/-- INSTRUCTION_FETCH_FAULT (R176): a fetch that cannot be made traps precisely. -/
def execInstructionFetchFault (s : State) : Result :=
  if !s.core.running then .next s
  else
    match s.fetch with
    | (s, .error f) => .next (s.takeTrap (memTrap pathCore f))
    | (s, .ok _) => .next s

/-- ILLEGAL_OPCODE (R176, R238): a word whose opcode no row of the opcode map has. -/
def execIllegalOpcode (_word : BitVec 64) (s : State) : Result := .next (s.takeTrap { code := 0x01 })

/-- A cause that comes before INTERRUPT stands at the boundary (R176). -/
def Core.earlierCause (c : Core) : Bool := !c.tm && (c.budgetTrap || c.resumed)

/-- INTERRUPT (R180): at a boundary the core's take of INTSEM is granted when it heads the queue and the count is at least
one; the unit is taken and the trap entered in one step. -/
def execInterrupt (s : State) : Result :=
  match s.core.intTake with
  | none => .next s
  | some (n, id) =>
    if s.core.running && !s.core.tm && !s.core.hollow && !s.core.earlierCause && s.servable n id then
      .next (((s.serveTake n).modCore fun c => { c with intTake := none }).takeTrap { code := 0x39 })
    else .next s

/-! ### TRAP, BKPT, NOP, BEAT, RETI -/

/-- TRAP (R259): raises the fault code in imm23[7:0] precisely. -/
def execTrap (w : SysF) (s : State) : Result :=
  issue { op := 0xe0, ok := checkTrap w, pred := w.pred } (fun s => .trap s { code := BitVec.ofNat 8 w.imm.toNat }) s

/-- BKPT (R259): BREAKPOINT precisely at itself. -/
def execBkpt (w : SysF) (s : State) : Result :=
  issue { op := 0xe5, ok := checkBkpt w, pred := w.pred } (fun s => .trap s { code := 0x3E }) s

/-- NOP (R264): no effect. -/
def execNop (w : SysF) (s : State) : Result :=
  issue { op := 0xe4, ok := checkNop w, pred := w.pred } (fun s => .retire s {}) s

/-- BEAT (R267): the beat counter. -/
def execBeat (w : SysF) (s : State) : Result :=
  issue { op := 0xea, ok := checkBeat w, pred := w.pred, dsts := [w.d] } (fun s =>
    .retire s { writes := [.s (specIdx w.d) (BitVec.ofNat 64 s.beat)] }) s

/-- The wait of RETI and CKPT for every operation in flight: a stall while a full/empty or a scoreboarded result has to arrive,
empty slots until the last declared landing slot has passed (R178, R181, R365). -/
def whenLanded (s : State) (body : Issue) : Issue :=
  if s.core.flight.any (fun f => f.land == .arrival || f.passed s.core.slot) then .wait s
  else if s.core.flight.isEmpty then body
  else .emptySlot s

/-- After a RETI out of a BUDGET_OVERRUN trap no further continuation of the entry traps (R70). -/
def State.endOverrunTraps (s : State) : State :=
  if fld s.core.cause.toNat 0 8 = 0x30 then s.modEntry s.core.entry fun e => { e with trapNew := false } else s

/-- RETI (R178, R261). -/
def execReti (w : SysF) (s : State) : Result :=
  issue { op := 0xe1, ok := checkReti w && !s.inLoop, pred := w.pred } (fun s =>
    if !s.core.tm then .trap s { code := 0x02 }
    else whenLanded s (.whole ((s.ordinaryRead s.core.replayed).endOverrunTraps.modCore fun c => c.resume s.beat s.readPhys s.servedAt))) s

/-! ### The end of a continuation (R262, R263, R303) -/

/-- A stream of the core whose transfer unit has met a fault. -/
def Core.anyStreamFault (c : Core) : Option (Nat × BitVec 8 × W64) :=
  (List.range 16).findSome? fun i => c.streamFault (BitVec.ofNat 8 (0x80 + i))

/-- A write stream of the core still has elements to perform. -/
def Core.streamsBusy (c : Core) : Bool :=
  c.q.toList.any fun b => match b with
    | some b => b.isWrite && !b.buf.isEmpty
    | none => false

/-- HALT, CONT and JOIN wait until every engine job of the continuation has drained, and deliver deferred faults and the
faults of streams meanwhile (R185, R262, R311; DEDUCED, log 24). -/
def endIssue (r : Req) (early : State → Option Trap) (final : State → Issue) (s : State) : Result :=
  waitIssue r (fun _ => true) (fun d => d.sem.isNone && d.tag.isSome) (fun s =>
    match early s with
    | some t => .trap s t
    | none =>
      match s.core.anyStreamFault with
      | some f => .trap (s.modCore fun c => { c with q := vset c.q f.1 ((c.getQ f.1).map fun b => { b with fault := none }) })
          { code := f.2.1, path := pathStream, fva := f.2.2 }
      | none => if s.jobs.any (fun j => j.cont == s.core.cont) || s.core.streamsBusy then .wait s else final s) s

/-- The continuation has ended: its stores are performed at package scope and the core is free (R262). -/
def State.endCont (s : State) : State := s.drainWrites.vacate s.subj.core.val

/-- HALT (R262): with no join block it counts down the launch's hardware join. -/
def execHalt (w : SysF) (s : State) : Result :=
  endIssue { op := 0xe2, ok := checkHalt w && !s.inLoop, pred := w.pred } (fun _ => none) (fun s =>
    let c := s.core
    .leaves (if c.joinblk = 0 then s.endCont.countDown c.entry else s.endCont)) s

/-- The successor of a continuation (R263). -/
def successor (c : Core) (code frame : W64) (beat : Nat) (gate : Option (Nat × Nat)) : ContRec :=
  { num := 0, code := code, frame := frame, joinblk := c.joinblk, penset := c.penset, pencnt := c.pencnt, entry := c.entry,
    ctx := c.ctx, launch := c.launch, index := c.index, ready := beat, gate := gate }

/-- The successor enters the dispatch queues, ready at once or when it takes one unit of a semaphore (R263). A FRAME that
no record may hold is malformed (R60, R49). -/
def State.succeed (s : State) (c : Core) (code frame : W64) (sem : Nat) : State :=
  if !recordAddr 64 frame then s.contain (entryQueue c.entry) c.entry
  else if sem = 0 then s.enqueue (successor c code frame s.beat none)
  else
    let r := s.placeTake sem 1 (.cont s.fresh)
    if r.1.granted sem r.2 then (r.1.noticeTake sem r.2).enqueue (successor c code frame s.beat none)
    else r.1.enqueue (successor c code frame s.beat (some (sem, r.2)))

/-- The faults that CONT raises before it waits: a semaphore of another context, and a CODE that no record may hold. -/
def contFault (w : SysF) (s : State) : Option Trap :=
  if ctlIndex w ≠ 0 && !(s.semOwned (ctlIndex w) s.core.ctx) then some { code := codePermission }
  else if !recordAddr 8 (s.srcS w.a) then some { code := 0x02 }
  else none

/-- CONT (R263). S[1] is a source, read as an unmarked one. -/
def execCont (w : SysF) (s : State) : Result :=
  endIssue { op := 0xe3, ok := checkCont w && !s.inLoop, pred := w.pred, srcs := [(w.a, w.ea), (1, false)] } (contFault w) (fun s =>
    .leaves (s.endCont.succeed s.core (s.srcS w.a) (s.core.getS 1) (ctlIndex w))) s

/-- The parent record in the 32 bytes of a join block, or none where R60 or R303 call it malformed (Table 4.1). -/
def parentRecord (c : Core) (beat : Nat) (bs : List Byte) : Option ContRec :=
  let w0 := numAt bs 0 8
  let w1 := BitVec.ofNat 64 (numAt bs 8 8)
  let w2 := BitVec.ofNat 64 (numAt bs 0x10 8)
  if w0 < 2 ^ 57 ∧ w0 % 8 ≤ 4 ∧ recordAddr 64 w1 ∧ recordAddr 64 w2 ∧ numAt bs 0x1C 4 = c.entry then
    some { num := 0, code := BitVec.ofNat 64 (w0 / 8 * 8), frame := w1, joinblk := w2, penset := BitVec.ofNat 32 (numAt bs 0x18 4),
           pencnt := w0 % 8, entry := c.entry, ctx := c.ctx, launch := c.launch, index := c.index, ready := beat }
  else none

/-- The join block counted down from `old`, once its stores have been performed (R303). -/
def joinFinal (s : State) (at_ : List Nat) (old : Nat) (parent : List Byte) : State :=
  let c := s.core
  let s := (s.endCont.logHeld at_ 0 s.subj.core.val c.entry).putBytes at_ (toBytes 4 (old - 1))
  if old = 1 then
    match parentRecord c s.beat parent with
    | some r => s.enqueue r
    | none => s.contain (entryQueue c.entry) c.entry
  else if old = 0 then ((s.logError 0x02 0 s.subj.core.val c.entry).chargeFault c.entry 0x02).countDown c.entry
  else s.countDown c.entry

/-- JOIN (R303): with no join block it acts as HALT; else the block's counter is decremented at its coherence point, and the
one that brings it to 0 enqueues the parent (DEDUCED, log 55). -/
def execJoin (w : SysF) (s : State) : Result :=
  endIssue { op := 0xec, ok := checkJoin w, pred := w.pred, touches := true } (fun _ => none) (fun s =>
    let c := s.core
    if c.joinblk = 0 then .leaves (s.endCont.countDown c.entry)
    else
      let a := s.coreAccess .atomic
      let counter : List Span := [{ va := c.joinblk.toNat, len := 4, align := 4 }]
      match reach s { a with probe := true } counter with
      | (s, .error f) => .trap s (memTrap pathCore f)
      | (t, .ok pas) =>
        let u := t.ordinaryRead pas.flatten
        let old := fromBytes (pas.flatten.map u.readByte)
        (if old = 1 then
          match reach u (u.coreAccess .read) [{ va := c.joinblk.toNat + 0x20, len := 32 }] with
          | (v, .error f) => .trap v (memTrap pathCore f)
          | (v, .ok rec_) =>
            .leaves (joinFinal (reach (v.ordinaryRead rec_.flatten) a counter).1 pas.flatten old (rec_.flatten.map v.readByte))
        else Issue.leaves (joinFinal (reach u a counter).1 pas.flatten old [])).whenServed s) s

/-! ### YIELD and CKPT (R181, R182, R264, R265) -/

/-- A ready continuation that the core may pop precedes the running one under the current beat (R264). -/
def State.yieldsTo (s : State) : Bool :=
  match s.popChoice s.subj.core.val with
  | some x => keyPrecedes (x.key s) (s.keyOf s.core.entry s.beat s.core.index)
  | none => false

/-- The instruction retires, and the continuation is saved and leaves the core. Where single step traps after it, the save is one
in trap mode, at the handler's first instruction (R184, R268; DEDUCED, log 73). From `s` the instruction has made `u`. -/
def leaveAfter (r : Req) (s u : State) (save : State → State) : Issue :=
  let t := u.finish r none {}
  (Issue.leaves (if t.core.running then save t else t)).whenServed s

/-- YIELD (R264). -/
def execYield (w : SysF) (s : State) : Result :=
  let r : Req := { op := 0xe6, ok := checkYield w && !s.inLoop, pred := w.pred, srcs := [(w.a, w.ea)] }
  issue r (fun s =>
    if !s.core.tm && s.yieldsTo then
      leaveAfter r s s (if specIdx w.a = 0 && w.imm = 0 then fun t => t.forcedSave s.beat else fun t => t.tableSave (sysAddress w s) s.beat)
    else .retire s {}) s

/-- CKPT (R181, R265): waits for the operations in flight, records its table and restarts the interval; a pending
pre-emption request is served by a save of the live state (R182). -/
def execCkpt (w : SysF) (s : State) : Result :=
  let r : Req := { op := 0xe7, ok := checkCkpt w, pred := w.pred, srcs := [(w.a, w.ea)] }
  issue r (fun s =>
    if s.core.tm then .retire s {}
    else
      whenLanded s (
        let at_ := sysAddress w s
        let u := s.modCore fun c => { c with ckpttab := at_, ckpted := true, ckptAt := s.beat }
        if s.core.preemptReq then leaveAfter r s u fun t => t.tableSave at_ t.core.readyAt else .retire u {})) s

/-! ### Control registers (R162, R266, Table 9.1) -/

/-- A replay entry (Table 9.6). -/
def rplqWord (f : InFlight) (remain : Nat) : W64 :=
  BitVec.ofNat 64 (2 ^ 56 * f.op.toNat + 2 ^ 48 * f.dest.toNat + 2 ^ 40 * remain + 2 ^ 36 * f.cls + 2 ^ 34 * min f.nsrc 3)

/-- LFMT[b] (Table 5.7). -/
def Lfmt.word (f : Lfmt) : Nat := 2 ^ 15 * bit f.owned + 2 ^ 8 * (f.owner % 64) + f.format % 16

/-- LUNGE_MISSES as it stands at the start of a beat: a miss of that beat is seen by the next read (R266). -/
def MatArray.missesAt (a : MatArray) (beat : Nat) : Nat := if a.missBeat = some beat then (a.misses + 2 ^ 32 - 1) % 2 ^ 32 else a.misses

/-- LFMT[b] as it stands at the start of a beat: a write of that beat by a core of the yard is seen by the next read (R266). -/
def Lfmt.at (f : Lfmt) (beat : Nat) : Nat := if f.setAt = some beat then f.before else f.word

/-- Control register `n` as an MFC returns it (Table 9.1). -/
def State.readCtl (s : State) (n : Nat) : W64 :=
  let c := s.core
  if 0x400 ≤ n then BitVec.ofNat 64 ((vget {} s.yards[s.yardIdx].lfmt (n - 0x400)).at s.beat)
  else if 0x011 ≤ n ∧ n ≤ 0x01C then
    match c.rplq[n - 0x011]? with
    | some r => rplqWord r.1 r.2
    | none => 0
  else
    match n with
    | 0x000 => c.status
    | 0x001 => c.cause
    | 0x002 => c.epc
    | 0x003 => c.epc1
    | 0x004 => c.epc2
    | 0x005 => c.brpend
    | 0x006 => c.faultva
    | 0x007 => c.tvec
    | 0x008 => c.tscratch
    | 0x009 => c.mpcsave
    | 0x00A => c.ckpttab
    | 0x00B => c.lattab
    | 0x00C => c.intsem
    | 0x010 => BitVec.ofNat 64 c.rplq.length
    | 0x020 => c.tagStart s.beat
    | 0x021 => BitVec.ofNat 64 (2 ^ 32 * c.pencnt + c.penset.toNat)
    | 0x022 => BitVec.ofNat 64 c.entry
    | 0x023 => BitVec.ofNat 64 s.subj.core.val
    | 0x030 => BitVec.ofNat 64 (s.beat % 2 ^ 32)
    | 0x031 => c.beathi
    | 0x040 => BitVec.ofNat 64 s.yards[s.yardIdx].ballast
    | 0x041 => c.lookahead
    | 0x042 => BitVec.ofNat 64 (s.yards[s.yardIdx].arr.missesAt s.beat % 2 ^ 32)
    | _ => 0

/-- MFC (R266): a read of BEATLO also latches the high half for BEATHI. -/
def execMfc (w : SysF) (s : State) : Result :=
  issue { op := 0xe8, ok := checkMfc w, pred := w.pred, dsts := [w.d] } (fun s =>
    let n := w.ctl.toNat
    let latched := if n = 0x030 then s.modCore fun c => { c with beathi := BitVec.ofNat 64 (s.beat / 2 ^ 32 % 2 ^ 32) } else s
    .retire latched { writes := [.s (specIdx w.d) (s.readCtl n)] }) s

/-- The fields of a control register that MTC writes (Tables 9.1, 9.2, 9.4, 13.6). -/
def statusMask : W64 := 0xFC3C

/-- A control register with behaviour of a plain store written by MTC; RO registers ignore it (R162). -/
def Core.writeCtl (c : Core) (n : Nat) (x : W64) (beat : Nat) : Core :=
  match n with
  | 0x000 => { c with status := (c.status &&& ~~~statusMask) ||| (x &&& statusMask) }
  | 0x002 => { c with epc := x }
  | 0x003 => { c with epc1 := x }
  | 0x004 => { c with epc2 := x }
  | 0x005 => { c with brpend := x &&& 3 }
  | 0x007 => { c with tvec := x }
  | 0x008 => { c with tscratch := x }
  | 0x00C => { c with intsem := x &&& 0x1FF }
  | 0x020 => c.clearTags x beat
  | 0x041 => { c with lookahead := x &&& 0xFFFF }
  | _ => c

/-- An MTC to LFMT[b] (R92). -/
def mtcLfmt (s : State) (b : Nat) (x : W64) : Issue :=
  let y := s.yards[s.yardIdx]
  let f := vget {} y.lfmt b
  let fmt := fld x.toNat 0 4
  if 12 ≤ fmt then .trap s { code := 0x02 }
  else if f.owned && f.owner ≠ s.core.ctx && (s.ctxAt f.owner).live then .trap s { code := codePermission }
  else
    let y := { y with lfmt := vset y.lfmt b { owned := true, owner := s.core.ctx, format := fmt, setAt := some s.beat, before := f.at s.beat } }
    .retire { s with yards := s.yards.set s.yardIdx y } {}

/-- MTC (R266, Table 13.6): INTSEM may be enabled for a semaphore of the context alone (R298). -/
def execMtc (w : SysF) (s : State) : Result :=
  issue { op := 0xe9, ok := checkMtc w, pred := w.pred, srcs := [(w.a, w.ea)] } (fun s =>
    let n := w.ctl.toNat
    let x := s.srcS w.a
    if 0x400 ≤ n then mtcLfmt s (n - 0x400) x
    else if n = 0x00C && x.getLsbD 8 && !(s.semOwned (fld x.toNat 0 8) s.core.ctx) then .trap s { code := codePermission }
    else .retire (s.modCore fun c => c.writeCtl n x s.beat) { stepped := some (s.core.ss && !s.core.tm) }) s

end Sys2Proof.Machine
end

