-- ==== Sys2Proof/Machine/Copy.lean ====
section
/-! DEFINITION. Block copies: CRC32C (R53), the copy of rows with conversion and checks (R93, R306-R308), TMPLI (R309), BTEG
(R310), and what every descriptor instruction does at issue (R315). -/

namespace Sys2Proof.Machine

/-! ### Meters (R69) -/

/-- A class's meter with `n` more units. -/
def Meters.add (m : Meters) (cls : MeterClass) (n : Nat) : Meters :=
  match cls with
  | .cores => { m with cores := m.cores + n }
  | .matrix => { m with matrix := m.matrix + n }
  | .bank => { m with bank := m.bank + n }
  | .copy => { m with copy := m.copy + n }

/-- Work charged to an entry (R69). -/
def State.chargeMeter (s : State) (id : Nat) (cls : MeterClass) (n : Nat) : State :=
  s.modEntry id fun e => { e with used := e.used.add cls n }

/-! ### Issue of descriptor instructions (R236, R315) -/

/-- A clause field: 0 means none (R236). -/
def clause {w : Nat} (x : BitVec w) : Option Nat := if x = 0 then none else some x.toNat

/-- The semaphores that the clauses name are assigned to the core's context (R298). -/
def clausesOwned (w : EngF) (s : State) : Bool :=
  (w.waitsem == 0 || s.semOwned w.waitsem.toNat s.core.ctx) && (w.sigsem == 0 || s.semOwned w.sigsem.toNat s.core.ctx)

/-- The 64 bytes of a descriptor, 64-byte aligned, by a CORE-path load at issue (R315; DEDUCED, log 59). -/
def readDesc (s : State) (va : Nat) : State × Except (BitVec 8 × Nat) (List Byte) :=
  readCore s { va := va, len := 64, align := 64 }

/-- The first byte of each range that a descriptor names is translated on the job's path (R315). -/
def checkRanges (s : State) : List (Access × Nat) → State × Option (Nat × BitVec 8 × Nat)
  | [] => (s, none)
  | (a, va) :: rest =>
    match reach s { a with probe := true } [{ va := va, len := 1 }] with
    | (s, .error f) => (s, some (a.path, f))
    | (s, .ok _) => checkRanges s rest

/-- A checked job enters its unit's queue, and the instruction retires; a full queue stalls it (R315). -/
def enqueueJob (w : EngF) (s : State) (kind : JobKind) (unit : JobUnit) (err : Option Nat) : Issue :=
  if Config.unitQueue ≤ s.unitLoad unit then .wait s
  else .retire (s.newJob kind unit (clause w.waitsem) (clause w.sigsem) (clause w.tag) err) {}

/-- The request of a descriptor instruction. -/
def reqDesc (op : Nat) (ok : Bool) (w : EngF) (srcs : List (Spec × Bool)) : Req :=
  { op := BitVec.ofNat 8 op, ok := ok, pred := w.pred, srcs := srcs, touches := true }

/-- A descriptor instruction up to its fields: semaphores, then the descriptor (R315). It waits for what it reads (R13). -/
def withDesc (w : EngF) (s : State) (body : State → List Byte → Issue) : Issue :=
  if !clausesOwned w s then .trap s { code := codePermission }
  else
    match readDesc s (s.srcS w.desc).toNat with
    | (t, .error f) => readStop t f
    | (t, .ok bs) => (body t bs).whenServed s

/-- The first bytes of the ranges translate, or the fault of one is raised precisely (R315). -/
def withRanges (s : State) (rs : List (Access × Nat)) (body : State → Issue) : Issue :=
  match checkRanges s rs with
  | (s, some (path, f)) => .trap s (memTrap path f)
  | (s, none) => body s

/-! ### CRC32C (R53) -/

/-- One bit of the Castagnoli CRC, reflected. -/
def crcBit (c : Nat) : Nat := if c % 2 = 1 then (c / 2) ^^^ 0x82F63B78 else c / 2

/-- One byte of the CRC. -/
def crcByte (c : Nat) (b : Byte) : Nat :=
  crcBit (crcBit (crcBit (crcBit (crcBit (crcBit (crcBit (crcBit (c ^^^ b.toNat))))))))

/-- CRC32C with initial value 0xFFFF_FFFF and final inversion (R53). -/
def crc32c (bs : List Byte) : Nat := bs.foldl crcByte 0xFFFFFFFF ^^^ 0xFFFFFFFF

/-! ### A copy -/

/-- How a copy ends before its last byte: a suspension (R99), or a fault that stops it, with the address it concerns. -/
inductive CopyStop where
  | suspend (code : BitVec 8) (va : Nat)
  | fail (code : BitVec 8) (va : Option Nat := none)
  deriving DecidableEq, Repr

/-- A copy as it runs: whose it is, the two sides, each row's source and destination address, and its options. -/
structure CopyPlan where
  ctx : Nat
  /-- The yard whose BTE copies. -/
  yard : Fin 8
  srcBus : Bool
  dstBus : Bool
  rows : List (Nat × Nat)
  rowBytes : Nat
  conv : Nat
  /-- Address of the CRC list, when there is one. -/
  crcList : Option Nat
  /-- A partial element under CONV raises RESERVED_FIELD (R308), not MISALIGNED (R225). -/
  template : Bool
  entry : Nat

/-- Bytes of a chunk (R53). -/
def chunkBytes : Nat := 65536

/-- An access of the copy on the BTE path. -/
def CopyPlan.access (p : CopyPlan) (need : Need) : Access := { ctx := p.ctx, path := pathBte, need := need, cache := .yard p.yard }

/-- The physical addresses of a range on the BTE path. -/
def CopyPlan.reach (p : CopyPlan) (s : State) (need : Need) (va n : Nat) : State × Except CopyStop (List Nat) :=
  match Machine.reach s (p.access need) [{ va := va, len := n, unit := 4 }] with
  | (s, .error f) => (s, .error (.suspend f.1 f.2))
  | (s, .ok pas) => (s, .ok pas.flatten)

/-- The physical address of one byte on the BTE path, of which nothing is read or written. -/
def CopyPlan.probe (p : CopyPlan) (s : State) (need : Need) (va : Nat) : State × Except CopyStop Nat :=
  match Machine.reach s { p.access need with probe := true } [{ va := va, len := 1 }] with
  | (s, .error f) => (s, .error (.suspend f.1 f.2))
  | (s, .ok pas) => (s, .ok (pas.flatten.headD 0))

/-- Bytes of a source row; none stands for a byte of a column whose ECC error cannot be corrected (R134). A bus read that
completes with an error status stops the copy with SOURCE_READ (R21, DEDUCED, log 13). -/
def CopyPlan.readRow (p : CopyPlan) (s : State) (va n : Nat) : State × Except CopyStop (List (Option Byte)) :=
  if p.srcBus then
    if s.busError va n then (s, .error (.fail 0x25)) else (s, .ok ((s.readBus va n).map some))
  else
    match p.reach s .read va n with
    | (s, .error f) => (s, .error f)
    | (s, .ok pas) => (s.ordinaryRead pas, .ok (pas.map fun pa => if s.eccBad [pa] then none else some (s.readByte pa)))

/-- The first source byte before copy position `upTo` that ECC cannot correct, in the rows from row `i` on. -/
def CopyPlan.eccAhead (p : CopyPlan) (s : State) (upTo : Nat) : Nat → List (Nat × Nat) → Option Nat
  | _, [] => none
  | i, (src, _) :: rows =>
    if upTo ≤ i * p.rowBytes then none
    else
      match (p.reach s .read src p.rowBytes).2 with
      | .error _ => p.eccAhead s upTo (i + 1) rows
      | .ok pas =>
        match pas.findIdx? fun pa => s.eccBad [pa] with
        | some b => if i * p.rowBytes + b < upTo then some (i * p.rowBytes + b) else none
        | none => p.eccAhead s upTo (i + 1) rows

/-- Where the first chunk begins in which some source byte cannot be corrected, of the chunks that row `i`, the first of `rows`, lies in: no
byte of that chunk or a later one is written (R53, R134; DEDUCED, log 92). -/
def CopyPlan.badChunk (p : CopyPlan) (s : State) (i : Nat) (rows : List (Nat × Nat)) : Option Nat :=
  if p.srcBus || s.env.badColumns.isEmpty then none
  else (p.eccAhead s (ceilDiv ((i + 1) * p.rowBytes) chunkBytes * chunkBytes) i rows).map fun b => b / chunkBytes * chunkBytes

/-- Bytes written at the destination. -/
def CopyPlan.writeRow (p : CopyPlan) (s : State) (va : Nat) (bs : List Byte) : State × Option CopyStop :=
  if p.dstBus then (s.writeBus va bs, none)
  else
    match p.reach s .write va bs.length with
    | (s, .error f) => (s, some f)
    | (s, .ok pas) => ((s.logHeld pas 2 p.yard.val p.entry).putBytes pas bs, none)

/-- Source bytes, and the destination bytes they become, that convert together: whole units of the source whose elements fill whole
blocks and bytes of the destination (R225). -/
def convertGroup (pair : Nat) : Nat × Nat :=
  if pair = 0 then (1, 1)
  else
    let t := pair % 16
    let g := if 9 ≤ t then blockElems t else if t = 6 then 2 else 1
    let n := g / Nat.gcd g (unitElems (pair / 16)) * unitBytes (pair / 16)
    (n, convertedLen pair n)

/-- Source bytes of a row that a stopped copy may write: whole groups. -/
def wholePrefix (pair good : Nat) : Nat := good - good % (convertGroup pair).1

/-- Source bytes of a row as plain bytes. -/
def plainBytes (bs : List (Option Byte)) : List Byte := bs.map (·.getD 0)

/-- Bytes of a read row that go out, converted: all of them, or those before copy position `upTo` (R53, R308). -/
def CopyPlan.outOf (p : CopyPlan) (c : CopyRun) (upTo : Nat) (h : HeldRow) : OutRow :=
  let good := upTo - h.index * p.rowBytes
  let bs := convertBytes c.pair (if h.bytes.length ≤ good then h.bytes else h.bytes.take (wholePrefix c.pair good))
  { row := h.index, va := (h.dst + h.done) % 2 ^ 64, done := h.done, bytes := bs.drop h.done }

/-- Rows handed on for writing; those with nothing left to write are dropped. -/
def CopyPlan.emit (p : CopyPlan) (c : CopyRun) (upTo : Nat) (hs : List HeldRow) : CopyRun :=
  { c with out := (hs.map (p.outOf c upTo)).filter (!·.bytes.isEmpty) }

/-- Destination bytes of a whole row. -/
def CopyPlan.outBytes (p : CopyPlan) (c : CopyRun) : Nat := convertedLen c.pair p.rowBytes

/-- The run after `k` more bytes of row `o` have been written. -/
def CopyPlan.wrote (p : CopyPlan) (c : CopyRun) (o : OutRow) (k : Nat) : CopyRun :=
  if p.outBytes c ≤ o.done + k then { c with row := o.row + 1, done := 0 } else { c with row := o.row, done := o.done + k }

/-- Destination bytes of row `i` that are written already. -/
def CopyPlan.written (p : CopyPlan) (c : CopyRun) (i : Nat) : Nat :=
  if i < c.row then p.outBytes c else if i = c.row then c.done else 0

/-- A suspended copy (R99): what it has read is discarded and is read again at resume, from the row that is not written whole, or
with a CRC list from the chunk that holds what comes next, whose CRC is compared again. Only a group that is written in part
keeps what was read, since it is read once (R225). -/
def CopyPlan.rewound (p : CopyPlan) (c : CopyRun) : CopyRun :=
  let g := convertGroup c.pair
  let kept := (c.out.filter (·.row = c.row)).map fun o => { o with bytes := o.bytes.take ((g.2 - c.done % g.2) % g.2) }
  let out := kept.filter fun o => !o.bytes.isEmpty
  let at_ := c.row * p.rowBytes + (c.done + g.2 - 1) / g.2 * g.1
  let chunk := if p.crcList.isSome then at_ / chunkBytes else 0
  { pair := c.pair, next := if p.crcList.isSome then chunk * chunkBytes / p.rowBytes else c.row, row := c.row, done := c.done,
    chunk := chunk, out := out }

/-- How a stretch of a copy ends: at a 4 KiB boundary of its destination (R52, Table 4.2), after its last byte, or stopped. -/
inductive CopyEnd where
  | boundary
  | done
  | stopped (f : CopyStop)
  deriving DecidableEq, Repr

/-- A copy goes on until its destination comes to another 4 KiB block than `page`, the one it writes in: rows are read in ascending
order, each whole before it is written, and with a CRC list only bytes of chunks that have matched are written (R52, R53, R308).
The copy meter charges each row's bytes as they are written (R69; DEDUCED, log 62). -/
def CopyPlan.advance (p : CopyPlan) : Nat → State → CopyRun → List (Nat × Nat) → Option Nat → State × CopyRun × CopyEnd
  | 0, s, c, _, _ => (s, c, .boundary)
  | n + 1, s, c, rows, page =>
    match c.out with
    | o :: rest =>
      if page.any (· != o.va / 4096) then (s, c, .boundary)
      else
        let k := min o.bytes.length (4096 - o.va % 4096)
        match p.writeRow s o.va (o.bytes.take k) with
        | (s, some f) => (s, c, .stopped f)
        | (s, none) =>
          let s := s.chargeMeter p.entry .copy (ceilDiv (o.done + k) 64 - ceilDiv o.done 64)
          let left := if k = o.bytes.length then rest
            else { o with va := (o.va + k) % 2 ^ 64, done := o.done + k, bytes := o.bytes.drop k } :: rest
          p.advance n s { p.wrote c o k with out := left } rows (some (o.va / 4096))
    | [] =>
      match c.stop, p.crcList, rows with
      | some code, _, _ => (s, c, .stopped (.fail code))
      | none, none, [] => (s, c, .done)
      | none, none, (src, dst) :: rows =>
        match p.readRow s src p.rowBytes with
        | (s, .error f) => (s, c, .stopped f)
        | (s, .ok data) =>
          let h : HeldRow := { index := c.next, dst := dst, done := p.written c c.next, bytes := plainBytes data }
          let end_ := (c.next + 1) * p.rowBytes
          let c := match p.badChunk s c.next ((src, dst) :: rows) with
            | some upTo =>
              { p.emit c upTo (if c.next * p.rowBytes < upTo then [h] else []) with stop := some 0x21, chunk := upTo / chunkBytes }
            | none => p.emit c end_ [h]
          p.advance n s { c with next := c.next + 1 } rows page
      | none, some list, rows =>
        if chunkBytes ≤ c.buf.length ∨ (rows.isEmpty ∧ !c.buf.isEmpty) then
          let bs := c.buf.take chunkBytes
          let bad := fun (code : BitVec 8) =>
            { p.emit c (c.chunk * chunkBytes) (c.held.filter fun h => h.index * p.rowBytes < c.chunk * chunkBytes) with held := [], stop := some code }
          if bs.any (·.isNone) then p.advance n s (bad 0x21) rows page
          else
            match p.reach s .read ((list + 4 * c.chunk) % 2 ^ 64) 4 with
            | (s, .error f) => (s, c, .stopped f)
            | (s, .ok pas) =>
              let s := s.ordinaryRead pas
              if s.eccBad pas then p.advance n s (bad 0x21) rows page
              else if crc32c (bs.filterMap id) ≠ fromBytes (pas.map s.readByte) then p.advance n s (bad 0x24) rows page
              else
                let buf := c.buf.drop chunkBytes
                let upTo := if buf.isEmpty && rows.isEmpty then p.rows.length * p.rowBytes else (c.chunk + 1) * chunkBytes
                let whole := fun (h : HeldRow) => decide ((h.index + 1) * p.rowBytes ≤ upTo)
                let c := { p.emit c upTo (c.held.filter whole) with held := c.held.filter (!whole ·), chunk := c.chunk + 1, buf := buf }
                p.advance n s c rows page
        else
          match rows with
          | [] => (s, c, .done)
          | (src, dst) :: rows =>
            match p.readRow s src p.rowBytes with
            | (s, .error f) => (s, c, .stopped f)
            | (s, .ok data) =>
              p.advance n s { c with held := c.held ++ [{ index := c.next, dst := dst, done := p.written c c.next, bytes := plainBytes data }],
                                     buf := c.buf ++ data.drop (c.chunk * chunkBytes - c.next * p.rowBytes), next := c.next + 1 } rows page

/-! ### Conversion by the loft banks (R93) -/

/-- Format of the loft bank that holds a physical address; RAW outside the loft (R92). -/
def State.bankFormat (s : State) (pa : Nat) : Nat :=
  if regionOf pa = .loft then (vget {} (vget {} s.yards (loftYard pa)).lfmt (loftBank pa)).format else 0

/-- Every range stays in banks of one format: 0 when it does, else the fault that stops the copy. -/
def CopyPlan.stays (p : CopyPlan) (need : Need) (fmt n : Nat) (s : State) : List Nat → State × Option CopyStop
  | [] => (s, none)
  | va :: rest =>
    match Machine.reach s { p.access need with probe := true } [{ va := va, len := n, unit := 4 }] with
    | (s, .error f) => (s, some (.suspend f.1 f.2))
    | (s, .ok pas) => if pas.flatten.all fun pa => s.bankFormat pa == fmt then p.stays need fmt n s rest else (s, some (.fail codeMemtype (some va)))

/-- The formats of the loft banks that hold the first bytes of the two sides, as the beat on which the copy begins finds them (R93). -/
def CopyPlan.formatsNow (p : CopyPlan) (s : State) (src dst : Nat) : State × Except CopyStop (Nat × Nat) :=
  match p.probe s .read src with
  | (s, .error f) => (s, .error f)
  | (s, .ok a) =>
    match p.probe s .write dst with
    | (s, .error f) => (s, .error f)
    | (s, .ok b) => (s, .ok (s.bankFormat a, s.bankFormat b))

/-- The explicit conversion of a copy, or what stops it (R93, R225, R308; DEDUCED, log 27). RESERVED_FIELD has no address (R175). -/
def CopyPlan.explicitPair (p : CopyPlan) : Except CopyStop Nat :=
  if !pairOk p.conv then .error (.fail 0x02)
  else if convertible p.conv p.rowBytes then .ok p.conv
  else if p.template then .error (.fail 0x02)
  else .error (.fail codeMisaligned (p.rows.head?.map (·.1)))

/-- The conversion of a copy under captured formats, explicit or implicit, or what stops it before any byte is written (R93, R308;
DEDUCED, log 27). -/
def CopyPlan.pair (p : CopyPlan) (s : State) (src f1 f2 : Nat) : State × Except CopyStop Nat :=
  if f1 = 0 || f2 = 0 || f1 = f2 then (s, p.explicitPair)
  else if p.conv ≠ 0 then (s, .error (.fail 0x02))
  else
    let pair := 16 * f1 + f2
    if !convertible pair p.rowBytes then (s, .error (.fail codeMisaligned (some src)))
    else
      match p.stays .read f1 p.rowBytes s (p.rows.map (·.1)) with
      | (s, some f) => (s, .error f)
      | (s, none) =>
        match p.stays .write f2 (convertedLen pair p.rowBytes) s (p.rows.map (·.2)) with
        | (s, some f) => (s, .error f)
        | (s, none) => (s, .ok pair)

/-- The conversion of a job's copy as it begins; the formats that it has captured stay the job's while it is suspended (R93, R99). -/
def CopyPlan.beginPair (p : CopyPlan) (s : State) (j : Job) : State × Except CopyStop Nat :=
  match p.rows with
  | [] => (s, p.explicitPair)
  | (src, dst) :: _ =>
    if p.srcBus || p.dstBus then (s, p.explicitPair)
    else
      match (match j.formats with
        | some f => (s, .ok f)
        | none => p.formatsNow s src dst : State × Except CopyStop (Nat × Nat)) with
      | (s, .error f) => (s, .error f)
      | (s, .ok f) => p.pair (s.modJob j.id fun j => { j with formats := some f }) src f.1 f.2

/-! ### Templates (R307, R308) -/

/-- A template from its 64 bytes (Table 15.4). -/
def parseTmpl (bs : List Byte) : CopyTmpl :=
  { src := BitVec.ofNat 64 (numAt bs 0 8), dst := BitVec.ofNat 64 (numAt bs 8 8), rows := numAt bs 0x10 4, rowBytes := numAt bs 0x14 4,
    srcStride := sext 32 (numAt bs 0x18 4), dstStride := sext 32 (numAt bs 0x1C 4), srcStep := sext 64 (numAt bs 0x20 8),
    dstStep := sext 64 (numAt bs 0x28 8), conv := BitVec.ofNat 8 (numAt bs 0x30 1), errsem := numAt bs 0x31 1,
    flags := BitVec.ofNat 8 (numAt bs 0x32 1), rsv := numAt bs 0x33 5 ≠ 0, crcList := BitVec.ofNat 64 (numAt bs 0x38 8) }

def CopyTmpl.err (t : CopyTmpl) : Option Nat := if t.flags.getLsbD 0 then some t.errsem else none
def CopyTmpl.crc (t : CopyTmpl) : Bool := t.flags.getLsbD 1

/-- The fields of a template that R308 checks at the BTE. -/
def CopyTmpl.ok (t : CopyTmpl) : Bool :=
  decide (1 ≤ t.rows ∧ t.rows ≤ 65536 ∧ 1 ≤ t.rowBytes ∧ t.rowBytes ≤ 65536) && decide (t.flags.toNat < 4) && !t.rsv
    && (t.crc || t.crcList == 0)

/-- The descriptor of a BTEG as its own rules want it (R310). -/
def CopyTmpl.gatherOk (t : CopyTmpl) : Bool :=
  t.rows == 0 && t.srcStep == 0 && t.dstStep == 0 && t.crcList == 0 && decide (t.flags.toNat < 2) && !t.rsv
    && decide (1 ≤ t.rowBytes ∧ t.rowBytes ≤ 65536)

/-- The copy of a template at an INDEX (R308). -/
def CopyTmpl.plan (t : CopyTmpl) (ctx entry : Nat) (yard : Fin 8) (index : Nat) : CopyPlan :=
  let src := t.src.toNat + index * t.srcStep
  let dst := t.dst.toNat + index * t.dstStep
  { ctx := ctx, yard := yard, srcBus := false, dstBus := false,
    rows := (List.range t.rows).map fun (r : Nat) => (wrap 64 (src + r * t.srcStride), wrap 64 (dst + r * t.dstStride)),
    rowBytes := t.rowBytes, conv := t.conv.toNat, crcList := if t.crc then some t.crcList.toNat else none, template := true, entry := entry }

/-- The copy of a BTEG: each active lane copies one row (R310). -/
def CopyTmpl.gather (t : CopyTmpl) (ctx entry : Nat) (yard : Fin 8) (lanes : VReg) (active : BitVec 32) : CopyPlan :=
  { ctx := ctx, yard := yard, srcBus := false, dstBus := false,
    rows := ((List.range 32).filter active.getLsbD).map fun i =>
      (wrap 64 (t.src.toNat + lane 32 lanes.toNat i * t.srcStride), wrap 64 (t.dst.toNat + i * t.dstStride)),
    rowBytes := t.rowBytes, conv := t.conv.toNat, crcList := none, template := true, entry := entry }

/-- The yard of the core that issued a job. -/
def Job.yardOf (j : Job) : Fin 8 := ⟨j.core / 8 % 8, by omega⟩

/-- The template a copy uses: the yard's cached version, else the one in memory, which is cached (R307). -/
def State.fetchTmpl (s : State) (j : Job) (table tmpl : Nat) : State × Except CopyStop CopyTmpl :=
  let y := j.yardOf
  match s.yards[y].tmpls.find? (fun x => x.1 == j.ctx && x.2.1 == tmpl) with
  | some x => (s, .ok x.2.2)
  | none =>
    match reach s { ctx := j.ctx, path := pathBte, need := .read, cache := .yard y } [{ va := (table + 64 * tmpl) % 2 ^ 64, len := 64, unit := 4 }] with
    | (s, .error f) => (s, .error (.suspend f.1 f.2))
    | (s, .ok pas) =>
      let s := s.ordinaryRead pas.flatten
      let t := parseTmpl (pas.flatten.map s.readByte)
      let yd := s.yards[y]
      if s.eccBad pas.flatten then (s, .error (.fail 0x21))
      else ({ s with yards := s.yards.set y { yd with tmpls := (j.ctx, tmpl, t) :: yd.tmpls } }, .ok t)

/-- A job stops with a fault where it stands; its end is still to come. -/
def State.stopJob (s : State) (id : Nat) (code : BitVec 8) : State :=
  s.modJob id fun j => { j with phase := .failed code, va := 0, path := 0 }

/-- A turn of a job that reads a bank in refresh is put off until the refresh is over (R13). -/
def State.orJob (t s : State) (id : Nat) : State := if t.unserved then s.modJob id fun j => { j with holdOff := t.served } else t

/-- A job's copy has come to a point; the progress that its records report is the row and the chunks matched. -/
def State.copyAt (s : State) (id : Nat) (c : CopyRun) : State :=
  s.modJob id fun j => { j with run := some c, mpc := c.row, mpcByte := c.chunk }

/-- A copy that stops: suspended where it stands (R99), or failed, with the address of a memory fault; a mismatch or an ECC error
is logged (R53, R134). -/
def State.copyStops (s : State) (j : Job) : CopyStop → State
  | .suspend code va => s.suspendJob j.id code va pathBte
  | .fail code va =>
    let k := j.logKind
    let logged := if code = 0x24 || code = 0x21 then s.logError code.toNat k.1 k.2 j.entry else s
    (logged.stopJob j.id code).modJob j.id fun j =>
      match va with
      | some va => { j with va := BitVec.ofNat 64 va, path := pathBte }
      | none => j

/-- A stretch of a job's copy. Its conversion is captured when it begins (R93). -/
def CopyPlan.goOn (p : CopyPlan) (s : State) (j : Job) : State :=
  match (match j.run with
    | some c => (s, .ok c)
    | none => match p.beginPair s j with
      | (s, .error f) => (s, .error f)
      | (s, .ok pair) => (s, .ok { pair := pair }) : State × Except CopyStop CopyRun) with
  | (s, .error f) => s.copyStops j f
  | (s, .ok c) =>
    match p.advance (2 * p.rows.length + p.rows.length * p.rowBytes / chunkBytes + c.out.length + 8) s c (p.rows.drop c.next) none with
    | (s, c, .boundary) => s.copyAt j.id c
    | (s, c, .done) => (s.copyAt j.id c).modJob j.id fun j => { j with phase := .done }
    | (s, c, .stopped (.suspend code va)) => (s.copyAt j.id (p.rewound c)).copyStops j (.suspend code va)
    | (s, c, .stopped f) => (s.copyAt j.id c).copyStops j f

/-- The job's copy has begun and stands at a boundary. -/
def Job.copying (j : Job) : Bool := j.phase == .running && j.run.isSome

/-- The key of a job, with its number last: jobs of one entry keep their issue order (R61). -/
def State.jobKey (s : State) (j : Job) : List Nat := s.keyOf j.entry j.ready j.id

/-- A unit runs a job at a boundary that the item with a key does not precede (R64, Table 4.2). -/
def State.unitHeld (s : State) (unit : JobUnit) (key : List Nat) : Bool :=
  s.jobs.any fun x => x.unit == unit && x.copying && !(keyPrecedes key (s.jobKey x))

/-- The jobs that a unit runs yield it to a job that precedes them: they wait again with their keys and what they have done
(R64). -/
def State.yieldUnit (s : State) (unit : JobUnit) : State :=
  { s with jobs := s.jobs.map fun x => if x.unit == unit && x.copying && unit != .frontEnd then { x with phase := .queued } else x }

/-- A copy's template has passed the checks of the BTE, or stops the job (R298, R308). The captured template stays (R309). -/
def State.captureTmpl (s : State) (j : Job) (t : CopyTmpl) (ok : Bool) (go : State → State) : State :=
  let owned := t.err.all fun n => s.semOwned n j.ctx
  let s := if owned then s.modJob j.id fun j => { j with err := t.err } else s
  if !ok then s.stopJob j.id 0x02
  else if !owned then s.stopJob j.id codePermission
  else go (s.modJob j.id fun j => { j with tmpl := some t })

/-- An aperture copy runs (R306-R308). -/
def State.runTmplCopy (s : State) (j : Job) (table tmpl index : Nat) : State :=
  let go := fun (t : CopyTmpl) (s : State) => (t.plan j.ctx j.entry j.yardOf index).goOn s j
  match j.tmpl with
  | some t => go t s
  | none =>
    match s.fetchTmpl j table tmpl with
    | (s, .error f) => s.copyStops j f
    | (s, .ok t) => s.captureTmpl j t (t.ok && pairOk t.conv.toNat) (go t)

/-- A BTEG runs (R310). -/
def State.runGather (s : State) (j : Job) (t : CopyTmpl) (lanes : VReg) (active : BitVec 32) : State :=
  let go := fun (s : State) => (t.gather j.ctx j.entry j.yardOf lanes active).goOn s j
  if j.tmpl.isSome then go s else s.captureTmpl j t t.gatherOk go

/-! ### TMPLI and BTEG -/

/-- TMPLI (R309): a template, or all of the context, leaves the yard's cache. -/
def execTmpli (w : SysF) (s : State) : Result :=
  issue { op := 0xd2, ok := checkTmpli w, pred := w.pred } (fun s =>
    let y := s.yards[s.yardIdx]
    let all := nbit w.ctl.toNat 10
    let i := fld w.ctl.toNat 0 10
    let kept := y.tmpls.filter fun x => !(x.1 == s.core.ctx && (all || x.2.1 == i))
    .retire { s with yards := s.yards.set s.yardIdx { y with tmpls := kept } } {}) s

/-- Lanes of width 32 that the predicate makes active (R233, R310). -/
def gatherLanes (w : EngF) (s : State) : BitVec 32 :=
  BitVec.ofNat 32 (packLanes 1 ((List.range 32).map fun i => bit (s.core.laneActive w.pred 32 i)))

/-- BTEG (R310): its descriptor is read at issue; it runs on channel 0 of the yard (DESIGN CHOICE, log 14). A conversion byte that R224
reserves raises RESERVED_FIELD precisely (DEDUCED, log 78). -/
def execBteg (w : EngF) (s : State) : Result :=
  issue { op := 0xd1, ok := checkBteg w, pred := w.pred, perLane := true, srcs := [(w.d, false), (w.desc, w.e)], touches := true } (fun s =>
    if !clausesOwned w s then .trap s { code := codePermission }
    else
      match readCore s { va := (s.srcS w.desc).toNat, len := 64 } with
      | (u, .error f) => readStop u f
      | (u, .ok bs) =>
        let t := parseTmpl bs
        if !pairOk t.conv.toNat then .trap u { code := 0x02 }
        else
          let err := match t.err with
            | some n => if u.semOwned n u.core.ctx then some n else none
            | none => none
          (enqueueJob w u (.bteg t (u.srcV w.d) (gatherLanes w u)) (.bte u.yardIdx.val 0) err).whenServed s) s

end Sys2Proof.Machine
end

