-- ==== Sys2Proof/Machine/Kv.lean ====
section
/-! DEFINITION. Key-value state: block tables and their capture (R148-R150), blocks and their places (R146, R147), the
hand-over KVHO (R145, R151, R330) and BTINV (R331). -/

namespace Sys2Proof.Machine

/-! ### Block tables -/

/-- Block tables that the front end caches (R150). -/
def blockTabCapacity : Nat := 128

/-- A fill of the front end's cache: a read on the ORD path under no path's bit (R82, R150; DESIGN CHOICE, log 30). -/
def tableAccess (ctx : Nat) (yard : Fin 8) : Access :=
  { ctx := ctx, path := pathOrd, checkPath := false, need := .read, cache := .yard yard }

/-- Bytes of a table. -/
def readTableBytes (s : State) (a : Access) (va n : Nat) : State × Except (BitVec 8 × Nat) (List Byte) :=
  match reach s a [{ va := va, len := n }] with
  | (s, .error f) => (s, .error f)
  | (s, .ok pas) => (s.ordinaryRead pas.flatten, .ok (pas.flatten.map s.readByte))

/-- The entry of logical block `j`: the cached one, else the one in memory (R150). -/
def readSet (s : State) (a : Access) (c : BlockCache) (j : Nat) : State × Except (BitVec 8 × Nat) (BlockCache × Nat) :=
  match SMap.get none c.sets j with
  | some x => (s, .ok (c, x))
  | none =>
    match readTableBytes s a ((c.addr.toNat + 64 + 4 * j) % 2 ^ 64) 4 with
    | (s, .error f) => (s, .error f)
    | (s, .ok bs) => (s, .ok ({ c with sets := SMap.set none c.sets j (some (fromBytes bs)) }, fromBytes bs))

/-- The entries of `n` logical blocks from `j`. -/
def readSets (s : State) (a : Access) (c : BlockCache) (j : Nat) : Nat → State × Except (BitVec 8 × Nat) (BlockCache × List Nat)
  | 0 => (s, .ok (c, []))
  | n + 1 =>
    match readSet s a c j with
    | (s, .error f) => (s, .error f)
    | (s, .ok (c, x)) =>
      match readSets s a c (j + 1) n with
      | (s, .error f) => (s, .error f)
      | (s, .ok (c, xs)) => (s, .ok (c, x :: xs))

/-- The fields of a header and the entries captured with it (Table 8.1). -/
def blockTab (addr : W64) (h : List Byte) (first : Nat) (sets : List Nat) : BlockTab :=
  { addr := addr, seqLen := numAt h 4 4, layers := numAt h 8 2, heads := numAt h 0x0A 2, poolF := numAt h 0x10 8,
    poolBlocks := numAt h 0x18 4, first := first, sets := sets }

/-- The header is within its limits (R149). -/
def headerOk (h : List Byte) : Bool :=
  decide (numAt h 0 4 ≤ 65536) && decide (1 ≤ numAt h 8 2 ∧ numAt h 8 2 ≤ 256) && decide (1 ≤ numAt h 0x0A 2 ∧ numAt h 0x0A 2 ≤ 128)
    && numAt h 0x0C 4 == 0 && numAt h 0x1C 36 == 0

/-- Block `b` of a set: layer, head and kind (R147). -/
def BlockTab.block (t : BlockTab) (set_ layer head kind : Nat) : Nat :=
  set_ * (2 * t.layers * t.heads) + 2 * (layer * t.heads + head) + kind

/-- Every block of the captured sets lies in the pool: those of layers up to `layer`, heads up to `head` in the last of them (R149). -/
def BlockTab.inPool (t : BlockTab) (layer head : Nat) : Bool := t.sets.all fun x => decide (t.block x layer head 1 < t.poolBlocks)

/-- A captured entry is below NBLK and mapped (R149). -/
def setOk (h : List Byte) (j x : Nat) : Bool := decide (j < numAt h 0 4) && x != 0xFFFFFFFF

/-- The capture of a block table for logical blocks `first` to `first + n - 1` (R149); RESERVED_FIELD where it fails. -/
def capture (s : State) (ctx : Nat) (yard : Fin 8) (addr : W64) (first n : Nat) : State × Except (BitVec 8 × Nat) BlockTab :=
  let a := tableAccess ctx yard
  let mine := fun (c : BlockCache) => c.ctx == ctx && c.addr == addr
  let filled : State × Except (BitVec 8 × Nat) BlockCache :=
    match s.blockTabs.find? mine with
    | some c => (s, .ok c)
    | none =>
      match readTableBytes s a addr.toNat 64 with
      | (s, .error f) => (s, .error f)
      | (s, .ok h) => (s, .ok { ctx := ctx, addr := addr, header := h, sets := [] })
  match filled with
  | (s, .error f) => (s, .error f)
  | (s, .ok c) =>
    match readSets s a c first (if headerOk c.header then min n (numAt c.header 0 4 - first) else 0) with
    | (s, .error f) => (s, .error f)
    | (s, .ok (c, xs)) =>
      let s := { s with blockTabs := (c :: s.blockTabs.filter fun x => !(mine x)).take blockTabCapacity }
      if headerOk c.header && xs.length == n && (xs.zipIdx first).all (fun p => setOk c.header p.2 p.1)
      then (s, .ok (blockTab addr c.header first xs))
      else (s, .error (0x02, addr.toNat))

/-- The captured block set of a logical block, if the capture covers it. -/
def BlockTab.set? (t : BlockTab) (j : Nat) : Option Nat := if t.first ≤ j then t.sets[j - t.first]? else none

/-- SEQLEN becomes the maximum of its value and `n`, by an atomic of a unit for an entry, in the table and in the cached copy (R151,
R360). -/
def raiseSeqLen (s : State) (a : Access) (unit : Nat × Nat) (entry : Nat) (addr : W64) (n : Nat) : State × Option (BitVec 8 × Nat) :=
  match reach s a [{ va := (addr.toNat + 4) % 2 ^ 64, len := 4 }] with
  | (s, .error f) => (s, some f)
  | (s, .ok pas) =>
    let new := max (fromBytes (pas.flatten.map s.readByte)) n
    let s := ((s.ordinaryRead pas.flatten).logHeld pas.flatten unit.1 unit.2 entry).putBytes pas.flatten (toBytes 4 new)
    let up := fun (c : BlockCache) =>
      if c.ctx == a.ctx && c.addr == addr
      then { c with header := c.header.take 4 ++ toBytes 4 (max (numAt c.header 4 4) n) ++ c.header.drop 8 }
      else c
    ({ s with blockTabs := s.blockTabs.map up }, none)

/-! ### Blocks (R146, R147) -/

/-- Bytes of a key-value block. -/
def kvBytes : Nat := 2112

/-- The linear offset of row `r` of a placement with rows of `size` bytes from stripe unit `f` (R95). -/
def placedAt (f size r : Nat) : Nat :=
  let p := 16000 / size
  let t := r % (384 * p)
  (f + 384 * (r / (384 * p)) + t % 384) * 16000 + t / 384 * size

/-- A block as translated: the physical addresses of its bytes and the BGU that serves it. -/
structure KvPlace where
  pas : List Nat
  bgu : Nat
  deriving DecidableEq, Repr

/-- The addresses of a block that lie in one bank of one BGU, and that BGU (R147). -/
def oneBank (pas : List Nat) : Option Nat :=
  if pas.all fun pa => regionOf pa == .package then
    match pas.map fun pa => ((placeOf pa).bgu, (placeOf pa).bank) with
    | [] => none
    | x :: xs => if xs.all (· == x) then some x.1 else none
  else none

/-- Block `b` of a pool, reached on a path (R147). -/
def placeBlock (s : State) (a : Access) (t : BlockTab) (b : Nat) : State × Except CopyStop KvPlace :=
  match reach s a [{ va := placedAt t.poolF kvBytes b % 2 ^ 64, len := kvBytes, unit := 4 }] with
  | (s, .error f) => (s, .error (.suspend f.1 f.2))
  | (s, .ok pas) =>
    match oneBank pas.flatten with
    | some n => (s, .ok { pas := pas.flatten, bgu := n })
    | none => (s, .error (.fail codeMemtype (some (placedAt t.poolF kvBytes b % 2 ^ 64))))

/-! ### KVHO (R145, R151, R330) -/

/-- The INT8 scale rule on an FP16 head-row: 128 elements and the scale code (R145). -/
def kv8Row (bs : List Byte) : List Byte × Byte :=
  match quantiseBlock false ((chunks 2 bs).map fun x => fp16.decode (fromBytes x)) with
  | (code, qs, _) => (qs.map fun q => BitVec.ofNat 8 q, BitVec.ofNat 8 code)

/-- A KVHO descriptor from its 64 bytes (Table 16.6). -/
def parseKvho (bs : List Byte) : KvhoDesc :=
  { ksrc := BitVec.ofNat 64 (numAt bs 0 8), vsrc := BitVec.ofNat 64 (numAt bs 8 8), btab := BitVec.ofNat 64 (numAt bs 0x10 8),
    t0 := numAt bs 0x18 4, ntok := numAt bs 0x1C 2, layer := numAt bs 0x1E 1, head := numAt bs 0x1F 1 }

/-- The limits of a KVHO descriptor (Table 16.6). -/
def kvhoOk (bs : List Byte) (d : KvhoDesc) : Bool :=
  d.ksrc.toNat % 64 == 0 && d.vsrc.toNat % 64 == 0 && d.btab.toNat % 64 == 0 && decide (1 ≤ d.ntok ∧ d.ntok ≤ 8192)
    && decide (d.head ≤ 127) && numAt bs 0x20 32 == 0

/-- The layer and head lie in the captured table, and every touched block in the pool (R149, R330). -/
def kvhoCovered (d : KvhoDesc) (t : BlockTab) : Bool :=
  decide (d.layer < t.layers ∧ d.head < t.heads)
    && t.inPool d.layer d.head

/-- KVHO (R330): the table is captured at issue, and the job runs on channel 0 of the yard. -/
def execKvho (w : EngF) (s : State) : Result :=
  issue (reqDesc 0xd5 (checkKvho w) w [(w.desc, w.e)]) (fun s => withDesc w s fun s bs =>
    let d := parseKvho bs
    if !kvhoOk bs d then .trap s { code := 0x02 }
    else
      match capture s s.core.ctx s.yardIdx d.btab (d.t0 / 16) ((d.t0 + d.ntok - 1) / 16 - d.t0 / 16 + 1) with
      | (s, .error f) => if f.1 = 0x02 then .trap s { code := 0x02 } else .trap s (memTrap pathOrd f)
      | (s, .ok t) =>
        if !kvhoCovered d t then .trap s { code := 0x02 }
        else
          let a : Access := { ctx := s.core.ctx, path := pathBte, need := .read, cache := .yard s.yardIdx }
          withRanges s [(a, d.ksrc.toNat), (a, d.vsrc.toNat)] fun s =>
            enqueueJob w s (.kvho d t) (.bte s.yardIdx.val 0) none) s

/-- The bytes that a token writes in its block: its row, its scale code and, with the block's first token, the 48 zero bytes (R146,
R151). -/
def KvPlace.written (p : KvPlace) (u : Nat) (first : Bool) : List Nat :=
  (p.pas.drop (128 * u)).take 128 ++ (p.pas.drop (2048 + u)).take 1 ++ (if first then (p.pas.drop 2064).take 48 else [])

/-- One head-row converted and written in its block (R146, R151); bytes in a held range are discarded, and the discard logged (R56).
Units of 64 bytes of destination are charged (R69). -/
def kvPut (s : State) (j : Job) (p : KvPlace) (u : Nat) (first : Bool) (row : List Byte) : State :=
  match kv8Row row with
  | (qs, code) =>
    let pas := p.written u first
    ((s.logHeld pas 2 j.unit.logKind.2 j.entry).putBytes pas (qs ++ [code] ++ List.replicate 48 0)).chargeMeter j.entry .copy (3 + bit first)

/-- One half of a token: kind `x`, read from `src`. -/
def kvHalf (s : State) (j : Job) (d : KvhoDesc) (t : BlockTab) (i x : Nat) (src : W64) : State × Except CopyStop Unit :=
  let a : Access := { ctx := j.ctx, path := pathBte, need := .read, cache := .yard j.yardOf }
  let tok := d.t0 + i
  match reach s a [{ va := (src.toNat + 256 * i) % 2 ^ 64, len := 256, unit := 4 }] with
  | (s, .error f) => (s, .error (.suspend f.1 f.2))
  | (s, .ok pas) =>
    let s := s.ordinaryRead pas.flatten
    if s.eccBad pas.flatten then (s, .error (.fail 0x21))
    else
      match placeBlock s { a with need := .write } t (t.block ((t.set? (tok / 16)).getD 0) d.layer d.head x) with
      | (s, .error f) => (s, .error f)
      | (s, .ok p) => (kvPut s j p (tok % 16) (i == 0 || tok % 16 == 0) (pas.flatten.map s.readByte), .ok ())

/-- The last step of a KVHO: its writes are performed at memory scope, once no refresh keeps one from its array (R13), then SEQLEN is
raised (R151). -/
def State.endKvho (s : State) (j : Job) (d : KvhoDesc) (t : BlockTab) : State :=
  let a : Access := { ctx := j.ctx, path := pathBte, need := .atomic, cache := .yard j.yardOf }
  if s.drainWaits then s.modJob j.id fun j => { j with holdOff := s.beat + 1 }
  else
  match raiseSeqLen s.drainWrites a j.unit.logKind j.entry t.addr (d.t0 + d.ntok) with
  | (s, some f) => s.suspendJob j.id f.1 f.2 pathBte
  | (s, none) => s.modJob j.id fun j => { j with phase := .done }

/-- A KVHO goes on from its MPC, the next head-row in ascending order of tokens, keys before values (R151), to the next boundary of
its destination: each head-row lies in a 4 KiB block of its own (R147, Table 4.2; DEDUCED, log 62). -/
def State.runKvho (s : State) (j : Job) (d : KvhoDesc) (t : BlockTab) : State :=
  let i := j.mpc / 2
  let x := j.mpc % 2
  if d.ntok ≤ i then s.endKvho j d t
  else
    match kvHalf s j d t i x (if x = 0 then d.ksrc else d.vsrc) with
    | (s, .error f) => s.copyStops j f
    | (s, .ok ()) => s.modJob j.id fun j => { j with mpc := j.mpc + 1, run := some { pair := 0 } }

/-! ### BTINV (R150, R331) -/

/-- The block table that a job has captured. -/
def JobKind.captured : JobKind → Option W64
  | .kvho _ t => some t.addr
  | .bcall d t => if d.btab = 0 then none else some t.addr
  | _ => none

/-- Jobs of a context that captured a table and have not retired. -/
def State.holders (s : State) (ctx : Nat) (addr : W64) : List Nat :=
  (s.jobs.filter fun j => j.ctx = ctx && j.kind.captured == some addr).map (·.id)

/-- BTINV (R331): earlier stores are performed, the table leaves the cache, and a job of the front end waits for the jobs
that captured it (R150). -/
def execBtinv (w : EngF) (s : State) : Result :=
  issue (reqDesc 0xd6 (checkBtinv w) w [(w.desc, w.e)]) (fun s =>
    let addr := s.srcS w.desc
    if !clausesOwned w s then .trap s { code := codePermission }
    else if addr.toNat % 64 ≠ 0 then .trap s (memTrap pathCore (codeMisaligned, addr.toNat))
    else if Config.unitQueue ≤ s.unitLoad .frontEnd then .wait s
    else if s.drainWaits then .wait s
    else
      let s := s.drainWrites
      let ctx := s.core.ctx
      let kept := s.blockTabs.filter fun c => !(c.ctx == ctx && c.addr == addr)
      enqueueJob w { s with blockTabs := kept } (.btinv addr (s.holders ctx addr)) .frontEnd none) s

/-- A BTINV completes once every job that had captured the table has retired (R150). -/
def State.runBtinv (s : State) (j : Job) (waitFor : List Nat) : State :=
  if s.jobs.any fun x => waitFor.contains x.id then s else s.modJob j.id fun j => { j with phase := .done }

end Sys2Proof.Machine
end

