-- ==== Sys2Proof/Machine/Residue.lean ====
section
/-! DEFINITION. Residue arithmetic of the bank-group units (R122, R123, R220), poison (R131-R133), the bank error records
(R135), and the stop of a bank job (R127, R328). -/

namespace Sys2Proof.Machine

/-! ### Bank jobs and ports -/

/-- The bank job with a number. -/
def State.bankJob? (s : State) (id : Nat) : Option BankJob := s.bankJobs.find? (·.id = id)

/-- The port of a bank job on a die. -/
def BankJob.port? (b : BankJob) (die : Nat) : Option Port := b.ports.find? (·.die = die)

/-- A port written back. -/
def State.setPort (s : State) (id : Nat) (p : Port) : State :=
  s.modBank id fun b => { b with ports := b.ports.map fun x => if x.die = p.die then p else x }

/-- The BGU that issue lane `e` of MCS[d] drives (R341). -/
def bguOf (d e : Nat) : Nat := 8 * d + 4 * (e % 2) + e / 2

/-- The issue lane of its MCS that drives a BGU (R341). -/
def laneOfBgu (n : Nat) : Nat := 2 * (n % 4) + n % 8 / 4

/-! ### Residue words (R122, R220) -/

/-- The residue word of an integer (Table 7.1). -/
def residueWord (v : Int) (poison : Bool) : BitVec 40 :=
  BitVec.ofNat 40 (2 ^ 39 * bit poison + 2 ^ 25 * (v % 259).toNat + 2 ^ 16 * (v % 257).toNat + 2 ^ 8 * (v % 255).toNat + (v % 256).toNat)

/-- CrtReconstruct (R220). -/
def crtReconstruct (a b c : Nat) : Int :=
  let u := (a * 16711425 + b * 8421376 + c * 8421120) % 16776960
  if u ≤ 8388479 then u else (u : Int) - 16776960

/-- The integer of a residue word, or none where R123 finds a mismatch. -/
def residueValue (w : BitVec 40) : Option Int :=
  let n := w.toNat
  let m256 := fld n 0 8
  let m255 := fld n 8 8
  let m257 := fld n 16 9
  let m259 := fld n 25 9
  if fld n 34 5 ≠ 0 ∨ 254 < m255 ∨ 256 < m257 ∨ 258 < m259 then none
  else
    let v := crtReconstruct m256 m255 m257
    if (v % 259).toNat = m259 then some v else none

/-- The term that a block adds: ScaleExp2(ToFP32(v), x), or a quiet NaN under a scale code of 0xFF (R123). -/
def blockTerm (v : Int) (cw ca : Byte) (k4 : Bool) : W32 :=
  if cw = 0xFF ∨ ca = 0xFF then nanFP32
  else (scaleExp2 (toFP32 v) ((cw.toNat : Int) - 127 + ((ca.toNat : Int) - 127) - (if k4 then 1 else 0))).1

/-! ### Row slots -/

/-- A lane of a port. -/
def Port.lane (p : Port) (e : Nat) : Lane := vget {} p.lanes e

def Port.setLane (p : Port) (e : Nat) (l : Lane) : Port := { p with lanes := vset p.lanes e l }

/-- A row slot of a lane. -/
def Lane.slot (l : Lane) (q : Nat) : RowSlot := vget {} l.slots q

def Lane.setSlot (l : Lane) (q : Nat) (x : RowSlot) : Lane := { l with slots := vset l.slots q x }

/-- An accumulator with its poison flag. -/
def Port.acc (p : Port) (e q b : Nat) : W32 × Bool := vget (0, false) ((p.lane e).slot q).acc b

def Port.setAcc (p : Port) (e q b : Nat) (x : W32 × Bool) : Port :=
  let l := p.lane e
  let r := l.slot q
  p.setLane e (l.setSlot q { r with acc := vset r.acc b x })

/-! ### Poison events (R132, R135) -/

/-- A memory-command sequencer. -/
def State.mcsAt (s : State) (d : Nat) : Mcs := vget {} s.mcs d

def State.setMcs (s : State) (d : Nat) (m : Mcs) : State := { s with mcs := vset s.mcs d m }

/-- Where a poison event came about. -/
structure PoisonAt where
  die : Nat
  bgu : Nat
  bank : Nat
  rho : Nat
  dramRow : Nat
  block : Nat
  entry : Nat

/-- A poison event: POISON_EVENTS rises by the pairs newly poisoned, one error is charged, and one bank error record and
one global error record are logged (R132). -/
def State.poisonEvent (s : State) (x : PoisonAt) (code lane pairs : Nat) : State :=
  let m := s.mcsAt x.die
  let rec_ : BankErr :=
    { fault := code, lane := lane, bgu := x.bgu, bank := x.bank, die := x.die, resRow := x.rho % 65536, dramRow := x.dramRow,
      block := x.block, entry := x.entry, beat := s.beat }
  let m := { m with poisonEvents := min (m.poisonEvents + pairs) 4095, log := vset m.log m.logNext (some rec_),
                    logNext := (m.logNext + 1) % 16 }
  ((s.setMcs x.die m).chargeFault x.entry code).logError code 4 x.bgu x.entry

/-- Where a block's event belongs. -/
def Block.at_ (x : Block) (p : Port) (entry : Nat) : PoisonAt :=
  { die := p.die, bgu := bguOf p.die x.lane, bank := x.bank, rho := ((p.lane x.lane).slot x.slot).rho, dramRow := x.dramRow,
    block := x.index, entry := entry }

/-- The accumulators of some blocks poisoned. -/
def Port.poison (p : Port) (xs : List Block) : Port :=
  xs.foldl (fun p x => p.setAcc x.lane x.slot x.batch ((p.acc x.lane x.slot x.batch).1, true)) p

/-- The oldest finished reduction block of a port is checked, converted and accumulated (R123). An uncorrectable error is
one event of the row slot, so the other batch lanes of its block, which stand behind it, are taken with it (R132). -/
def State.convertOldest (s : State) (p : Port) (entry : Nat) : State × Port :=
  match p.blocks with
  | [] => (s, p)
  | x :: rest =>
    if x.word.getLsbD 39 then
      let same := fun (y : Block) => y.lane = x.lane && y.slot = x.slot && y.index = x.index && y.word.getLsbD 39
      let fresh := (x :: (rest.take 3).filter same).filter fun y => !(p.acc y.lane y.slot y.batch).2
      let q := { p.poison fresh with blocks := ((rest.take 3).filter fun y => !(same y)) ++ rest.drop 3 }
      if fresh.isEmpty then (s, q) else (s.poisonEvent (x.at_ p entry) 0x21 0xFF fresh.length, q)
    else
      let a := p.acc x.lane x.slot x.batch
      let q := { p with blocks := rest }
      if a.2 then (s, q)
      else
        match residueValue x.word with
        | none => (s.poisonEvent (x.at_ p entry) 0x20 x.batch 1, q.poison [x])
        | some v => (s, q.setAcc x.lane x.slot x.batch ((addFP32 a.1 (blockTerm v x.cw x.ca x.k4)).1, false))

/-- Every finished block of a port converted; `fuel` blocks at most. -/
def State.convertAll (s : State) (entry : Nat) : Nat → Port → State × Port
  | 0, p => (s, p)
  | fuel + 1, p =>
    match s.convertOldest p entry with
    | (s, p) => s.convertAll entry fuel p

/-- Every finished block of every port of a job converted: the words before a stop complete (R127). -/
def State.settlePorts (s : State) (id entry : Nat) : State :=
  match s.bankJob? id with
  | none => s
  | some b => b.ports.foldl (fun s p =>
      match s.convertAll entry p.blocks.length p with
      | (s, p) => s.setPort id p) s

/-! ### The end of a bank job -/

/-- The MCSs give up a job. -/
def State.freeMcs (s : State) (id : Nat) : State :=
  { s with mcs := s.mcs.map fun m => if m.holder = some id then { m with holder := none } else m }

/-- A bank job ended with a fault; its slot keeps it for BSTAT (R329). -/
def BankJob.stopped (b : BankJob) (code : BitVec 8) (die : Nat) : BankJob :=
  { b with ended := true, fault := code, faultPort := die,
           ports := b.ports.map fun p => if p.die = die then { p with stopped := some code, take := none } else { p with take := none } }

/-- A port stops its job (R127, R328): the words before complete, the stop is logged, the takes of the other ports are
withdrawn, the error semaphore is signalled once, no signal is given and no tag set, and the entry ends FAILED. -/
def State.stopBank (s : State) (id die : Nat) (code : BitVec 8) : State :=
  match s.job? id with
  | none => s
  | some j =>
    let s := (s.settlePorts id j.entry).logError code.toNat 3 die j.entry
    let ports := (s.bankJobs.filter (·.id = id)).flatMap (·.ports)
    let s := ports.foldl (fun s p => s.dropTake? p.take) s
    let s := ((s.releaseRefs id).modBank id fun b => b.stopped code die).freeMcs id
    (((s.signalErr j).leaveTag j true).removeJob j).failEntry j.entry code

end Sys2Proof.Machine
end

