-- ==== Sys2Proof/Machine/Layout.lean ====
section
/-! DEFINITION. The layout engine: INGEST bodies (R136), compressed pages and coded sources (R89, R90, R138, R139), MXFP4 to
K4 (R140), and the placement of rows (R95, R137). -/

namespace Sys2Proof.Machine

/-! ### Handles (R51) -/

/-- A range lies within a handle. -/
def Handle.covers (h : Handle) (off n : Nat) : Bool := decide (off + n ≤ h.len)

/-! ### INGEST bodies (Table 7.5) -/

/-- The body of an INGEST record, from its 64 bytes. -/
def parseIngest (bs : List Byte) (resultAt : W64) : IngestRec :=
  let fl := numAt bs 0x2E 1
  { src := BitVec.ofNat 32 (numAt bs 8 4), dst := BitVec.ofNat 32 (numAt bs 0x0C 4), srcOff := numAt bs 0x10 8,
    dstOff := numAt bs 0x18 8, rows := numAt bs 0x20 4, elems := numAt bs 0x24 4, sfmt := numAt bs 0x28 1,
    dfmt := numAt bs 0x29 1, expert := if numAt bs 0x2A 2 = 0xFFFF then none else some (numAt bs 0x2A 2),
    sig := if nbit fl 0 then some (numAt bs 0x2C 1) else none, err := if nbit fl 1 then some (numAt bs 0x2D 1) else none,
    defer := nbit fl 2, codetab := BitVec.ofNat 64 (numAt bs 0x30 8), resultAt := resultAt }

/-- The source is coded (SFMT 2 or 4). -/
def IngestRec.coded (r : IngestRec) : Bool := r.sfmt == 2 || r.sfmt == 4

/-- Bytes of a source row (R136). -/
def IngestRec.srcRow (r : IngestRec) : Nat :=
  if r.sfmt = 0 then r.elems else if r.sfmt ≤ 2 then r.elems / 256 * 129 else r.elems / 32 * 17

/-- Bytes of a placed row (R136). -/
def IngestRec.row (r : IngestRec) : Nat := if r.dfmt = 1 then r.elems / 256 * 129 else r.srcRow

/-- Rows in one stripe unit (R95). -/
def IngestRec.perUnit (r : IngestRec) : Nat := 16000 / r.row

/-- Stripe units of the placement (R136). -/
def IngestRec.units (r : IngestRec) : Nat := ceilDiv r.rows (384 * r.perUnit) * 384

/-- ROWELEMS is within the limits of its formats. -/
def IngestRec.elemsOk (r : IngestRec) : Bool :=
  if r.sfmt = 0 then decide (1 ≤ r.elems ∧ r.elems ≤ 16000)
  else if r.sfmt ≤ 2 then decide (r.elems ≠ 0) && r.elems % 256 == 0
  else decide (r.elems ≠ 0) && r.elems % 32 == 0 && (r.dfmt == 0 || r.elems % 256 == 0)

/-- The fields of a body that stand alone (R136). -/
def ingestFieldsOk (bs : List Byte) (r : IngestRec) (paging : Bool) : Bool :=
  decide (1 ≤ r.rows ∧ r.rows ≤ 2 ^ 24) && decide (r.sfmt ≤ 4) && (r.dfmt == 0 || (r.dfmt == 1 && decide (3 ≤ r.sfmt)))
    && r.elemsOk && decide (1 ≤ r.row ∧ r.row ≤ 16000) && (!r.coded || r.srcOff % 64 == 0)
    && (match r.expert with
        | some x => decide (x < 4096) && paging
        | none => true)
    && decide (numAt bs 0x2E 1 < 8) && numAt bs 0x2F 1 == 0
    && (if r.coded then r.codetab.toNat % 64 == 0 else r.codetab == 0)

/-- The ranges and permissions of the handles (R51, R136). -/
def IngestRec.rangesOk (r : IngestRec) (src dst : Handle) : Bool :=
  src.canRead && dst.canWrite && !dst.bus && (!r.coded || src.bus) && dst.covers r.dstOff (16000 * r.units)
    && (r.coded || src.covers r.srcOff (r.rows * r.srcRow))

/-- The expert is owned by another live context (R142). -/
def State.expertTaken (s : State) (ctx : Nat) (r : IngestRec) : Bool :=
  match r.expert with
  | some x =>
    let e := SMap.get ({} : Expert) s.experts x
    e.state != 0 && e.owner != ctx && (s.ctxAt e.owner).live
  | none => false

/-! ### The prefix code (R139) -/

/-- A code: its length, its bits as a number, and its symbol. -/
structure Code where
  len : Nat
  code : Nat
  sym : Nat
  deriving DecidableEq, Repr

/-- Length of each symbol's code: two to a byte, the even symbol in the low half (R139). -/
def codeLengths (table : List Byte) : List Nat := nibbles (table.take 128)

/-- Codes assigned to symbols in order of length, then of value (R139). -/
def assignCodes : Nat → Nat → List (Nat × Nat) → List Code
  | _, _, [] => []
  | prev, len, (l, s) :: rest =>
    let c := prev * 2 ^ (l - len)
    { len := l, code := c, sym := s } :: assignCodes (c + 1) l rest

/-- The code of a table, or none where R139 fails it: all lengths zero, or lengths that overfill the code space. -/
def canonicalCode (table : List Byte) : Option (List Code) :=
  let used := ((codeLengths table).zipIdx).filter fun x => x.1 ≠ 0
  let load : Nat := (used.map fun x => 2 ^ (15 - x.1)).foldl (· + ·) 0
  if used.isEmpty ∨ 2 ^ 15 < load then none
  else some (assignCodes 0 0 (sortBy (fun a b => decide (a.1 < b.1) || (a.1 == b.1 && decide (a.2 < b.2))) used))

/-- Bits of bytes, each from bit 7 to bit 0 (R139). -/
def bitsOf (bs : List Byte) : List Bool := bs.flatMap fun b => (List.range 8).map fun i => b.getLsbD (7 - i)

/-- Bits read as a number, the first of them the highest. -/
def bitsNat (bs : List Bool) : Nat := bs.foldl (fun n b => 2 * n + bit b) 0

/-- The code that some bits begin with. -/
def matchCode (codes : List Code) (bits : List Bool) : Option Code :=
  codes.find? fun c => decide (c.len ≤ bits.length) && bitsNat (bits.take c.len) == c.code

/-- `n` symbols from bits: the symbols, and the bits left. -/
def decodeSymbols (codes : List Code) : Nat → List Bool → Option (List Byte × List Bool)
  | 0, bits => some ([], bits)
  | n + 1, bits =>
    match matchCode codes bits with
    | none => none
    | some c => (decodeSymbols codes n (bits.drop c.len)).map fun r => (BitVec.ofNat 8 c.sym :: r.1, r.2)

/-- A block of 4,096 bytes from its SIZE bytes as stored, or none where R139 fails it; a bad table fails an uncoded block too
(DEDUCED, log 68). -/
def decodeBlock (table data : List Byte) : Option (List Byte) :=
  match canonicalCode table with
  | none => none
  | some codes =>
    if data.length = 4096 then some data
    else
      match decodeSymbols codes 4096 (bitsOf data) with
      | some (bs, rest) => if rest.length < 8 ∧ rest.all (· == false) then some bs else none
      | none => none

/-! ### Sidecar lines (R90, Table 5.6) -/

/-- SIZE[i] of a line, with its reserved bits. -/
def lineSize (line : List Byte) (i : Nat) : Nat := numAt line (2 * i) 2

/-- SIZE[i] is 1 to 4,096 and its reserved bits are zero. -/
def lineSizeOk (line : List Byte) (i : Nat) : Bool := decide (1 ≤ lineSize line i ∧ lineSize line i ≤ 4096)

/-- Bytes before block `i`. -/
def lineOffset (line : List Byte) (i : Nat) : Nat := ((List.range i).map (lineSize line)).foldl (· + ·) 0

/-- A whole line: sizes, reserved bytes, and the sum (R90). -/
def lineOk (line : List Byte) : Bool :=
  (List.range 16).all (lineSizeOk line) && numAt line 0x28 24 == 0 && decide (lineOffset line 16 ≤ 65536)

/-! ### Reading sources (R137, R138) -/

/-- Who a placement works for: the context of its addresses, the entry that it charges and logs, and the work that it is, a job or a fetch
by its order. -/
structure LayoutFor where
  ctx : Nat
  entry : Nat
  work : Nat := 0
  deriving DecidableEq, Repr

/-- An access on the LAYOUT path (DESIGN CHOICE, log 38). -/
def LayoutFor.access (w : LayoutFor) (need : Need) : Access := { ctx := w.ctx, path := pathLayout, need := need, cache := .yard 0 }

/-- How the uncompressed block `i` of a compressed page is had: from the page's address, its frame and `i`. -/
abbrev BlockReader := State → Nat → Nat → Nat → State × Except CopyStop (List Byte)

/-- Pieces of a range of the context, whose compressed pages read as their uncompressed view (R89, R138). -/
def viewPieces (block : BlockReader) (s : State) (w : LayoutFor) : List (Nat × Nat) → State × Except CopyStop (List Byte)
  | [] => (s, .ok [])
  | (va, n) :: rest =>
    match translate s (w.access .read) va with
    | (s, .error code) => (s, .error (.suspend code va))
    | (s, .ok (pa, t)) =>
      let here : State × Except CopyStop (List Byte) :=
        if pteComp t.leaf.toNat = 1 then
          match block s t.va t.pa ((va - t.va) / 4096) with
          | (s, .error f) => (s, .error f)
          | (s, .ok bs) => (s, .ok ((bs.drop (va % 4096)).take n))
        else (s.ordinaryRead (upFrom pa n), .ok (s.readBytes pa n))
      match here with
      | (s, .error f) => (s, .error f)
      | (s, .ok bs) =>
        match viewPieces block s w rest with
        | (s, .error f) => (s, .error f)
        | (s, .ok more) => (s, .ok (bs ++ more))

/-- The work of a sidecar line goes on: its job is there, or its fetch runs. -/
def State.atWork (s : State) (work : Nat) : Bool :=
  s.jobs.any (·.id == work) || s.experts.any fun x => x.2.state == expertFetching && x.2.order == work

/-- A sidecar line is kept for its work; those of work that has ended are forgotten. -/
def State.keepSidecar (s : State) (x : Sidecar) : State :=
  { s with sidecars := x :: s.sidecars.filter fun y => s.atWork y.work }

/-- Work that is suspended reads its lines again when it resumes (R99). -/
def State.dropSidecars (s : State) (work : Nat) : State := { s with sidecars := s.sidecars.filter fun y => y.work != work }

/-- The sidecar line of a page and its code table, fetched on the first access of the work to the page (R90; DESIGN CHOICE, log 94: the
table is kept with the line). A line outside the limits of R90 fails the work, as does a CODETAB that is not 64-byte aligned (DESIGN
CHOICE, log 95: Table 5.6 states the alignment, and no rule names the fault). -/
def sidecarOf (block : BlockReader) (s : State) (w : LayoutFor) (page : Nat) : State × Except CopyStop (List Byte × List Byte) :=
  match s.sidecars.find? fun x => x.work = w.work && x.page = page with
  | some x => (s, .ok (x.line, x.table))
  | none =>
    let c := s.ctxAt w.ctx
    match viewPieces block s w (piecesOf ((c.sidecar + (page - c.compBase) / 65536 * 64) % 2 ^ 64) 64) with
    | (s, .error f) => (s, .error f)
    | (s, .ok line) =>
      let tab := numAt line 0x20 8
      if !lineOk line || tab % 64 != 0 then (s, .error (.fail 0x02))
      else
        match viewPieces block s w (piecesOf tab 128) with
        | (s, .error f) => (s, .error f)
        | (s, .ok table) => (s.keepSidecar { work := w.work, page := page, line := line, table := table }, .ok (line, table))

/-- How deep compressed pages may name one another as the pages of their sidecar lines and tables (DESIGN CHOICE, log 94). -/
def sidecarDepth : Nat := 8

/-- The uncompressed block `i` of a compressed page (R89, R90, R139). -/
def compressedBlock (w : LayoutFor) : Nat → BlockReader
  | 0, s, _, _, _ => (s, .error (.fail 0x02))
  | depth + 1, s, page, frame, i =>
    match sidecarOf (compressedBlock w depth) s w page with
    | (s, .error f) => (s, .error f)
    | (s, .ok (line, table)) =>
      let pas := upFrom (frame + lineOffset line i) (lineSize line i)
      match decodeBlock table (pas.map s.readByte) with
      | some bs => (s.ordinaryRead pas, .ok bs)
      | none => (s.ordinaryRead pas, .error (.fail 0x02))

/-- Bytes of a range of the context on the LAYOUT path (R89, R137, R138). -/
def layoutPieces (s : State) (w : LayoutFor) (pieces : List (Nat × Nat)) : State × Except CopyStop (List Byte) :=
  viewPieces (compressedBlock w sidecarDepth) s w pieces

/-- Bytes on the bus, within the handle; SOURCE_READ for an error status (R137), PERMISSION past the handle (R51). -/
def layoutBus (s : State) (h : Handle) (off n : Nat) : Except CopyStop (List Byte) :=
  if !h.covers off n then .error (.fail codePermission)
  else if s.busError (h.base + off) n then .error (.fail 0x25)
  else .ok (s.readBus (h.base + off) n)

/-- The offset of extent `k` of a coded source on the bus (R138): extents follow at 64-byte boundaries, of the handle's offsets (DESIGN
CHOICE, log 96: the spec says neither this nor that they are those of bus addresses, and Table 3.8 aligns no BASE). -/
def extentAt (s : State) (h : Handle) (off : Nat) : Nat → Except CopyStop Nat
  | 0 => .ok off
  | k + 1 =>
    match layoutBus s h off 64 with
    | .error f => .error f
    | .ok line =>
      if !lineOk line then .error (.fail 0x02)
      else extentAt s h (ceilDiv (off + 64 + lineOffset line 16) 64 * 64) k

/-- Block `b` of a coded source on the bus. -/
def extentBlock (s : State) (h : Handle) (off : Nat) (table : List Byte) (b : Nat) : Except CopyStop (List Byte) :=
  match extentAt s h off (b / 16) with
  | .error f => .error f
  | .ok at_ =>
    match layoutBus s h at_ 64 with
    | .error f => .error f
    | .ok line =>
      if !((List.range (b % 16 + 1)).all (lineSizeOk line) && numAt line 0x28 24 == 0) then .error (.fail 0x02)
      else
        match layoutBus s h (at_ + 64 + lineOffset line (b % 16)) (lineSize line (b % 16)) with
        | .error f => .error f
        | .ok data =>
          match decodeBlock table data with
          | some bs => .ok bs
          | none => .error (.fail 0x02)

/-- Bytes of a coded source on the bus, block by block. -/
def extentPieces (s : State) (h : Handle) (off : Nat) (table : List Byte) : List (Nat × Nat) → Except CopyStop (List Byte)
  | [] => .ok []
  | (a, n) :: rest =>
    match extentBlock s h off table (a / 4096) with
    | .error f => .error f
    | .ok bs =>
      match extentPieces s h off table rest with
      | .error f => .error f
      | .ok more => .ok ((bs.drop (a % 4096)).take n ++ more)

/-- Source row `i` of a record, decoded. -/
def readSourceRow (s : State) (w : LayoutFor) (r : IngestRec) (h : Handle) (i : Nat) : State × Except CopyStop (List Byte) :=
  let at_ := i * r.srcRow
  if r.coded then
    match layoutPieces s w (piecesOf r.codetab.toNat 128) with
    | (s, .error f) => (s, .error f)
    | (s, .ok table) => (s, extentPieces s h r.srcOff table (piecesOf at_ r.srcRow))
  else if h.bus then (s, layoutBus s h (r.srcOff + at_) r.srcRow)
  else layoutPieces s w (piecesOf ((h.base + r.srcOff + at_) % 2 ^ 64) r.srcRow)

/-! ### MXFP4 to K4 (R140) -/

/-- Eight MX blocks become one K4 block; the second part counts a block whose scale is clamped. -/
def mxToK4 (bs : List Byte) : List Byte × Nat :=
  let xs := (chunks 17 bs).flatMap fun b => (nibbles (b.take 16)).map (blockValue true (b.getD 16 0).toNat)
  let e := scaleExp true (amaxOf xs)
  let counted := !(xs.any Num.isNan) && !(amaxOf xs).isZero && decide (e < -127 ∨ 127 < e)
  match quantiseBlock true xs with
  | (scale, q, _) => (packNibbles q ++ [BitVec.ofNat 8 scale], bit counted)

/-- A row as it is placed, and the blocks counted in it. -/
def IngestRec.convert (r : IngestRec) (bs : List Byte) : List Byte × Nat :=
  if r.dfmt = 1 then
    let ks := (chunks 136 bs).map mxToK4
    (ks.flatMap (·.1), (ks.map (·.2)).foldl (· + ·) 0)
  else (bs, 0)

/-! ### Placement (R95, R137) -/

/-- Row slots of the placement, occupied or not. -/
def IngestRec.slots (r : IngestRec) : Nat := r.units * r.perUnit

/-- Items of a placement in order: its row slots, then the tail of each stripe unit. -/
def IngestRec.items (r : IngestRec) : Nat := r.slots + r.units

/-- The linear offset of item `m`, and its length, for a placement from stripe unit `f` (DEDUCED, log 35). -/
def IngestRec.item (r : IngestRec) (f m : Nat) : Nat × Nat :=
  if m < r.slots then (placedAt f r.row m, r.row)
  else ((f + (m - r.slots)) * 16000 + r.perUnit * r.row, 16000 - r.perUnit * r.row)

/-- Bytes written at the destination: every page continues the linear offsets of the first (R137). A page of COMP = 1 takes the bytes as
they are into its frame (DESIGN CHOICE, log 97: R89 speaks of reads and of other paths). -/
def placeBytes (s : State) (w : LayoutFor) (va l : Nat) (bs : List Byte) : State × Option CopyStop :=
  match reach s (w.access .write) [{ va := va % 2 ^ 64, len := bs.length }] with
  | (s, .error f) => (s, some (.suspend f.1 f.2))
  | (s, .ok pas) =>
    if pas.flatten = upFrom l bs.length then
      ((s.logHeld pas.flatten 5 0 w.entry) |> fun s => (pas.flatten.zip bs).foldl (fun s p => s.writeArray p.1 p.2) s, none)
    else (s, some (.fail codeMemtype (some (va % 2 ^ 64))))

/-- The first stripe unit of a placement: the linear offset of the destination's first byte must be a multiple of 16,000
(Table 7.5; DEDUCED, log 36). -/
def firstUnit (s : State) (w : LayoutFor) (va : Nat) : State × Except CopyStop Nat :=
  match reach s { w.access .write with probe := true } [{ va := va % 2 ^ 64, len := 1 }] with
  | (s, .error f) => (s, .error (.suspend f.1 f.2))
  | (s, .ok pas) =>
    let l := pas.flatten.headD 0
    if regionOf l = .package ∧ l % 16000 = 0 then (s, .ok (l / 16000)) else (s, .error (.fail codeMemtype (some (va % 2 ^ 64))))

/-- A placement as it runs: the next item, the blocks counted in the items before it (R140), of an item that has begun how many of its
bytes are written and those that are still to be, and the stripe unit in which it begins, once it has been found. -/
structure Placing where
  item : Nat
  counted : Nat
  out : List OutRow := []
  first : Option Nat := none

/-- How a stretch of a placement ends: at another 4 KiB block of its destination (R52, Table 4.2), after its last item, or stopped. -/
structure Stretch where
  s : State
  at_ : Placing
  how : CopyEnd

/-- An item as it is to be written, from byte `done` on: a row read and converted whole, or padding. -/
def readItem (s : State) (w : LayoutFor) (r : IngestRec) (src : Handle) (base f m done : Nat) : State × Except CopyStop OutRow :=
  let l := r.item f m
  let row := fun (bs : List Byte) (c : Nat) =>
    ({ row := m, va := base + (l.1 - f * 16000) + done, done := done, bytes := bs.drop done, clamped := c } : OutRow)
  if m < r.rows then
    match readSourceRow s w r src m with
    | (s, .error e) => (s, .error e)
    | (s, .ok bs) => (s, .ok (row (r.convert bs).1 (r.convert bs).2))
  else (s, .ok (row (List.replicate l.2 0) 0))

/-- What a suspended placement keeps of the item it has begun: its position, and the rest of a K4 block that is written in part, whose
elements and scale come of one reading (R99, R225). -/
def Placing.kept (p : Placing) (r : IngestRec) : Placing :=
  let g := if r.dfmt = 1 then 129 else 1
  { p with out := (p.out.filter (·.done ≠ 0)).map fun o => { o with bytes := o.bytes.take ((g - o.done % g) % g) } }

/-- A placement goes on until its destination comes to another 4 KiB block than `page`: the items in order, each read and converted
whole before its bytes are written (R52, R69, R95, R137). -/
def placeStretch (w : LayoutFor) (r : IngestRec) (src : Handle) (base f : Nat) : Nat → State → Placing → Option Nat → Stretch
  | 0, s, p, _ => { s := s, at_ := p, how := .boundary }
  | fuel + 1, s, p, page =>
    let next := { p with item := p.item + 1, out := [] }
    match p.out.find? (!·.bytes.isEmpty) with
    | some o =>
      if page.any (· != o.va / 4096) then { s := s, at_ := p, how := .boundary }
      else
        let k := min o.bytes.length (4096 - o.va % 4096)
        match placeBytes s w o.va (f * 16000 + (o.va - base)) (o.bytes.take k) with
        | (s, some e) => { s := s, at_ := p.kept r, how := .stopped e }
        | (s, none) =>
          let s := if p.item < r.rows then s.chargeMeter w.entry .copy (ceilDiv (o.done + k) 64 - ceilDiv o.done 64) else s
          placeStretch w r src base f fuel s
            (if (r.item f p.item).2 ≤ o.done + k then { next with counted := p.counted + o.clamped }
              else { p with out := [{ o with va := o.va + k, done := o.done + k, bytes := o.bytes.drop k }] }) (some (o.va / 4096))
    | none =>
      if r.items ≤ p.item then { s := s, at_ := p, how := .done }
      else if (r.item f p.item).2 = 0 then placeStretch w r src base f fuel s next page
      else
        match readItem s w r src base f p.item ((p.out.head?.map (·.done)).getD 0) with
        | (s, .error e) => { s := s, at_ := p, how := .stopped e }
        | (s, .ok o) => placeStretch w r src base f fuel s { p with out := [o] } page

/-- A stretch of a record's placement; a stale handle fails it (R142). -/
def placeOn (s : State) (w : LayoutFor) (r : IngestRec) (p : Placing) : Stretch :=
  match (s.ctxAt w.ctx).handle? r.src, (s.ctxAt w.ctx).handle? r.dst with
  | some src, some dst =>
    let go := fun (s : State) (f : Nat) =>
      placeStretch w r src (dst.base + r.dstOff) f (4 * (r.items - p.item) + 8) s { p with first := some f } none
    match p.first with
    | some f => go s f
    | none =>
      match firstUnit s w (dst.base + r.dstOff) with
      | (s, .error e) => { s := s, at_ := p, how := .stopped e }
      | (s, .ok f) => go s f
  | _, _ => { s := s, at_ := p, how := .stopped (.fail 0x41) }

/-- RESULT of an INGEST (Table 7.5). -/
def ingestResult (rows counted : Nat) : W64 := BitVec.ofNat 64 (rows % 2 ^ 32 + 2 ^ 32 * min counted 0xFFFF)

end Sys2Proof.Machine
end

