-- ==== Sys2Proof/Machine/Experts.lean ====
section
/-! DEFINITION. The expert directory: registration (R141, R142), fetches (R143), waits (R144), EXPF and EXPQ (R332), and the
jobs of the layout engine (R136, R137, R333). -/

namespace Sys2Proof.Machine

/-- Two placements share a stripe unit. -/
def Expert.overlaps (a b : Expert) : Bool :=
  decide (a.firstUnit < b.firstUnit + b.units ∧ b.firstUnit < a.firstUnit + a.units)

/-- The fetch of an expert may go on: it waits for no read, and no other overlapping entry holds references or is fetched by an earlier
fetch (R13, R143 step 2). -/
def State.fetchClear (s : State) (x : Nat) : Bool :=
  let e := s.expert x
  e.state == expertFetching && !e.suspended && decide (e.holdOff ≤ s.beat) && s.experts.all fun y =>
    y.1 == x || !(y.2.overlaps e) || (y.2.refs == 0 && (y.2.state != expertFetching || decide (e.order < y.2.order)))

/-- Overlapping residents become ABSENT (R143 step 3). -/
def State.evictOver (s : State) (x : Nat) : State :=
  let e := s.expert x
  { s with experts := s.experts.map fun (y : Nat × Expert) =>
      if y.1 ≠ x && y.2.overlaps e && y.2.state = expertResident then (y.1, { y.2 with state := expertAbsent }) else y }

/-- References taken by the jobs that wait, in the order of suspension, while REFS stays at most 65,535 (R143 step 5). -/
def State.admitWaiters (s : State) (x : Nat) : Nat → State
  | 0 => s
  | fuel + 1 =>
    let e := s.expert x
    match e.waiting with
    | w :: _ => if e.refs < 65535 then (s.takeRef x w.1).admitWaiters x fuel else s
    | [] => s

/-! ### Jobs of the layout engine (R137, R333) -/

/-- Rows that a record reports: none for a registration that defers its fetch (DEDUCED, log 46). -/
def IngestRec.placed (r : IngestRec) : Nat := if r.expert.isSome && r.defer then 0 else r.rows

/-- The rows of a job are placed: an LXJOB writes RESULT into its descriptor on the LAYOUT path (R333). -/
def State.finishLayout (s : State) (id : Nat) (r : IngestRec) (resultAt : W64) : State :=
  match s.job? id with
  | none => s
  | some j =>
    if j.cont = 0 then s.modJob id fun j => { j with phase := .done }
    else
      let w : LayoutFor := { ctx := j.ctx, entry := j.entry }
      match reach s (w.access .write) [{ va := resultAt.toNat, len := 8 }] with
      | (s, .error f) => s.suspendJob id f.1 f.2 pathLayout
      | (s, .ok pas) =>
        ((s.logHeld pas.flatten 5 0 j.entry).putBytes pas.flatten (toBytes 8 (ingestResult r.placed j.mpcByte).toNat)).modJob id fun j =>
          { j with phase := .done }

/-- A registration of the expert must wait (R142). -/
def State.registrationWaits (s : State) (r : IngestRec) : Bool :=
  match r.expert with
  | some x => (s.expert x).state == expertFetching || (s.expert x).refs != 0
  | none => false

/-- An expert is registered by a record or an LXJOB (R142): the kept body, the owner and the placement. -/
def State.register (s : State) (j : Job) (r : IngestRec) (resultAt : W64) (x f : Nat) : State :=
  let e := s.expert x
  let s := s.setExpert x { e with state := expertAbsent, owner := j.ctx, units := r.units, firstUnit := f, body := some r }
  if r.defer then (s.modJob j.id fun j => { j with mpc := r.items }).finishLayout j.id r resultAt
  else (s.startFetch x j.entry (some j.id)).modJob j.id fun j => { j with phase := .running }

/-- What stops a job of the layout engine: it is suspended (R99), or it fails (R137), with the address of a memory fault. -/
def State.layoutStops (s : State) (id : Nat) : CopyStop → State
  | .suspend code va => (s.dropSidecars id).suspendJob id code va pathLayout
  | .fail code none => s.stopJob id code
  | .fail code (some va) => (s.stopJob id code).modJob id fun j => { j with va := BitVec.ofNat 64 va, path := pathLayout }

/-- A job of the layout engine goes on from its MPC, the next item of its placement, to a 4 KiB boundary or its end (R52, R137,
R142). -/
def State.runLayout (s : State) (j : Job) (r : IngestRec) (resultAt : W64) : State :=
  let w : LayoutFor := { ctx := j.ctx, entry := j.entry, work := j.id }
  if r.items ≤ j.mpc then s.finishLayout j.id r resultAt
  else
    match r.expert with
    | some x =>
      match (s.ctxAt j.ctx).handle? r.dst with
      | none => s.stopJob j.id 0x41
      | some dst =>
        match firstUnit s w (dst.base + r.dstOff) with
        | (s, .error e) => s.layoutStops j.id e
        | (s, .ok f) => s.register j r resultAt x f
    | none =>
      let x := placeOn s w r { item := j.mpc, counted := j.mpcByte, out := (j.run.map (·.out)).getD [], first := j.run.bind (·.first) }
      let s := x.s.modJob j.id fun j =>
        { j with mpc := x.at_.item, mpcByte := x.at_.counted, run := some { pair := 0, out := x.at_.out, first := x.at_.first } }
      match x.how with
      | .boundary => s
      | .done => s.finishLayout j.id r resultAt
      | .stopped e => s.layoutStops j.id e

/-- A source on the bus lies in a peer's window. -/
def State.peerSource (s : State) (h : Handle) (off n : Nat) : Bool :=
  h.bus && s.env.peers.any fun r => decide (r.1 < h.base + off + n ∧ h.base + off < r.1 + r.2)

/-- Bytes of the source that a peer check covers. -/
def IngestRec.srcSpan (r : IngestRec) (h : Handle) : Nat := if r.coded then h.len - r.srcOff else r.rows * r.srcRow

/-- LXJOB (R333): an INGEST record as a descriptor, checked precisely, and a job of the layout engine (DEDUCED, log 39). -/
def execLxjob (w : EngF) (s : State) : Result :=
  issue (reqDesc 0xd9 (checkLxjob w) w [(w.desc, w.e)]) (fun s => withDesc w s fun s bs =>
    let at_ := s.srcS w.desc + 0x38
    let r := parseIngest bs at_
    let c := s.ctxAt s.core.ctx
    let listed := fun (h : BitVec 32) => match s.entry? s.core.entry with
      | some e => e.handles.contains h
      | none => false
    let live := fun (h : BitVec 32) => listed h && match c.handle? h with
      | some x => x.st == .set
      | none => false
    if numAt bs 0 1 ≠ 4 ∨ numAt bs 1 1 ≠ 1 ∨ numAt bs 2 6 ≠ 0 ∨ r.sig.isSome ∨ !(ingestFieldsOk bs r (s.accepts featExpertPaging))
        ∨ s.expertTaken s.core.ctx r then .trap s { code := 0x02 }
    else if !(r.err.all fun n => s.semOwned n s.core.ctx) then .trap s { code := codePermission }
    else if !(live r.src && live r.dst) then .trap s { code := 0x41 }
    else
      match c.handle? r.src, c.handle? r.dst with
      | some src, some dst =>
        if !(r.rangesOk src dst) then .trap s { code := 0x02 }
        else if s.peerSource src r.srcOff (r.srcSpan src) && !(s.accepts featP2pIngest) then
          .leaves (s.contain (entryQueue s.core.entry) s.core.entry)
        else
          let lay : LayoutFor := { ctx := s.core.ctx, entry := s.core.entry }
          let reads := (if src.bus then [] else [(lay.access .read, (src.base + r.srcOff) % 2 ^ 64)])
            ++ (if r.coded then [(lay.access .read, r.codetab.toNat)] else [])
          withRanges s (reads ++ [(lay.access .write, (dst.base + r.dstOff) % 2 ^ 64)]) fun s =>
            match firstUnit s lay (dst.base + r.dstOff) with
            | (s, .error (.suspend code va)) => .trap s (memTrap pathLayout (code, va))
            | (s, .error (.fail _ _)) => .trap s { code := 0x02 }
            | (s, .ok _) =>
              match enqueueJob w s (.layout r at_) .layout r.err with
              | .retire s o => .retire { s with ctxs := pin (pin s.ctxs s.core.ctx (handleSlot r.src)) s.core.ctx (handleSlot r.dst) } o
              | x => x
      | _, _ => .trap s { code := 0x41 }) s

/-! ### Fetches and waits (R143, R144) -/

/-- A fetch has failed (R143): the entry becomes ABSENT, the fault is logged, and the jobs suspended on the expert stop. -/
def State.failFetch (s : State) (x : Nat) (code : BitVec 8) : State :=
  let e := s.expert x
  let s := (s.unpinFetch e).setExpert x { e with state := expertAbsent, starter := none, waiting := [] }
  let s := match e.starter with
    | some id => s.stopJob id code
    | none => s.logError code.toNat 5 0 (e.payer.getD 0)
  e.waiting.foldl (fun s w => s.stopBank w.1 w.2 code) s

/-- A fetch has placed its rows (R143 step 5). -/
def State.residentNow (s : State) (x : Nat) : State :=
  let e := s.expert x
  let s := ((s.unpinFetch e).setExpert x { e with state := expertResident, fetches := (e.fetches + 1) % 2 ^ 32, starter := none })
  let s := match e.starter, e.body with
    | some id, some r =>
      (s.modJob id fun j => { j with mpc := r.items, mpcByte := e.counted }).finishLayout id r (match s.job? id with
        | some j => match j.kind with
          | .layout _ at_ => at_
          | _ => 0
        | none => 0)
    | _, _ => s
  s.admitWaiters x e.waiting.length

/-- The placement of a fetch goes on to a 4 KiB boundary of its destination, its end or a stop (R52, R99, R143). -/
def State.fetchStretch (s : State) (x : Nat) (r : IngestRec) : State :=
  let e := s.expert x
  let entry := e.payer.getD 0
  let p := placeOn s { ctx := e.owner, entry := entry, work := e.order } r { item := e.row, counted := e.counted, out := e.out, first := e.first }
  let s := p.s.setExpert x { p.s.expert x with row := p.at_.item, counted := p.at_.counted, out := p.at_.out, first := p.at_.first }
  match p.how with
  | .boundary => s
  | .done => s.residentNow x
  | .stopped (.fail code _) => s.failFetch x code
  | .stopped (.suspend code va) =>
    ((s.dropSidecars e.order).setExpert x { s.expert x with suspended := true }).reportEfault e.owner code va pathLayout 5 0 entry

/-- A turn of a fetch that reads a bank in refresh is put off until the refresh is over (R13). -/
def State.orFetch (t s : State) (x : Nat) : State :=
  if t.unserved then s.setExpert x { s.expert x with holdOff := t.served } else t

/-- EXPERT_FETCH_COMPLETE (R143): a fetch whose turn has come evicts, places its rows, and completes or fails; a fault of
translation suspends it (R99). -/
def execExpertFetchComplete (s : State) : Result :=
  let x := s.subj.expert
  if !(s.fetchClear x) then .next s
  else
    let s := s.evictOver x
    match (s.expert x).body with
    | none => .next (s.failFetch x 0x41)
    | some r => .next ((s.fetchStretch x r).orFetch s x)

/-- A port of a running bank job waits on an expert past its entry's EXPERT_TIMEOUT (R144). -/
def State.expertLate (s : State) (b : BankJob) (p : Port) : Bool :=
  match p.onExpert, s.job? b.id with
  | some (_, since), some j =>
    match s.entry? j.entry with
    | some e => e.expertTimeout != 0 && decide (since + 1024 * e.expertTimeout < s.beat)
    | none => false
  | _, _ => false

/-- EXPERT_TIMEOUT (R144): the job stops with EXPERT_TIMEOUT (0x22), and the fetch goes on. -/
def execExpertTimeout (s : State) : Result :=
  match s.bankJob? s.subj.job with
  | none => .next s
  | some b =>
    match b.ports.find? (s.expertLate b) with
    | none => .next s
    | some p => .next (s.stopBank b.id p.die 0x22)

/-! ### EXPF and EXPQ (R332) -/

/-- The number of the expert that a word names. -/
def expertOf (w : SysF) (s : State) : Nat := (s.srcS w.a).toNat

/-- EXPF (R332): a fetch of an ABSENT expert starts; nothing happens where it is FETCHING or RESIDENT. -/
def execExpf (w : SysF) (s : State) : Result :=
  issue { op := 0xd7, ok := checkExpf w, feature := s.accepts featExpertPaging, pred := w.pred, srcs := [(w.a, w.ea)] } (fun s =>
    let x := expertOf w s
    let e := s.expert x
    if 4095 < x then .trap s { code := 0x02 }
    else if e.state = 0 ∨ e.owner ≠ s.core.ctx then .trap s { code := codePermission }
    else if e.state = expertAbsent then .retire (s.startFetch x s.core.entry none) {}
    else .retire s {}) s

/-- A directory entry as 128 bits (Table 7.6). -/
def Expert.word (e : Expert) : Nat :=
  e.fetches % 2 ^ 32 + 2 ^ 32 * (e.firstUnit % 2 ^ 32) + 2 ^ 64 * (e.units % 2 ^ 32) + 2 ^ 96 * (e.refs % 65536)
    + 2 ^ 112 * (e.state % 4) + 2 ^ 114 * (e.owner % 64)

/-- EXPQ (R332): half of an entry, zero for one that the context does not own. -/
def execExpq (w : SysF) (s : State) : Result :=
  issue { op := 0xd8, ok := checkExpq w, feature := s.accepts featExpertPaging, pred := w.pred, srcs := [(w.a, w.ea)], dsts := [w.d] }
    (fun s =>
      let x := expertOf w s
      let e := s.expert x
      if 4095 < x then .trap s { code := 0x02 }
      else
        let n := if e.state = 0 ∨ e.owner ≠ s.core.ctx then 0 else e.word
        .retire s { writes := [.s (specIdx w.d) (BitVec.ofNat 64 (fld n (64 * (w.ctl.toNat % 2)) 64))], cls := 14 }) s

end Sys2Proof.Machine
end

