-- ==== Sys2Proof/Machine/Bank.lean ====
section
/-! DEFINITION. BCALL and BSTAT (R328, R329), the bank-command words (R339-R359), the conversion of reduction blocks
(R123), the end of a bank job (R360), and the traffic and refresh of the memory channels (R128, R130). -/

namespace Sys2Proof.Machine

/-! ### BCALL (R328, R343) -/

/-- A BCALL descriptor from its 64 bytes (Table 16.4). -/
def parseBcall (bs : List Byte) : BankDesc :=
  { prog := BitVec.ofNat 64 (numAt bs 0 8), ports := BitVec.ofNat 48 (numAt bs 8 8), btab := BitVec.ofNat 64 (numAt bs 0x10 8),
    blkFirst := numAt bs 0x18 4, blkCount := numAt bs 0x1C 4, arg0 := BitVec.ofNat 64 (numAt bs 0x20 8),
    arg1 := BitVec.ofNat 64 (numAt bs 0x28 8), slot := numAt bs 0x30 1,
    errsem := if nbit (numAt bs 0x32 1) 0 then some (numAt bs 0x31 1) else none }

/-- The limits of a BCALL descriptor (Table 16.4, R328). -/
def bcallOk (bs : List Byte) (d : BankDesc) : Bool :=
  d.prog.toNat % 64 == 0 && numAt bs 0x0E 2 == 0 && d.ports != 0 && d.btab.toNat % 64 == 0 && decide (d.blkCount ≤ 65536)
    && decide (d.slot < 16) && decide (numAt bs 0x32 1 < 2) && numAt bs 0x33 13 == 0
    && (d.btab != 0 || (d.blkFirst == 0 && d.blkCount == 0))

/-- Dice that take part in a job. -/
def BankDesc.dice (d : BankDesc) : List Nat := (List.range 48).filter fun i => d.ports.getLsbD i

/-- A port as a BCALL begins on it (R343, Table 17.3). -/
def freshPort (d : BankDesc) (t : BlockTab) (die : Nat) : Port :=
  { die := die, pc := d.prog, ra := d.arg0, wa := d.arg1, kb := d.blkFirst, tpos := t.seqLen, seq := t.seqLen }

/-- An access of MCS[d] for a bank job, under the BANK bit (R82, R124; DEDUCED, log 29). -/
def bankAccess (ctx d : Nat) (need : Need) : Access :=
  { ctx := ctx, path := pathBank, need := need, cache := .mcs ⟨d % 48, by omega⟩ }

/-- The bank job of a slot has not ended (R329). -/
def State.slotBusy (s : State) (slot : Nat) : Bool :=
  match vget none s.core.bankSlots slot with
  | some id => match s.bankJob? id with
    | some b => !b.ended
    | none => false
  | none => false

/-- A checked BCALL becomes a job: its ports stand at their initial state, and the slot's earlier job is forgotten. It waits while an
MCS of its ports holds as many jobs of the yard as it can (R315). -/
def enqueueBcall (w : EngF) (s : State) (d : BankDesc) (t : BlockTab) : Issue :=
  if d.dice.any fun i => decide (Config.unitQueue ≤ s.unitLoad (.mcs i)) then .wait s
  else
  match enqueueJob w s (.bcall d t) (.mcs (d.dice.headD 0)) d.errsem with
  | .retire s' o =>
    let id := s.fresh
    let old := vget none s'.core.bankSlots d.slot
    let b : BankJob := { id := id, desc := d, tab := t, ports := d.dice.map (freshPort d t) }
    let kept := s'.bankJobs.filter fun x => some x.id != old
    .retire ({ s' with bankJobs := kept ++ [b] }.modCore fun c => { c with bankSlots := vset c.bankSlots d.slot (some id) }) o
  | x => x

/-- BCALL (R328): the table is captured and the first word translated at issue; a busy slot stalls it (R329). Every block of a
captured set lies in the pool (R149; DEDUCED, log 41). -/
def execBcall (w : EngF) (s : State) : Result :=
  issue (reqDesc 0xd3 (checkBcall w) w [(w.desc, w.e)]) (fun s => withDesc w s fun s bs =>
    let d := parseBcall bs
    if !bcallOk bs d then .trap s { code := 0x02 }
    else if !(d.errsem.all fun n => s.semOwned n s.core.ctx) then .trap s { code := codePermission }
    else if s.slotBusy d.slot then .wait s
    else
      let cap : State × Except (BitVec 8 × Nat) BlockTab :=
        if d.btab = 0 then (s, .ok {}) else capture s s.core.ctx s.yardIdx d.btab d.blkFirst d.blkCount
      match cap with
      | (s, .error f) => if f.1 = 0x02 then .trap s { code := 0x02 } else .trap s (memTrap pathOrd f)
      | (s, .ok t) =>
        if d.btab != 0 && !(t.inPool (t.layers - 1) (t.heads - 1)) then .trap s { code := 0x02 }
        else
        withRanges s [(bankAccess s.core.ctx (d.dice.headD 0) .read, d.prog.toNat)] fun s => enqueueBcall w s d t) s

/-! ### BSTAT (R329) -/

/-- The job of a slot. -/
def State.slotJob (s : State) (slot : Nat) : Option BankJob := (vget none s.core.bankSlots slot).bind s.bankJob?

/-- A job is suspended under R99, or a port of it waits at RESW. -/
def State.bankSuspended (s : State) (b : BankJob) : Bool :=
  (match s.job? b.id with
    | some j => j.phase == .suspended
    | none => false) || (!b.ended && b.ports.any fun p => p.onExpert.isSome)

/-- Word 0 of BSTAT (Table 16.5). -/
def State.bstatWord (s : State) (b : Option BankJob) : Nat :=
  match b with
  | none => 2 ^ 40 * 0xFF
  | some b =>
    2 ^ 63 * bit b.ended + 2 ^ 62 * bit (b.fault != 0) + 2 ^ 61 * bit (s.bankSuspended b) + 2 ^ 60 + 2 ^ 48 * b.fault.toNat
      + 2 ^ 40 * (b.faultPort % 256) + 2 ^ 16 * min b.poison.length 0xFFFF

/-- Word `w` of BSTAT, for w ≥ 1: poison bits of the slot's job. -/
def poisonWord (b : Option BankJob) (w : Nat) : Nat :=
  match b with
  | none => 0
  | some b => packLanes 1 ((List.range 64).map fun i => bit (b.poison.contains (64 * (w - 1) + i)))

/-- BSTAT (R329). -/
def execBstat (w : A3) (s : State) : Result :=
  issue { op := 0xd4, ok := checkBstat w, pred := w.pred, srcs := [(w.a, w.ea), (w.b, w.eb)], dsts := [w.d] } (fun s =>
    let slot := (s.srcS w.a).toNat
    let i := (s.srcS w.b).toNat
    if 15 < slot ∨ 1024 < i then .trap s { code := 0x02 }
    else
      let b := s.slotJob slot
      .retire s { writes := [.s (specIdx w.d) (BitVec.ofNat 64 (if i = 0 then s.bstatWord b else poisonWord b i))], cls := 14 }) s

/-! ### Running a word -/

/-- The takes of a job's ports that are not granted are withdrawn, and their words count as not begun: the job gives up its MCSs
(R64, R99, R126, R299). -/
def State.dropWaits (s : State) (id : Nat) : State :=
  match s.bankJob? id with
  | none => s
  | some b => b.ports.foldl (fun s p =>
      match p.take with
      | some (n, t) => if s.granted n t then s else (s.dropTake n t).setPort id { p with take := none, word := none }
      | none => s) s

/-- How a word leaves its port. -/
inductive WordEnd where
  /-- The word has ended, and the port stands at the next one. -/
  | next (s : State) (p : Port)
  /-- The port waits inside the word. -/
  | wait (s : State) (p : Port)
  /-- An access met a fault of translation, permission or memory type (R99). -/
  | suspend (s : State) (p : Port) (code : BitVec 8) (va : Nat)
  /-- The word stops the job (R127). -/
  | stop (s : State) (p : Port) (code : BitVec 8)

/-- The port may run a word now: its job runs, it has neither halted nor stopped, it waits for no expert, no BGU of its die
pauses for a refresh (R13), and its MCS executes this job (R121; DEDUCED, log 54). -/
def State.portRuns (s : State) (j : Job) (p : Port) : Bool :=
  j.phase == .running && !p.halted && p.stopped.isNone && p.onExpert.isNone && s.pauses.all (fun x => x.1 / 8 != p.die)
    && (s.mcsAt p.die).holder == some j.id

/-- A port stands at the word after: no application of it is made, and no column is kept. -/
def Port.go (p : Port) : Port := { p with pc := p.pc + 6, done := 0, stream := [], word := none }

/-- A word ends in its port as it says; a stop is that of R127. -/
def WordEnd.settle (e : WordEnd) (id : Nat) : State :=
  match e with
  | .next s p => s.setPort id p
  | .wait s p => s.setPort id p
  | .suspend s p code va =>
    (((s.setPort id { p with word := none }).dropWaits id).freeMcs id |>.modJob id fun j => { j with mpc := p.pc.toNat }).suspendJob id code va pathBank
  | .stop s p code => (s.setPort id p).stopBank id p.die code

/-- One word of the port whose turn it is; it waits while a bank that it reads is in a refresh (R13). A word whose own fields are outside
their limits is illegal (R359). -/
def runWord (ok : Bool) (body : State → BankJob → Job → Port → WordEnd) (s : State) : Result :=
  match s.job? s.subj.job, s.bankJob? s.subj.job with
  | some j, some b =>
    match b.port? s.subj.port with
    | none => .next s
    | some p =>
      if !(s.portRuns j p) then .next s
      else if !ok then .next (s.stopBank b.id p.die 0x02)
      else
        let t := (body s b j p).settle b.id
        .next (if t.unserved then s else t)
  | _, _ => .next s

/-- The port ends the word without further effect. -/
def plainWord (s : State) (_ : BankJob) (_ : Job) (p : Port) : WordEnd := .next s p.go

/-- BGU slots charged to the bank meter (R69, R344; DEDUCED, log 31). -/
def State.chargeBank (s : State) (j : Job) (n : Nat) : State := s.chargeMeter j.entry .bank n

/-! ### Control words (R355, R359) -/

/-- NOPW (R355). -/
def execNopw (w : BankF) (s : State) : Result := runWord (checkNopw w) plainWord s

/-- LOOPW (R355). -/
def execLoopw (w : BankF) (s : State) : Result :=
  runWord (checkLoopw w) (fun s _ _ p =>
    if 4 ≤ p.loops.length then .stop s p 0x02 else .next s { p.go with loops := (w.count, p.pc + 6) :: p.loops }) s

/-- ENDW (R355). -/
def execEndw (w : BankF) (s : State) : Result :=
  runWord (checkEndw w) (fun s _ _ p =>
    match p.loops with
    | [] => .stop s p 0x02
    | (n, at_) :: rest =>
      if 1 < n then .next s { p.go with pc := at_, loops := (n - 1, at_) :: rest } else .next s { p.go with loops := rest }) s

/-- JMPW (R355): the word's own address plus 6 × STEP. -/
def execJmpw (w : BankF) (s : State) : Result :=
  runWord (checkJmpw w) (fun s _ _ p => .next s { p.go with pc := p.pc + 6 * w.step.signExtend 64 }) s

/-- HALTW (R355): the port's program ends, and the MCS is free for another job. -/
def execHaltw (w : BankF) (s : State) : Result :=
  runWord (checkHaltw w) (fun s _ j p =>
    let m := s.mcsAt p.die
    .next (s.setMcs p.die { m with holder := if m.holder = some j.id then none else m.holder }) { p.go with halted := true, loops := [] }) s

/-- The code that stops an illegal word outside Table 17.2 (R359): ILLEGAL_OPCODE. -/
def execIllegalWord (_word : BitVec 48) (s : State) : Result := runWord true (fun s _ _ p => .stop s p 0x01) s

/-! ### BSET (R345) -/

/-- The immediate of a BSET: bits 39:8 of the word, signed. -/
def bankImm (w : BankF) : Int := sext 32 (w.rep.toNat * 65536 + w.step.toNat)

/-- An address register set to a value whose bits 63:57 are zero. -/
def addrReg (v : Int) : Option W64 := if 0 ≤ v ∧ v < 2 ^ 57 then some (BitVec.ofNat 64 v.toNat) else none

/-- A counting register within its limits and its multiple. -/
def countReg (v : Int) (lo hi step : Nat) : Option Nat :=
  if (lo : Int) ≤ v ∧ v ≤ hi ∧ v.toNat % step = 0 then some v.toNat else none

/-- The register of a code set to an immediate, or raised by it (Table 17.3); none outside the limits. -/
def Port.bset (p : Port) (d : BankDesc) (code : Nat) (add : Bool) (imm : Int) : Option Port :=
  let old := fun (n : Nat) => if add then (n : Int) else 0
  match code with
  | 0 => (addrReg ((if add then p.ra.toNat else d.arg0.toNat) + 64 * imm)).map fun x => { p with ra := x }
  | 1 => (addrReg (d.arg1.toNat + 64 * imm)).map fun x => { p with ra := x }
  | 2 => (addrReg ((if add then p.wa.toNat else d.arg0.toNat) + 64 * imm)).map fun x => { p with wa := x }
  | 3 => (addrReg (d.arg1.toNat + 64 * imm)).map fun x => { p with wa := x }
  | 4 => (countReg imm 0 (2 ^ 31 - 1) 1).map fun x => { p with ls := 64 * x }
  | 5 => (countReg imm 0 255 1).map fun x => { p with em := x }
  | 6 => (countReg imm 1 16000 1).map fun x => { p with rsz := x }
  | 7 => (countReg (old p.koff + imm) 0 8064 128).map fun x => { p with koff := x }
  | 8 => (countReg (old p.kseg + imm) 0 31488 256).map fun x => { p with kseg := x }
  | 9 => (countReg (old p.slot + imm) 0 63 1).map fun x => { p with slot := x }
  | 10 => (countReg (old p.rrow + imm) 0 65535 1).map fun x => { p with rrow := x }
  | 11 => (countReg imm 0 255 1).map fun x => { p with layer := x }
  | 12 => (countReg imm 0 127 1).map fun x => { p with head := x }
  | 13 => (countReg (old p.kb + imm) 0 65535 1).map fun x => { p with kb := x }
  | 14 => (countReg (old p.tpos + imm) 0 1048575 1).map fun x => { p with tpos := x }
  | _ => (countReg (old p.pbase + imm) 0 1048575 1).map fun x => { p with pbase := x }

/-- A BSET as a word. -/
def bsetWord (w : BankF) (add : Bool) (s : State) (_ : BankJob) (j : Job) (p : Port) : WordEnd :=
  match j.kind with
  | .bcall d _ =>
    match p.go.bset d (w.operand.toNat % 16) add (bankImm w) with
    | some p => .next s p
    | none => .stop s p 0x02
  | _ => .next s p.go

/-- BSET (R345). -/
def execBset (w : BankF) (s : State) : Result := runWord (checkBset w) (bsetWord w false) s

/-- BSET with ADD (R345). -/
def execBsetAdd (w : BankF) (s : State) : Result := runWord (checkBsetAdd w) (bsetWord w true) s

/-! ### Semaphores, order, experts (R356-R358) -/

/-- SEMWW (R356): `c` units of a semaphore, in queue order (R299); its owner is checked as it begins (R298). -/
def execSemww (w : BankF) (s : State) : Result :=
  runWord (checkSemww w) (fun s _ j p =>
    let n := w.operand.toNat
    if p.take.isNone && !(s.semOwned n j.ctx) then .stop s p codePermission
    else
      let placed : State × Nat := match p.take with
        | some t => (s, t.2)
        | none => s.placeTake n w.rep.toNat (.port j.id p.die)
      match placed with
      | (s, id) =>
        if s.granted n id then .next (s.noticeTake n id) { p.go with take := none }
        else .wait s { p with take := some (n, id) }) s

/-- SEMSW (R356): a release of the port's earlier accesses, which waits while a refresh keeps a write from its array (R13), then `c`
units (R113). -/
def execSemsw (w : BankF) (s : State) : Result :=
  runWord (checkSemsw w) (fun s _ j p =>
    let n := w.operand.toNat
    if !(s.semOwned n j.ctx) then .stop s p codePermission
    else if s.drainWaits then .wait s p
    else
      match s.drainWrites.signal n w.rep.toNat with
      | (s, excess) => .next (if excess then s.logError 0x08 3 p.die j.entry else s) p.go) s

/-- MARKW (R357): it waits until the port's accesses are performed at memory-die scope. -/
def execMarkw (w : BankF) (s : State) : Result :=
  runWord (checkMarkw w) (fun s _ _ p => if s.drainWaits then .wait s p else .next s.drainWrites p.go) s

/-- RESW (R144, R358). -/
def execResw (w : BankF) (s : State) : Result :=
  runWord true (fun s b j p =>
    let x := w.step.toNat
    let e := s.expert x
    if !(s.accepts featExpertPaging) then .stop s p 0x01
    else if !(checkResw w) then .stop s p 0x02
    else if e.state = 0 ∨ e.owner ≠ j.ctx then .stop s p codePermission
    else if e.state = expertResident ∧ b.refs.contains x then .next s p.go
    else if e.state = expertResident ∧ e.refs < 65535 then .next (s.takeRef x b.id) p.go
    else
      let s := if e.state = expertAbsent then s.startFetch x j.entry none else s
      let e := s.expert x
      let m := s.mcsAt p.die
      .wait ((s.setExpert x { e with waiting := e.waiting ++ [(b.id, p.die)] }).setMcs p.die
          { m with holder := if m.holder = some b.id then none else m.holder })
        { p with onExpert := some (x, s.beat), word := none }) s

/-! ### Columns (R125, R341) -/

/-- Bytes on the ORD path. -/
def ordBytes (s : State) (j : Job) (d va n : Nat) : State × Except CopyStop (List Byte) :=
  match reach s (bankAccess j.ctx d .read) [{ va := va % 2 ^ 64, len := n }] with
  | (s, .error f) => (s, .error (.suspend f.1 f.2))
  | (s, .ok pas) => (s.ordinaryRead pas.flatten, .ok (pas.flatten.map s.readByte))

/-- The physical address of a 64-byte column on the die, or on one BGU of it; MEMTYPE elsewhere (R125, R341). -/
def columnAt (s : State) (j : Job) (d : Nat) (bgu : Option Nat) (need : Need) (va : Nat) : State × Except CopyStop Nat :=
  match reach s (bankAccess j.ctx d need) [{ va := va % 2 ^ 64, len := 64 }] with
  | (s, .error f) => (s, .error (.suspend f.1 f.2))
  | (s, .ok pas) =>
    let pa := pas.flatten.headD 0
    let n := (placeOf pa).bgu
    if regionOf pa = .package ∧ n / 8 = d ∧ bgu.getD n = n then (s, .ok pa) else (s, .error (.fail codeMemtype))

/-- BCAST (R346): n A8 blocks into the buffers of one batch lane on every enabled issue lane. -/
def Lane.bcast (l : Lane) (b beta : Nat) (blocks : List (List Byte)) : Lane :=
  (blocks.zipIdx beta).foldl (fun l x =>
    { l with
      buf := ((x.1.take 128).zipIdx (8192 * b + 128 * x.2)).foldl (fun m y => SMap.set 0 m y.2 y.1) l.buf,
      scale := SMap.set 127 l.scale (64 * b + x.2) (x.1.getD 128 0) }) l

/-- The bytes of the blocks of a BCAST from block `i` on, as far as an access reaches them; what stops the word (R340, R346). -/
def bcastReach (s : State) (j : Job) (p : Port) (i : Nat) : Nat → State × List (List Nat) × Option CopyStop
  | 0 => (s, [], none)
  | n + 1 =>
    match reach s (bankAccess j.ctx p.die .read) [{ va := (p.ra.toNat + 129 * i) % 2 ^ 64, len := 129 }] with
    | (s, .error f) => (s, [], some (.suspend f.1 f.2))
    | (s, .ok pas) =>
      match bcastReach s j p (i + 1) n with
      | (s, more, stop) => (s, pas.flatten :: more, stop)

/-- The blocks of a BCAST from the application after the last one made: their columns are read and charged on every enabled lane, and their
elements enter the buffers (R344, R346). -/
def bcastBlocks (s : State) (j : Job) (p : Port) (b beta n : Nat) : State × Port × Option CopyStop :=
  match bcastReach s j p p.done (n - p.done) with
  | (s, blocks, stop) =>
    let va := p.ra.toNat + 129 * p.done
    let cols := if blocks.isEmpty then 0 else ceilDiv (va + 129 * blocks.length) 64 - va / 64
    let s := s.ordinaryRead blocks.flatten
    let q := p.enabled.foldl (fun q e => q.setLane e ((q.lane e).bcast b (beta + p.done) (blocks.map (·.map s.readByte)))) p
    (s.chargeBank j (cols * p.enabled.length), { q with done := p.done + blocks.length }, stop)

/-- What a word that goes through applications comes to. -/
def endApps (r : State × Port × Option CopyStop) (after : Port → Port) : WordEnd :=
  match r with
  | (s, p, none) => .next s (after p).go
  | (s, p, some (.suspend code va)) => .suspend s p code va
  | (s, p, some (.fail code _)) => .stop s p code

/-- BCAST (R346). -/
def execBcast (w : BankF) (s : State) : Result :=
  runWord (checkBcast w) (fun s _ j p =>
    endApps (bcastBlocks s j p (w.operand.toNat % 4) (w.operand.toNat / 4) w.rep.toNat)
      fun q => { q with ra := p.ra + BitVec.ofNat 64 (129 * w.rep.toNat) }) s

/-- The columns of a RDW or WRW, in order, from the application after the last one made (R347). A column read whose error is corrected is
counted (R131). -/
def moveCols (s : State) (j : Job) (p : Port) (write : Bool) (c : Nat) (base : Nat) (step : Int) : Nat → State × Port × Option CopyStop
  | 0 => (s, p, none)
  | fuel + 1 =>
    let i := p.done
    match columnAt s j p.die none (if write then .write else .read) (wrap 64 (base + step * i)) with
    | (s, .error f) => (s, p, some f)
    | (s, .ok pa) =>
      let pas := upFrom pa 64
      let s := s.chargeBank j 1
      if write then
        let bs := toBytes 64 (SMap.get 0 p.move (c + i)).toNat
        let s := (s.logHeld pas 3 p.die j.entry)
        let s := (pas.zip bs).foldl (fun s x => s.writeArray x.1 x.2) s
        moveCols s j { p with done := i + 1 } write c base step fuel
      else
        let s := s.countEcc [pa]
        let x : BitVec 512 := BitVec.ofNat 512 (fromBytes (pas.map s.arrayByte))
        moveCols s j { p with done := i + 1, move := SMap.set 0 p.move (c + i) x } write c base step fuel

/-- A signed address step in 64-byte units (R339). -/
def bankStride (w : BankF) : Int := 64 * sext 16 w.step.toNat

/-- RDW (R347). -/
def execRdw (w : BankF) (s : State) : Result :=
  runWord (checkRdw w) (fun s _ j p =>
    if p.ra.toNat % 64 ≠ 0 then .stop s p 0x02
    else
      endApps (moveCols s j p false w.operand.toNat p.ra.toNat (bankStride w) (w.rep.toNat - p.done))
        fun q => { q with ra := BitVec.ofNat 64 (wrap 64 (p.ra.toNat + bankStride w * w.rep.toNat)) }) s

/-- WRW (R347). -/
def execWrw (w : BankF) (s : State) : Result :=
  runWord (checkWrw w) (fun s _ j p =>
    if p.wa.toNat % 64 ≠ 0 then .stop s p 0x02
    else
      endApps (moveCols s j p true w.operand.toNat p.wa.toNat (bankStride w) (w.rep.toNat - p.done))
        fun q => { q with wa := BitVec.ofNat 64 (wrap 64 (p.wa.toNat + bankStride w * w.rep.toNat)) }) s

/-! ### Products (R120, R348) -/

/-- Twice the value of an E2M1 code (R122). -/
def e2m1Twice (x : Nat) : Int :=
  let m : Int := [0, 1, 2, 3, 4, 6, 8, 12].getD (x % 8) 0
  if 8 ≤ x % 16 then -m else m

/-- The broadcast elements `a` to `a + n - 1` of a batch lane. -/
def Lane.elems (l : Lane) (b a n : Nat) : List Int := (upFrom (8192 * b + a) n).map fun k => sext 8 (SMap.get 0 l.buf k).toNat

/-- The broadcast scale of the group that holds element `a`. -/
def Lane.scaleOf (l : Lane) (b a : Nat) : Byte := SMap.get 127 l.scale (64 * b + a / 128)

/-- An exact sum of products. -/
def dotSum (xs ys : List Int) : Int := ((xs.zip ys).map fun p => p.1 * p.2).foldl (· + ·) 0

/-- The four reduction blocks, one per batch lane, of some weights against the buffer from element `a`. -/
def Lane.blocks (l : Lane) (e q index a bank row : Nat) (ws : List Int) (cw : Byte) (k4 bad : Bool) : List Block :=
  (List.range 4).map fun b =>
    { lane := e, slot := q, batch := b, word := residueWord (dotSum ws (l.elems b a ws.length)) bad, cw := cw,
      ca := l.scaleOf b a, k4 := k4, bank := bank, dramRow := row, index := index }

/-- A row slot assigned to a result row; none when it is ASSIGNED already (R342). -/
def Port.assign (p : Port) (e q rho : Nat) : Option Port :=
  if ((p.lane e).slot q).assigned then none
  else some (p.setLane e ((p.lane e).setSlot q { (p.lane e).slot q with assigned := true, rho := rho }))

/-- The byte of a fetch that an uncorrectable error has met, or its first: the column that an event names (R135). -/
def failedAt (s : State) (pas : List Nat) : Nat := (pas.find? fun pa => s.eccBad [pa]).getD (pas.headD 0)

/-- The column that an issue lane keeps of its stream for byte `n` of it. -/
def Port.colAt (p : Port) (e n : Nat) : StreamCol := (p.stream.find? fun c => c.lane = e && c.index = n / 64).getD {}

/-- Byte `n` of a lane's stream. -/
def Port.streamByte (p : Port) (e n : Nat) : Byte := (p.colAt e n).data.extractLsb' (8 * (n % 64)) 8

/-- The blocks of half `h` of K4 block `g` of a lane's stream (R348). -/
def k4Half (p : Port) (e g h : Nat) : List Block :=
  let r := p.rsz / 129
  let kk := 256 * (g % r) + 128 * h
  let a := p.koff + kk - p.kseg
  if kk < p.kseg ∨ 8064 < a then []
  else
    let data := upFrom (129 * g + 64 * h) 64
    let scaleAt := 129 * g + 128
    let hit := (data ++ [scaleAt]).find? fun n => (p.colAt e n).bad
    let place := placeOf (p.colAt e (hit.getD (129 * g + 64 * h))).pa
    (p.lane e).blocks e (p.slot + g / r) (kk / 128) a place.bank place.row ((nibbles (data.map (p.streamByte e))).map e2m1Twice)
      (p.streamByte e scaleAt) true hit.isSome

/-- The K4 block, among the first `m`, whose last byte lies in column `i` of a stream. -/
def k4Done (m i : Nat) : Option Nat :=
  let g := (64 * i + 63 - 128) / 129
  if (129 * g + 128) / 64 = i ∧ g < m then some g else none

/-- The row, among the first `m`, whose first byte lies in column `i` of a stream. -/
def k4Begins (rsz m i : Nat) : Option Nat :=
  let k := ceilDiv (64 * i) rsz
  if k * rsz / 64 = i ∧ k < m then some k else none

/-- The row that begins in column `i` has its slot on every enabled lane; none where one is in the wrong state (R342, R348). -/
def Port.k4Assign (p : Port) (cont : Bool) (m i : Nat) : Option Port :=
  match k4Begins p.rsz m i with
  | none => some p
  | some k => p.enabled.foldl (fun o e => o.bind fun q =>
      if cont then (if ((q.lane e).slot (q.slot + k)).assigned then some q else none)
      else q.assign e (q.slot + k) (q.rrow + 8 * k + e)) (some p)

/-- Column `i` of every enabled lane is delivered: it is kept while a block draws on it, and the block that it completes is reduced
(R119, R120, R348). -/
def Port.k4Take (p : Port) (s : State) (m i : Nat) (pas : List Nat) : Port :=
  let new := (p.enabled.zip pas).map fun x =>
    ({ index := i, lane := x.1, pa := x.2, data := BitVec.ofNat 512 (fromBytes ((upFrom x.2 64).map s.arrayByte)),
       bad := s.eccBad [x.2] } : StreamCol)
  let q := { p with done := i + 1, stream := (p.stream.filter fun c => i ≤ c.index + 2) ++ new }
  match k4Done (m * (p.rsz / 129)) i with
  | none => q
  | some g => { q with blocks := q.blocks ++ q.enabled.flatMap fun e => k4Half q e g 0 ++ k4Half q e g 1 }

/-- One column of every lane. -/
def laneCols (s : State) (j : Job) (d : Nat) (va : Nat → Nat) : List Nat → State × Except CopyStop (List Nat)
  | [] => (s, .ok [])
  | e :: es =>
    match columnAt s j d (some (bguOf d e)) .read (va e) with
    | (s, .error f) => (s, .error f)
    | (s, .ok pa) =>
      match laneCols s j d va es with
      | (s, .error f) => (s, .error f)
      | (s, .ok pas) => (s, .ok (pa :: pas))

/-- The columns of a DOT.K4 from the application after the last one made. An application is one column of every enabled lane: it is
made whole, or not where an access of it stops or a row that begins in it finds a slot in the wrong state (R339, R340, R341, R348, R359;
DEDUCED, log 93). -/
def k4Columns (j : Job) (cont : Bool) (step : Int) (m : Nat) : Nat → State → Port → State × Port × Option CopyStop
  | 0, s, p => (s, p, none)
  | fuel + 1, s, p =>
    match laneCols s j p.die (fun e => wrap 64 (p.ra.toNat + e * p.ls + step * p.done)) p.enabled with
    | (s, .error f) => (s, p, some f)
    | (s, .ok pas) =>
      match p.k4Assign cont m p.done with
      | none => (s, p, some (.fail 0x02))
      | some q =>
        let s := (s.countEcc pas).chargeBank j p.enabled.length
        k4Columns j cont step m fuel s (q.k4Take s m p.done pas)

/-- The slots of the bank meter in which the last conversions of a DOT.K4 complete, in the cycle after its last column: of one that stops
partway, where its last column completed a block (R119, R348). -/
def k4Tail (p : Port) (m first : Nat) (whole : Bool) : Nat :=
  if whole || (decide (first < p.done) && (k4Done (m * (p.rsz / 129)) (p.done - 1)).isSome) then p.enabled.length else 0

/-- DOT.K4 (R348). -/
def dotK4Word (w : BankF) (cont : Bool) (s : State) (_ : BankJob) (j : Job) (p : Port) : WordEnd :=
  let n := w.count
  if p.rsz = 0 ∨ p.rsz % 129 ≠ 0 ∨ p.ra.toNat % 64 ≠ 0 then .stop s p 0x02
  else
    let m := 64 * n / p.rsz
    if 64 < p.slot + m ∨ 65536 < p.rrow + 8 * m then .stop s p 0x02
    else
      match k4Columns j cont (bankStride w) m (n - p.done) s p with
      | (s, q, stop) =>
        endApps (s.chargeBank j (k4Tail q m p.done stop.isNone), q, stop) fun q =>
          { q with slot := if cont then p.slot else p.slot + m, rrow := if cont then p.rrow else p.rrow + 8 * m,
                   ra := BitVec.ofNat 64 (wrap 64 (p.ra.toNat + bankStride w * n)) }

def execDotK4 (w : BankF) (s : State) : Result := runWord (checkDotK4 w) (dotK4Word w false) s
def execDotK4Cont (w : BankF) (s : State) : Result := runWord (checkDotK4Cont w) (dotK4Word w true) s

/-! ### Key-value words (R349, R350, R354) -/

/-- Blocks `l` on of one kind: checked against the captured table, translated, and on a die that takes part (R349; DEDUCED, log 41). -/
def kvPlaces (s : State) (j : Job) (p : Port) (d : BankDesc) (t : BlockTab) (kind : Nat) (need : Need) (l : Nat) :
    Nat → State × Except CopyStop (List KvPlace)
  | 0 => (s, .ok [])
  | n + 1 =>
    match t.set? l with
    | none => (s, .error (.fail 0x02))
    | some set_ =>
      let b := t.block set_ p.layer p.head kind
      if t.layers ≤ p.layer ∨ t.heads ≤ p.head ∨ t.poolBlocks ≤ b then (s, .error (.fail 0x02))
      else
        match placeBlock s (bankAccess j.ctx p.die need) t b with
        | (s, .error f) => (s, .error f)
        | (s, .ok x) =>
          if !(d.ports.getLsbD (x.bgu / 8)) then (s, .error (.fail 0x02))
          else
            match kvPlaces s j p d t kind need (l + 1) n with
            | (s, .error f) => (s, .error f)
            | (s, .ok xs) => (s, .ok (x :: xs))

/-- The checks of a key-value word over its blocks, then its own effect; without a table it stops (R343). -/
def kvWord (kind first n : Nat) (need : Need) (s : State) (j : Job) (p : Port)
    (body : State → BankDesc → BlockTab → List KvPlace → WordEnd) : WordEnd :=
  match j.kind with
  | .bcall d t =>
    if d.btab = 0 then .stop s p 0x02
    else
      match kvPlaces s j p d t kind need first n with
      | (s, .error (.suspend code va)) => .suspend s p code va
      | (s, .error (.fail code _)) => .stop s p code
      | (s, .ok xs) => body s d t xs
  | _ => .next s p.go

/-- Byte `i` of a block. -/
def KvPlace.byteAt (x : KvPlace) (i : Nat) : Nat := x.pas.getD i 0

/-- The bytes of the side column of a block. -/
def KvPlace.side (x : KvPlace) : List Nat := x.pas.drop 2048

/-- The tokens of a key block (R349): the port, and the token slot at which a slot is assigned already. -/
def keyTokens (s : State) (x : KvPlace) (l : Nat) (p : Port) : List Nat → Port × Option Nat
  | [] => (p, none)
  | u :: us =>
    let t := 16 * l + u
    if p.seq ≤ t then keyTokens s x l p us
    else
      let e := laneOfBgu x.bgu
      match p.assign e (t % 64) t with
      | none => (p, some u)
      | some p =>
        let data := (upFrom (128 * u) 128).map x.byteAt
        let place := placeOf (failedAt s (data ++ x.side))
        let bs := (p.lane e).blocks e (t % 64) 0 p.koff place.bank place.row (data.map fun pa => sext 8 (s.arrayByte pa).toNat)
          (s.arrayByte (x.byteAt (2048 + u))) false (s.eccBad (x.side ++ data))
        keyTokens s x l { p with blocks := p.blocks ++ bs } us

/-- The key blocks that lie on the port's die (R349), their columns read in order (R131): the port, the slots charged, and whether a
slot was assigned already; then the columns before that token are read and charged, and the conversion of the token before it (R69,
R119, R359). -/
def keyBlocks (s : State) (l : Nat) (p : Port) (slots : Nat) : List KvPlace → State × Port × Nat × Bool
  | [] => (s, p, slots, false)
  | x :: xs =>
    if x.bgu / 8 ≠ p.die then keyBlocks s (l + 1) p slots xs
    else
      match keyTokens s x l p (List.range 16) with
      | (p, some u) => (s.countEcc (columnsOf (x.side ++ x.pas.take (128 * u))), p, slots + 1 + 2 * u + bit (decide (0 < u)), true)
      | (p, none) => keyBlocks (s.countEcc (columnsOf x.pas)) (l + 1) p (slots + 33) xs

/-- DOT.KV (R349). -/
def execDotKv (w : BankF) (s : State) : Result :=
  runWord (checkDotKv w) (fun s _ j p =>
    kvWord 0 p.kb w.count .read s j p fun s _ _ xs =>
      match keyBlocks s p.kb p 0 xs with
      | (s, q, n, true) => .stop (s.chargeBank j n) q 0x02
      | (s, q, n, false) => .next (s.chargeBank j (if n = 0 then 0 else n + 1)) { q.go with kb := p.kb + w.count }) s

/-- The chain of an AXPY as it begins (R350). -/
def freshChain (ordinal kb : Nat) : Chain := { ordinal := ordinal, next := kb, acc := List.replicate 256 (0, false) }

/-- The chain that a port is in. -/
def BankJob.chainOf (b : BankJob) (p : Port) : Chain := (b.chains.find? (·.ordinal = p.axpys)).getD (freshChain p.axpys p.kb)

def State.setChain (s : State) (id : Nat) (c : Chain) : State :=
  s.modBank id fun b => { b with chains := c :: b.chains.filter (·.ordinal ≠ c.ordinal) }

/-- One product of a value element for one batch lane: checked, converted alone and added (R120, R123). -/
def axpyAdd (acc : W32 × Bool) (word : BitVec 40) (cw ca : Byte) : W32 × Bool :=
  if acc.2 then acc
  else
    match residueValue word with
    | some v => ((addFP32 acc.1 (blockTerm v cw ca false)).1, false)
    | none => (acc.1, true)

/-- The residue words of a token's products, by value element `k` and batch lane `b` at 4 k + b. -/
def axpyWords (vals probs : List Int) : List (BitVec 40) :=
  (List.range 256).map fun i => residueWord (probs.getD (i % 4) 0 * vals.getD (i / 4) 0) false

/-- The accumulators after one token. -/
def axpyToken (acc : List (W32 × Bool)) (words : List (BitVec 40)) (cw : Byte) (cas : List Byte) : List (W32 × Bool) :=
  acc.zipIdx.map fun x => axpyAdd x.1 (words.getD x.2 0) cw (cas.getD (x.2 % 4) 0)

/-- Where a token's event on row slot `k` belongs: the column at fault, or the token's first byte. -/
def axpyAt (p : Port) (x : KvPlace) (t col entry k : Nat) : PoisonAt :=
  { die := p.die, bgu := x.bgu, bank := (placeOf col).bank, rho := p.rrow + k, dramRow := (placeOf col).row, block := t, entry := entry }

/-- A token that an uncorrectable error touches poisons every accumulator, one event for each row slot (R131, R132; DEDUCED, log 32). -/
def axpyPoison (s : State) (p : Port) (x : KvPlace) (t col entry : Nat) (acc : List (W32 × Bool)) : State × List (W32 × Bool) :=
  let s := (List.range 64).foldl (fun s k =>
    let fresh := ((List.range 4).filter fun b => !(acc.getD (4 * k + b) (0, false)).2).length
    if fresh = 0 then s else s.poisonEvent (axpyAt p x t col entry k) 0x21 0xFF fresh) s
  (s, acc.map fun a => (a.1, true))

/-- A residue mismatch of a product is one event of its lane (R132). -/
def axpyEvents (s : State) (p : Port) (x : KvPlace) (t col entry : Nat) (acc : List (W32 × Bool)) (words : List (BitVec 40)) : State :=
  (acc.zip words).zipIdx.foldl (fun s y =>
    if !y.1.1.2 && (residueValue y.1.2).isNone then s.poisonEvent (axpyAt p x t col entry (y.2 / 4)) 0x20 (y.2 % 4) 1 else s) s

/-- The tokens of a value block (R350); the token slot whose probability lies outside the buffer, if one does. -/
def axpyTokens (s : State) (p : Port) (x : KvPlace) (h l entry : Nat) (acc : List (W32 × Bool)) :
    List Nat → State × List (W32 × Bool) × Option Nat
  | [] => (s, acc, none)
  | u :: us =>
    let t := 16 * l + u
    if p.seq ≤ t then axpyTokens s p x h l entry acc us
    else if t < p.pbase ∨ 8192 ≤ t - p.pbase then (s, acc, some u)
    else
      let lane := p.lane (laneOfBgu x.bgu)
      let data := (upFrom (128 * u + 64 * h) 64).map x.byteAt
      if s.eccBad (x.side ++ data) then
        match axpyPoison s p x t (failedAt s (data ++ x.side)) entry acc with
        | (s, acc) => axpyTokens s p x h l entry acc us
      else
        let a := t - p.pbase
        let words := axpyWords (data.map fun pa => sext 8 (s.arrayByte pa).toNat) ((List.range 4).map fun b => (lane.elems b a 1).headD 0)
        axpyTokens (axpyEvents s p x t (data.headD 0) entry acc words) p x h l entry
          (axpyToken acc words (s.arrayByte (x.byteAt (2048 + u))) ((List.range 4).map fun b => lane.scaleOf b a)) us

/-- BGU cycles of a hand-over (R350). -/
def handOver (holder : Option Nat) (bgu : Nat) : Nat :=
  match holder with
  | none => 0
  | some n => if n = bgu then 0 else if n / 8 = bgu / 8 then 2 else 24

/-- Row slots of a BGU are all FREE (R350). -/
def Lane.allFree (l : Lane) : Bool := l.slots.toList.all fun r => !r.assigned

/-- Slots 0 to 63 assigned with the accumulators of the chain (R350). -/
def Lane.fill (l : Lane) (rrow : Nat) (acc : List (W32 × Bool)) : Lane :=
  { l with slots := Vector.ofFn fun k =>
      { assigned := true, rho := rrow + k.val, acc := Vector.ofFn fun b => acc.getD (4 * k.val + b.val) (0, false) } }

/-- The columns that an AXPY fetches of a value block: the side column and one for each of the first `n` tokens (R131, R350). -/
def KvPlace.halfCols (x : KvPlace) (h n : Nat) : List Nat :=
  columnsOf (x.side ++ (List.range n).flatMap fun u => (x.pas.drop (128 * u + 64 * h)).take 64)

/-- The blocks that the chain reaches on this port's die, in order (R350): the chain, the port, and whether a rule of R350
stops the job; a hand-over that has come is charged then too. -/
def axpyRun (s : State) (j : Job) (p : Port) (h last : Nat) (c : Chain) : List (KvPlace × Nat) → State × Port × Chain × Bool
  | [] => (s, p, c, false)
  | (x, l) :: rest =>
    if l < c.next then axpyRun s j p h last c rest
    else if x.bgu / 8 ≠ p.die then (s, p, c, false)
    else
      let e := laneOfBgu x.bgu
      let arrive := handOver c.holder x.bgu
      if !((p.lane e).allFree) then (s.chargeBank j arrive, p, c, true)
      else
        match axpyTokens s p x h l j.entry c.acc (List.range 16) with
        | (s, _, some u) => ((s.countEcc (x.halfCols h u)).chargeBank j (arrive + 1 + u), p, c, true)
        | (s, acc, none) =>
          let s := (s.countEcc (x.halfCols h 16)).chargeBank j (arrive + 17)
          let c := { c with next := l + 1, acc := acc, holder := some x.bgu }
          let p := if l = last then p.setLane e ((p.lane e).fill p.rrow acc) else p
          axpyRun s j p h last c rest

/-- AXPY (R350): the port runs its part of the chain, and ends when the chain has left its last block. -/
def execAxpy (w : BankF) (s : State) : Result :=
  runWord (checkAxpy w) (fun s b j p =>
    let n := w.count
    kvWord 1 p.kb n .read s j p fun s _ _ xs =>
      match axpyRun s j p (w.operand.toNat % 2) (p.kb + n - 1) (b.chainOf p) (xs.zipIdx p.kb) with
      | (s, q, c, true) => .stop (s.setChain b.id c) q 0x02
      | (s, q, c, false) =>
        let s := s.setChain b.id c
        if (xs.zipIdx p.kb).any fun x => c.next ≤ x.2 && x.1.bgu / 8 = p.die then .wait s q
        else .next s { q.go with kb := p.kb + n, axpys := p.axpys + 1 }) s

/-- Rows of a KVW from the application after the last one made (R354). -/
def kvwRows (s : State) (j : Job) (p : Port) (first : Nat) (places : List KvPlace) : Nat → State × Port × Option CopyStop
  | 0 => (s, p, none)
  | fuel + 1 =>
    let i := p.done
    let t := p.tpos + i
    match places[t / 16 - first]? with
    | none => (s, p, some (.fail 0x02))
    | some x =>
      if x.bgu / 8 ≠ p.die then kvwRows s j { p with done := i + 1 } first places fuel
      else
        match ordBytes s j p.die (p.ra.toNat + 129 * i) 129 with
        | (s, .error f) => (s, p, some f)
        | (s, .ok row) =>
          let u := t % 16
          let data := x.pas.drop (128 * u) |>.take 128
          let s := s.logHeld (data ++ x.pas.drop 2048) 3 p.die j.entry
          let s := (data.zip row).foldl (fun s y => s.writeArray y.1 y.2) s
          let s := s.writeArray (x.byteAt (2048 + u)) (row.getD 128 0)
          let s := (x.pas.drop 2064).foldl (fun s pa => s.writeArray pa 0) s
          kvwRows (s.chargeBank j 3) j { p with done := i + 1 } first places fuel

/-- KVW (R354): rows of one kind appended at TPOS. -/
def kvwWord (w : BankF) (kind : Nat) (s : State) (_ : BankJob) (j : Job) (p : Port) : WordEnd :=
  let n := w.count
  let first := p.tpos / 16
  kvWord kind first ((p.tpos + n - 1) / 16 - first + 1) .write s j p fun s _ _ xs =>
    endApps (kvwRows s j p first xs (n - p.done)) fun q =>
      { q with ra := p.ra + BitVec.ofNat 64 (129 * n), tpos := p.tpos + n, seq := max p.seq (p.tpos + n),
               kvwRaised := p.kvwRaised || decide (p.seq < p.tpos + n) }

def execKvwK (w : BankF) (s : State) : Result := runWord (checkKvwK w) (kvwWord w 0) s
def execKvwV (w : BankF) (s : State) : Result := runWord (checkKvwV w) (kvwWord w 1) s

/-! ### Results (R351-R353) -/

/-- Some block of the slots named still waits for its conversion. -/
def Port.pending (p : Port) (q n : Nat) : Bool := p.blocks.any fun x => decide (q ≤ x.slot ∧ x.slot < q + n)

/-- CVT (R351): it waits until every conversion stage of the port is empty. -/
def execCvt (w : BankF) (s : State) : Result :=
  runWord (checkCvt w) (fun s _ _ p => if p.blocks.isEmpty then .next s p.go else .wait s p) s

/-- ACCZ (R352): slots made FREE on all eight lanes. -/
def execAccz (w : BankF) (s : State) : Result :=
  runWord (checkAccz w) (fun s _ j p =>
    let q := w.operand.toNat
    if p.pending q w.rep.toNat then .wait s p
    else
      let clear := fun (l : Lane) => { l with slots := Vector.ofFn fun i =>
        if q ≤ i.val ∧ i.val < q + w.rep.toNat then ({} : RowSlot) else l.slots[i] }
      .next (s.chargeBank j 8) { p.go with lanes := p.lanes.map clear }) s

/-- The 16 bytes of a result record (R353). -/
def RowSlot.record (r : RowSlot) : List Byte :=
  r.acc.toList.flatMap fun a => toBytes 4 (if a.2 then poisonFP32 else a.1).toNat

/-- The records of a DRN, slot by slot and lane by lane (R353): what stopped them, and at which. -/
def drainSlots (s : State) (j : Job) (p : Port) : List ((Nat × Nat) × Nat) → State × Option (CopyStop × Nat)
  | [] => (s, none)
  | ((q, e), i) :: rest =>
    let r := (p.lane e).slot q
    if !r.assigned then drainSlots s j p rest
    else
      let bad := r.acc.toList.any (·.2)
      if bad ∧ 65535 < r.rho then (s, some (.fail 0x02, i))
      else
        match reach s (bankAccess j.ctx p.die .write) [{ va := (p.wa.toNat + 16 * r.rho) % 2 ^ 64, len := 16 }] with
        | (s, .error f) => (s, some (.suspend f.1 f.2, i))
        | (s, .ok pas) =>
          let s := (s.logHeld pas.flatten 3 p.die j.entry).putBytes pas.flatten r.record
          let s := if bad then s.modBank j.id fun b => { b with poison := if b.poison.contains r.rho then b.poison else r.rho :: b.poison }
            else s
          drainSlots s j p rest

/-- The row slots of a DRN with their numbers, from the application after the last one made (R340). -/
def drainList (q n done : Nat) : List ((Nat × Nat) × Nat) :=
  (((upFrom q n).flatMap fun i => (List.range 8).map fun e => (i, e)).zipIdx).drop done

/-- 64-byte units that the BGU of a lane writes for some slots of a DRN (R344). -/
def drainUnits (p : Port) (xs : List (Nat × Nat)) (e : Nat) : Nat :=
  ((xs.filter fun x => x.2 = e && ((p.lane e).slot x.1).assigned).map fun x => (p.wa.toNat + 16 * ((p.lane e).slot x.1).rho) / 64).eraseDups.length

/-- The slots of the bank meter that the first `i` records of a DRN take (R69, R344). -/
def drainCost (p : Port) (q n i : Nat) : Nat :=
  let xs := ((drainList q n 0).take i).map (·.1)
  ((List.range 8).map (drainUnits p xs)).foldl (· + ·) 0

/-- DRN (R353): the units written are charged, those before a stop or a suspension too (R69, R359). -/
def execDrn (w : BankF) (s : State) : Result :=
  runWord (checkDrn w) (fun s _ j p =>
    let q := w.operand.toNat
    let n := w.rep.toNat
    let charge := fun (s : State) (i : Nat) => s.chargeBank j (drainCost p q n i - drainCost p q n p.done)
    if p.wa.toNat % 16 ≠ 0 then .stop s p 0x02
    else if p.pending q n then .wait s p
    else
      match drainSlots s j p (drainList q n p.done) with
      | (s, some (.suspend code va, i)) => .suspend (charge s i) { p with done := i } code va
      | (s, some (.fail code _, i)) => .stop (charge s i) p code
      | (s, none) => .next (charge s (8 * n)) p.go) s

/-! ### The sequencer's own events -/

/-- REDUCTION_BLOCK_CONVERT (R123): the oldest finished block of the port whose turn it is. -/
def execReductionBlockConvert (s : State) : Result :=
  match s.job? s.subj.job, s.bankJob? s.subj.job with
  | some j, some b =>
    match b.port? s.subj.port with
    | none => .next s
    | some p =>
      match s.convertOldest p j.entry with
      | (s, p) => .next (s.setPort b.id p)
  | _, _ => .next s

/-- Every port has halted and its conversion stages are empty (R360). -/
def BankJob.finished (b : BankJob) : Bool := !b.ended && b.ports.all fun p => p.halted && p.blocks.isEmpty

/-- The end of a bank job is due: it has finished, no refresh keeps a write from its array, and it waits for no read (R13, R360). -/
def State.bankEnds (s : State) (b : BankJob) : Bool :=
  b.finished && !s.drainWaits && (s.job? b.id).any fun j => j.phase == .running && decide (j.holdOff ≤ s.beat)

/-- BANK_JOB_END (R360): writes performed at memory scope, SEQLEN raised where KVW raised SEQ, references released. The
signal and the tag follow at ENGINE_JOB_END. -/
def execBankJobEnd (s : State) : Result :=
  match s.job? s.subj.job, s.bankJob? s.subj.job with
  | some j, some b =>
    if !(s.bankEnds b) then .next s
    else
      let s₀ := s
      let s := s.drainWrites
      let raised := b.ports.filter (·.kvwRaised)
      let seq := raised.foldl (fun n p => max n p.seq) 0
      let up : State × Option (BitVec 8 × Nat) :=
        if raised.isEmpty then (s, none)
        else
          let d := (raised.map (·.die)).headD 0
          raiseSeqLen s (bankAccess j.ctx d .atomic) (3, d) j.entry b.tab.addr seq
      match up with
      | (s, some f) => .next ((s.suspendJob j.id f.1 f.2 pathBank).orJob s₀ j.id)
      | (s, none) =>
        .next ((((s.releaseRefs b.id).modBank b.id fun b => { b with ended := true }).freeMcs b.id |>.modJob j.id
          fun j => { j with phase := .done }).orJob s₀ j.id)
  | _, _ => .next s

/-- ORDINARY_ACCESS (R128): a waiting access is served, so the oldest line of the write queue enters its array. -/
def execOrdinaryAccess (s : State) : Result := .next s.drainLine

/-- Beats of some BGU cycles at the present step of the main clock, rounded up: 6.5 beats to a cycle at the nominal step (R10, R119). -/
def State.cycleBeats (s : State) (cycles : Nat) : Nat := ceilDiv (cycles * [650, 585, 520, 455, 325].getD s.gov.clockStep 650) 100

/-- PER_BANK_REFRESH (R130): the BGU of the event pauses while one of its banks refreshes, and the pause is counted. -/
def execPerBankRefresh (bank cycles : Nat) (s : State) : Result :=
  let n := s.subj.bgu
  let m := s.mcsAt (n / 8)
  if 384 ≤ n ∨ 4 ≤ bank ∨ (s.pauses.any fun x => x.1 / 4 = n / 4) then .next s
  else
    .next { s.setMcs (n / 8) { m with pauseCycles := (m.pauseCycles + cycles) % 2 ^ 32 } with
      pauses := SMap.set (0, 0) s.pauses n (bank, s.beat + s.cycleBeats cycles) }

/-- REFRESH_END (R13): a pause that has lasted its cycles is over, the BGU goes on, and the writes that waited for the bank enter its
array. -/
def execRefreshEnd (s : State) : Result :=
  let n := s.subj.bgu
  let bank := (SMap.get (0, 0) s.pauses n).1
  if s.beat < (SMap.get (0, 0) s.pauses n).2 then .next s
  else
    let t := { s with pauses := SMap.set (0, 0) s.pauses n (0, 0) }
    .next (t.flush fun pa => regionOf pa == .package && (placeOf pa).bgu == n && (placeOf pa).bank == bank)

/-- The word at a port's address, in aligned 64-byte units as they are fetched (R124), or the one that has begun. -/
def State.fetchPort (s : State) (j : Job) (p : Port) : State × Except (BitVec 8 × Nat) (BitVec 48) :=
  match p.word with
  | some w => (s, .ok w)
  | none =>
    let a := p.pc.toNat
    let u := a / 64 * 64
    let spans : List Span := if a % 64 ≤ 58 then [{ va := u, len := 64 }] else [{ va := u, len := 64 }, { va := (u + 64) % 2 ^ 64, len := 64 }]
    match reach s { bankAccess j.ctx p.die .read with lanes := true } spans with
    | (s, .error f) => (s, .error f)
    | (s, .ok pas) => (s.ordinaryRead pas.flatten, .ok (BitVec.ofNat 48 (fromBytes (((pas.flatten.drop (a % 64)).take 6).map s.readByte))))

end Sys2Proof.Machine
end

