-- ==== Sys2Proof/Machine/Gcm.lean ====
section
/-! DEFINITION. AES-256 (FIPS 197) in Galois/Counter Mode (SP 800-38D), by which confidential copies are opened (R56). PRESUMED:
the functions are those of the standards (PRESUMED, log 15). -/

namespace Sys2Proof.Machine

/-! ### AES-256 -/

/-- Multiplication by x in the field of AES. -/
def xtime (a : Nat) : Nat := if a < 128 then 2 * a else (2 * a % 256) ^^^ 0x1B

/-- The product in the field of AES. -/
def gfMul (a b : Nat) : Nat :=
  ((List.range 8).foldl (fun (acc : Nat × Nat) i => (if b / 2 ^ i % 2 = 1 then acc.1 ^^^ acc.2 else acc.1, xtime acc.2)) (0, a)).1

/-- x^254, the inverse of x and 0 for 0. -/
def gfInv (x : Nat) : Nat :=
  let x2 := gfMul x x
  let x3 := gfMul x2 x
  let x6 := gfMul x3 x3
  let x12 := gfMul x6 x6
  let x15 := gfMul x12 x3
  let x30 := gfMul x15 x15
  let x60 := gfMul x30 x30
  let x120 := gfMul x60 x60
  let x126 := gfMul x120 x6
  let x127 := gfMul x126 x
  gfMul x127 x127

/-- A byte rotated left. -/
def rotByte (b n : Nat) : Nat := b * 2 ^ n % 256 + b * 2 ^ n / 256

/-- The substitution of one byte. -/
def subByte (x : Nat) : Nat :=
  let b := gfInv x
  b ^^^ rotByte b 1 ^^^ rotByte b 2 ^^^ rotByte b 3 ^^^ rotByte b 4 ^^^ 0x63

/-- The substitution as a table. -/
def subTable : Array Nat := ((List.range 256).map subByte).toArray

def subOf (x : Nat) : Nat := subTable.getD x 0

def xorBytes (a b : List Nat) : List Nat := List.zipWith (· ^^^ ·) a b

/-- The words of the key schedule after the key's own eight, newest first. -/
def expandKey : Nat → List (List Nat) → List (List Nat)
  | 0, ws => ws
  | n + 1, ws =>
    let i := ws.length
    let last := ws.headD []
    let t := if i % 8 = 0 then
        xorBytes ((last.drop 1 ++ last.take 1).map subOf) [2 ^ (i / 8 - 1), 0, 0, 0]
      else if i % 8 = 4 then last.map subOf else last
    expandKey n (xorBytes (ws.getD 7 []) t :: ws)

/-- The fifteen round keys, 16 bytes each. -/
def roundKeys (key : List Nat) : List (List Nat) :=
  let ws := (expandKey 52 ((List.range 8).map fun i => (key.drop (4 * i)).take 4).reverse).reverse
  (List.range 15).map fun r => ((ws.drop (4 * r)).take 4).flatten

/-- Bytes substituted and rows shifted: byte r + 4 c comes from column c + r. -/
def shiftSub (s : List Nat) : List Nat :=
  let a := s.toArray
  (List.range 16).map fun i => subOf (a.getD (i % 4 + 4 * ((i / 4 + i % 4) % 4)) 0)

/-- One column mixed. -/
def mixColumn : List Nat → List Nat
  | [a, b, c, d] =>
    [xtime a ^^^ (xtime b ^^^ b) ^^^ c ^^^ d, a ^^^ xtime b ^^^ (xtime c ^^^ c) ^^^ d, a ^^^ b ^^^ xtime c ^^^ (xtime d ^^^ d),
     (xtime a ^^^ a) ^^^ b ^^^ c ^^^ xtime d]
  | x => x

def mixColumns (s : List Nat) : List Nat := (List.range 4).flatMap fun c => mixColumn ((s.drop (4 * c)).take 4)

/-- One block enciphered under round keys. -/
def aesBlock (keys : List (List Nat)) (block : List Nat) : List Nat :=
  let s := xorBytes block (keys.getD 0 [])
  let s := (List.range 13).foldl (fun s r => xorBytes (mixColumns (shiftSub s)) (keys.getD (r + 1) [])) s
  xorBytes (shiftSub s) (keys.getD 14 [])

/-! ### Galois/Counter Mode -/

/-- Bytes as a big-endian number. -/
def beNum (bs : List Nat) : Nat := bs.foldl (fun n b => 256 * n + b) 0

/-- A number as big-endian bytes. -/
def beBytes (n x : Nat) : List Nat := ((List.range n).map fun i => x / 256 ^ i % 256).reverse

/-- The product of two blocks in GF(2^128), bit 0 the most significant of the first byte. -/
def ghashMul (x y : Nat) : Nat :=
  ((List.range 128).foldl (fun (acc : Nat × Nat) i =>
    (if x / 2 ^ (127 - i) % 2 = 1 then acc.1 ^^^ acc.2 else acc.1,
     if acc.2 % 2 = 1 then (acc.2 / 2) ^^^ (0xE1 * 2 ^ 120) else acc.2 / 2)) (0, y)).1

/-- Blocks of 16 bytes, the last one filled with zeros. -/
def gcmBlocks (bs : List Nat) : List Nat :=
  (List.range (ceilDiv bs.length 16)).map fun i =>
    let b := (bs.drop (16 * i)).take 16
    beNum (b ++ List.replicate (16 - b.length) 0)

/-- GHASH of a ciphertext with no additional data. -/
def ghash (h : Nat) (cipher : List Nat) : Nat :=
  let n := (gcmBlocks cipher).foldl (fun y x => ghashMul (y ^^^ x) h) 0
  ghashMul (n ^^^ (8 * cipher.length)) h

/-- The counter block `n` of a 12-byte IV. -/
def gcmCounter (iv : List Nat) (n : Nat) : List Nat := iv ++ beBytes 4 (n % 2 ^ 32)

/-- A ciphertext opened with AES-256-GCM and no additional data: the plaintext, when the tag verifies (R56). -/
def gcmOpen (key iv : List Nat) (cipher tag : List Byte) : Option (List Byte) :=
  let keys := roundKeys key
  let c := cipher.map (·.toNat)
  let h := beNum (aesBlock keys (List.replicate 16 0))
  let want := ghash h c ^^^ beNum (aesBlock keys (gcmCounter iv 1))
  if want = beNum (tag.map (·.toNat)) then
    let stream := (List.range (ceilDiv c.length 16)).flatMap fun i => aesBlock keys (gcmCounter iv (i + 2))
    some ((xorBytes c stream).map (BitVec.ofNat 8))
  else none

end Sys2Proof.Machine
end

