-- ==== Sys2Proof/Machine/Matrix.lean ====
section
/-! DEFINITION. The matrix array in ordinary mode: descriptors and issue (R317-R323), planes (R187-R190, R201, R202),
streaming and landing (R191-R194), the drain port (R195), job faults (R198) and job order (R197). -/

namespace Sys2Proof.Machine

/-! ### Descriptors (Table 16.2) -/

/-- A matrix descriptor, and whether its reserved bytes and bits are zero. -/
def parseMat (bs : List Byte) : MatDesc × Bool :=
  ({ addr := BitVec.ofNat 64 (numAt bs 0 8), stride := sext 32 (numAt bs 8 4), rows := numAt bs 0x0C 2, accBase := numAt bs 0x0E 2,
     scales := BitVec.ofNat 64 (numAt bs 0x10 8), metadata := BitVec.ofNat 64 (numAt bs 0x18 8), depth := numAt bs 0x20 4,
     count := numAt bs 0x24 4, format := numAt bs 0x28 1, flags := BitVec.ofNat 8 (numAt bs 0x29 1), qreg := numAt bs 0x2A 1 % 16,
     exp := sext 16 (numAt bs 0x2C 2), period := numAt bs 0x2E 2, lrows := numAt bs 0x30 4, group := numAt bs 0x34 2,
     ksteps := numAt bs 0x36 1 },
   numAt bs 0x29 1 < 128 && numAt bs 0x2A 1 < 16 && numAt bs 0x2B 1 == 0 && numAt bs 0x37 9 == 0)

def MatDesc.scaled (d : MatDesc) : Bool := d.flags.getLsbD 0
def MatDesc.sparse (d : MatDesc) : Bool := d.flags.getLsbD 1
def MatDesc.k4 (d : MatDesc) : Bool := d.flags.getLsbD 2
def MatDesc.qsrc (d : MatDesc) : Bool := d.flags.getLsbD 3
def MatDesc.last (d : MatDesc) : Bool := d.flags.getLsbD 4
def MatDesc.clear (d : MatDesc) : Bool := d.flags.getLsbD 5
def MatDesc.strict (d : MatDesc) : Bool := d.flags.getLsbD 6

/-- ADDR and STRIDE are multiples of 64 (R317). -/
def MatDesc.aligned (d : MatDesc) : Bool := d.addr.toNat % 64 == 0 && d.stride % 64 == 0

/-- NROWS and ACCBASE name accumulator rows that exist. -/
def MatDesc.rowsOk (d : MatDesc) : Bool := decide (1 ≤ d.rows ∧ d.rows ≤ 1024 ∧ d.accBase + d.rows ≤ 1024)

/-- A plane or row format: 0x09 to 0x0D. -/
def MatDesc.planeFmt (d : MatDesc) : Bool := decide (9 ≤ d.format ∧ d.format ≤ 13)

/-- FORMAT code of Table 5.7 of an element type code of Table 12.4. -/
def lfmtOf (ty : Nat) : Nat := if ty = 3 then 8 else ty - 7

/-- Bytes of a streamed row (R320). -/
def MatDesc.rowBytes (d : MatDesc) : Nat := if d.sparse then 768 else 384

/-- Scales of a streamed row (R193). -/
def MatDesc.rowScales (d : MatDesc) : Nat := if !d.scaled then 0 else if d.sparse then 6 else 3

/-- Address of row or column `i` of a descriptor, modulo 2^64. -/
def MatDesc.at_ (d : MatDesc) (i : Nat) : Nat := wrap 64 (d.addr.toNat + i * d.stride)

/-! ### The array of a yard -/

def State.arr (s : State) (y : Fin 8) : MatArray := s.yards[y].arr

def State.setArr (s : State) (y : Fin 8) (a : MatArray) : State :=
  { s with yards := s.yards.set y { s.yards[y] with arr := a } }

def State.modArr (s : State) (y : Fin 8) (f : MatArray → MatArray) : State := s.setArr y (f (s.arr y))

/-- No row is live (R187). -/
def MatArray.retired (a : MatArray) : Bool := a.live.isEmpty

/-- The accumulator word of a row and column; a row that is not live reads +0.0 (R187). -/
def MatArray.word (a : MatArray) (row col : Nat) : W32 := SMap.get 0 a.acc (64 * row + col)

def MatArray.isLive (a : MatArray) (row : Nat) : Bool := a.live.any (·.1 = row)

/-- Live rows kept in ascending order. -/
def liveInsert (row cont : Nat) (live : SMap Nat) : SMap Nat := insertBy (fun x y => decide (x.1 < y.1)) (row, cont) live

/-- A row set to +0.0 and not live, unless a row that has streamed since is still to land on it: that one makes it live
(R187, R191). -/
def MatArray.clearRow (a : MatArray) (row : Nat) : MatArray :=
  let rest := a.live.filter (·.1 ≠ row)
  { a with acc := a.acc.filter (fun w => w.1 / 64 ≠ row),
           live := match a.landings.find? (·.accRow = row) with
             | some l => liveInsert row l.cont rest
             | none => rest }

/-- A row made live by a continuation (R187, R199). -/
def MatArray.makeLive (a : MatArray) (row cont beat : Nat) : MatArray :=
  if a.isLive row then a
  else { a with liveSince := if a.live.isEmpty then beat else a.liveSince, live := liveInsert row cont a.live }

/-- Sticky flags of the array set (R192). -/
def MatArray.raise (a : MatArray) (f : Sticky) : MatArray :=
  { a with invalid := a.invalid || f.invalid, overflow := a.overflow || f.overflow, underflow := a.underflow || f.underflow,
           inexact := a.inexact || f.inexact }

/-! ### Group terms (R188, R192, R201) -/

/-- Products per group (R188). -/
def groupSize (ty : Nat) : Nat := if ty = 9 || ty = 10 then 16 else 32

/-- The formats form a pair of R188. -/
def formatPair (stationary streamed : Nat) : Bool :=
  stationary == streamed || ((stationary == 11 || stationary == 12) && (streamed == 11 || streamed == 12))

/-- The elements that bytes hold, packed by R215 for E2M1. -/
def elemsOf (ty : Nat) (bs : List Byte) : List Num :=
  let codes := if ty = 13 then nibbles bs else if elemBits ty = 16 then (chunks 2 bs).map fromBytes else bs.map (·.toNat)
  codes.map (decodeElem (lfmtOf ty))

/-- Metadata code of group `m` of a column: the kept positions i and j (R201). -/
def metaCode (metadata : List Byte) (m : Nat) : Nat × Nat :=
  let c := (metadata.getD (m / 2) 0).toNat / 16 ^ (m % 2) % 16
  (c % 4, c / 4)

/-- The dense position of stored element `q` of a column (R192, R201). -/
def densePos (p : Plane) (col : PlaneCol) (q : Nat) : Nat :=
  if p.sparse then
    let ij := metaCode col.metadata (q / 2)
    4 * (q / 2) + (if q % 2 = 0 then ij.1 else ij.2)
  else q

/-- The exact sum of one group's products, and whether it is a NaN made from operands that are none. -/
def groupSum (xs : List (Num × Num)) : Num × Bool :=
  let sum := xs.foldl (fun acc x => (acc.add (x.1.mul x.2).1).1) (.fin false 0 0)
  (sum, sum.isNan && xs.all fun x => !x.1.isNan && !x.2.isNan)

/-- The term of one group: its sum scaled and rounded once; a zero sum gives +0.0 (R192). -/
def groupTerm (sw sa : Nat) (xs : List (Num × Num)) : W32 × Sticky :=
  if sw = 0xFF || sa = 0xFF then (nanFP32, {})
  else
    match groupSum xs with
    | (v, bad) =>
      if v.isZero then (0, {})
      else
        match roundFP32 (v.scale ((sw : Int) - 127 + ((sa : Int) - 127))) with
        | (x, f) => (x, { f with invalid := f.invalid || bad })

/-- The terms of one column, groups in ascending K (R192). -/
def columnTerms (p : Plane) (sty : Nat) (row : List Num) (scales : List Byte) (col : PlaneCol) : List (W32 × Sticky) :=
  let g := groupSize p.fmt
  let w := elemsOf p.fmt col.bytes
  (List.range (w.length / g)).map fun n =>
    let at_ := upFrom (n * g) g
    let sw := (col.scales.getD (n * g * elemBits p.fmt / 1024) 127).toNat
    let first := if p.sparse then 2 * n * g else n * g
    let sa := (scales.getD (first * elemBits sty / 1024) 127).toNat
    groupTerm sw sa (at_.map fun q => (w.getD q (.fin false 0 0), row.getD (densePos p col q) (.fin false 0 0)))

/-- The terms of a streamed row for the 64 columns, and the flags they raise. -/
def rowTerms (p : Plane) (sty : Nat) (row scales : List Byte) : List (List W32) × Sticky :=
  let a := elemsOf sty row
  let all := p.cols.map (columnTerms p sty a scales)
  (all.map (·.map (·.1)), stickyAll (all.flatMap (·.map (·.2))))

/-- Terms added in order to an accumulator word. -/
def addTerms (x : W32) (ts : List W32) : W32 × Sticky :=
  ts.foldl (fun acc t => match addFP32 acc.1 t with
    | (v, f) => (v, acc.2.or f)) (x, {})

/-- A landing's terms added to its row (R191, R192). -/
def MatArray.addLanding (a : MatArray) (l : Landing) : MatArray :=
  l.terms.zipIdx.foldl (fun a t =>
    match addTerms (a.word l.accRow t.2) t.1 with
    | (x, f) => ({ a with acc := SMap.set 0 a.acc (64 * l.accRow + t.2) x }.raise f)) a

/-! ### Job faults (R198) -/

/-- The job runs on a matrix array. -/
def Job.onArray (j : Job) : Bool := match j.unit with
  | .array _ => true
  | _ => false

/-- The job has not ended. -/
def Job.open_ (j : Job) : Bool :=
  match j.phase with
  | .done | .failed _ => false
  | _ => true

/-- A later matrix job of the same continuation (R198). -/
def Job.follows (x j : Job) : Bool := x.cont == j.cont && x.onArray && decide (j.id < x.id) && x.open_

/-- An MSTRM of which every row has streamed (R191). -/
def Job.streamed (j : Job) : Bool :=
  j.phase == .running && match j.kind with
    | .mstrm d _ => j.mpc == d.rows
    | _ => false

/-! ### Landings (R191, R204) -/

/-- Rows per group: g × k (R204). -/
def MatDesc.groupRows (d : MatDesc) : Nat := d.group * d.ksteps

/-- Group of a row (R204). -/
def Lunge.groupOf (l : Lunge) (r : Nat) : Nat := r / l.desc.groupRows

/-- A demand raised (R204). The list keeps the order in which demands were raised; the first 64 of it wait in the queue. -/
def Lunge.post (l : Lunge) (kind index due : Nat) : Lunge := { l with demands := l.demands ++ [{ kind := kind, index := index, due := due }] }

/-- Kinds of demand (Table 10.3). -/
def demandOperand : Nat := 1
def demandDrain : Nat := 2
def demandPlane : Nat := 3

/-- Every row of a group of a run has streamed and has landed (R204). -/
def MatArray.groupLanded (a : MatArray) (l : Lunge) (g : Nat) : Bool :=
  decide ((g + 1) * l.desc.groupRows ≤ l.next) && !(a.landings.any fun x => x.job == l.job && x.lungeRow.any (l.groupOf · == g))

/-- A row of a run has landed: the last of a group raises its drain demand (R204). -/
def MatArray.rowLanded (a : MatArray) (job r beat : Nat) : MatArray :=
  match a.lunge with
  | none => a
  | some l =>
    if l.job ≠ job then a
    else
      let l := { l with landed := l.landed + 1 }
      let g := l.groupOf r
      { a with lunge := some (if a.groupLanded l g then { l with drains := l.drains ++ [g] }.post demandDrain g beat else l) }

/-- A landing lands (R191). -/
def MatArray.land (a : MatArray) (l : Landing) (beat : Nat) : MatArray :=
  let a := ({ a with landings := a.landings.erase l }).addLanding l
  match l.lungeRow with
  | some r => a.rowLanded l.job r beat
  | none => a

/-- The array as a fault of job `job` of a continuation leaves it (R193, R198): the rows of that job and of earlier ones that are in
flight to rows of the continuation have landed, those of later ones, which are cancelled, are gone with the rows that they drained, and
the rows that the continuation made live are cleared. To rows that another made live they land in their time (DEDUCED, log 91). -/
def MatArray.dropCont (a : MatArray) (cont job beat : Nat) : MatArray :=
  let own := fun (l : Landing) => l.cont == cont && a.live.any fun r => r.1 == l.accRow && r.2 == cont
  let b := { a with landings := a.landings.filter (fun l => l.cont ≠ cont || decide (l.job ≤ job)),
                    drained := a.drained.filter (fun r => !(r.cont == cont) || decide (r.job ≤ job)) }
  ((b.landings.filter own).foldl (fun a l => a.land l beat) b).clearRows (· = cont)

/-- A matrix job fault: the job stops, later matrix jobs of its continuation are cancelled with records of their own, and the
rows that the continuation made live are cleared (R198). -/
def State.matFault (s : State) (j : Job) (mpc : Nat) (code : BitVec 8) : State :=
  let s := { s with yards := s.yards.map fun (y : Yard) => { y with arr := y.arr.dropCont j.cont j.id s.beat } }
  let lands := fun (x : Job) => s.yards.toList.any fun y => y.arr.landings.any (·.job = x.id)
  let stop := fun (x : Job) =>
    if x.id = j.id || x.follows j then { x with phase := .failed code, mpc := mpc, va := 0, path := 0 }
    else if x.cont = j.cont && x.streamed && !(lands x) then { x with phase := .done }
    else x
  let s := { s with jobs := s.jobs.map stop }
  s.modCont j.cont fun c => { c with matFault := code, matCancel := some (code, mpc) }

/-- The cancel mark of a continuation's matrix jobs (R198). -/
def State.matCancelOf (s : State) (cont : Nat) : Option (BitVec 8 × Nat) :=
  match s.cores.toList.find? (fun c => c.running && c.cont = cont) with
  | some c => c.matCancel
  | none => (s.ready.findSome? fun r => r.saved.bind fun c => if c.cont = cont then some c.matCancel else none).join

/-! ### Reads of the array -/

/-- An access of a job of the array on a path (Table 6.2; DEDUCED, log 26). -/
def arrayAccess (ctx : Nat) (y : Fin 8) (path : Nat) (need : Need) : Access :=
  { ctx := ctx, path := path, need := need, cache := .yard y }

/-- The access that reads a plane's range: from the loft, or from package memory through ordinary reads, as its first byte
has it (R189, R318); the array asks for it, under the MATRIX bit (R82). -/
def planeAccess (s : State) (ctx : Nat) (y : Fin 8) (va : Nat) : Access :=
  let ordinary := match (translate s { ctx := ctx, path := pathOrd, checkPath := false, need := .read, cache := .yard y } va).2 with
    | .ok (pa, _) => regionOf pa == .package
    | .error _ => false
  { arrayAccess ctx y pathMatrix .read with ordinary := ordinary }

/-- Bytes that a job reads, or the fault it is suspended on: code, address and path. -/
def State.unitRead (s : State) (a : Access) (va n : Nat) : State × Except (BitVec 8 × Nat × Nat) (List Byte) :=
  match reach s a [{ va := va, len := n, unit := 4 }] with
  | (s, .error f) => (s, .error (f.1, f.2, a.path))
  | (s, .ok pas) => (s.ordinaryRead pas.flatten, .ok (pas.flatten.map s.readByte))

/-- The stream binding of a continuation's q register. -/
def State.contStream (s : State) (cont q : Nat) : Option Stream :=
  match s.cores.toList.find? (fun c => c.running && c.cont = cont) with
  | some c => c.getQ q
  | none => s.ready.findSome? fun r => r.saved.bind fun c => if c.cont = cont then c.getQ q else none

/-- Elements of one vector of a stream. -/
def Stream.perVector (b : Stream) : Nat := 1024 / elemBits b.fmt

/-- A stream after `n` of its elements have been drawn; it is unbound after its last, and what is left of a vector is read again
(R173). -/
def Stream.drawn (b : Stream) (n : Nat) : Option Stream :=
  if b.total ≤ b.pos + n then none
  else some { b with pos := b.pos + n, buf := if n % b.perVector = 0 then b.buf.drop (n / b.perVector) else [], fault := none }

/-- The transfer unit has `n` elements of the stream ready. -/
def Stream.holds (b : Stream) (n : Nat) : Bool := decide (n ≤ b.buf.length * b.perVector)

/-- The next `n` elements of a continuation's read stream can be drawn on this beat (R191, R194): they are there, or the transfer
unit has met a fault; the array reads those of a continuation that no core runs itself (DEDUCED, log 77). -/
def State.drawable (s : State) (cont q n : Nat) : Bool :=
  !(s.cores.toList.any fun c => c.running && c.cont = cont) || (s.contStream cont q).all fun b => b.holds n || b.fault.isSome

/-- `n` elements drawn from a continuation's read stream by the array, or the fault it is suspended on (R320). -/
def State.draw (s : State) (ctx : Nat) (y : Fin 8) (cont q n : Nat) : State × Except (BitVec 8 × Nat × Nat) (Nat × List Nat) :=
  match s.contStream cont q with
  | none => (s, .ok (8, []))
  | some b =>
    let w := elemBits b.fmt
    let take := fun (s : State) (xs : List Nat) => (s.modCont cont fun c => { c with q := vset c.q q (b.drawn n) }, .ok (w, xs))
    if b.holds n then take s ((b.buf.flatMap fun v => lanesOf w b.perVector v.toNat).take n)
    else
      match s.readElems (arrayAccess ctx y pathStream .read) b b.pos n with
      | (s, .error f) => (s, .error (f.1, f.2, pathStream))
      | (s, .ok xs) => take s xs

/-- Elements left in a continuation's stream. -/
def State.streamLeft (s : State) (cont q : Nat) : Nat :=
  match s.contStream cont q with
  | some b => if b.isWrite then 0 else b.total - b.pos
  | none => 0

/-- Scales that the binding still holds (R193). -/
def State.scalesLeft (s : State) (y : Fin 8) : Nat :=
  match (s.arr y).scale with
  | .none => 0
  | .loft _ left _ => left
  | .stream cont q => s.streamLeft cont q

/-- `n` scales taken from the binding in lockstep with a row (R193). -/
def State.takeScales (s : State) (y : Fin 8) (n : Nat) : State × Except (BitVec 8 × Nat × Nat) (List Byte) :=
  match (s.arr y).scale with
  | .none => (s, .ok [])
  | .loft addr left ctx =>
    match s.unitRead (arrayAccess ctx y pathMatrix .read) addr.toNat n with
    | (s, .error f) => (s, .error f)
    | (s, .ok bs) =>
      (s.modArr y fun a => { a with scale := if left = n then .none else .loft (addr + BitVec.ofNat 64 n) (left - n) ctx }, .ok bs)
  | .stream cont q =>
    let ctx := match s.cores.toList.find? (fun c => c.running && c.cont = cont) with
      | some c => c.ctx
      | none => (s.arr y).lastCtx.getD 0
    match s.draw ctx y cont q n with
    | (s, .error f) => (s, .error f)
    | (s, .ok (_, xs)) =>
      let s := if s.streamLeft cont q = 0 then s.modArr y fun a => { a with scale := .none } else s
      (s, .ok (xs.map (BitVec.ofNat 8)))

/-! ### What each job does -/

/-- A job is suspended at progress `mpc` (R99). -/
def State.suspendAt (s : State) (j : Job) (mpc : Nat) (f : BitVec 8 × Nat × Nat) : State :=
  (s.modJob j.id fun j => { j with mpc := mpc }).suspendJob j.id f.1 f.2.1 f.2.2

/-- A job's work is done. -/
def State.doneJob (s : State) (id : Nat) : State := s.modJob id fun j => { j with phase := .done }

/-- A job whose effect is made, and which its array holds through beat `b`. -/
def State.lastsUntil (s : State) (id b : Nat) : State := s.modJob id fun j => { j with until_ := max 1 b }

/-- A metadata string of 2:4 codes with i < j throughout (R202). -/
def metaOk (bs : List Byte) : Bool := bs.all fun b =>
  let x := b.toNat
  decide (x % 4 < x / 4 % 4) && decide (x / 16 % 4 < x / 64)

/-- The columns of a plane from the bytes read (R189, R318). -/
def planeCols (d : MatDesc) (raw : List (List Byte)) (scales : List Byte) (metadata : List (List Byte)) : List PlaneCol :=
  raw.zipIdx.map fun x =>
    if d.k4 then
      { bytes := x.1.take 128 ++ (x.1.drop 129).take 128 ++ (x.1.drop 258).take 128,
        scales := [x.1.getD 128 0, x.1.getD 257 0, x.1.getD 386 0], metadata := [] }
    else
      { bytes := x.1, scales := if d.scaled then (scales.drop (3 * x.2)).take 3 else [127, 127, 127],
        metadata := metadata.getD x.2 [] }

/-- Transfer capacity that a byte takes: a beat carries 384 bytes from the local slice, and 128 from a remote one or from package
memory (R189, DEDUCED, log 33). -/
def State.byteCost (s : State) (a : Access) (y : Fin 8) (va : Nat) : Nat :=
  match (translate s a va).2 with
  | .ok (pa, _) => if !a.ordinary && loftYard pa = y.val then 1 else 3
  | .error _ => 1

/-- Bytes of one column's metadata string (R201). -/
def MatDesc.metaLen (d : MatDesc) : Nat := if d.format = 11 || d.format = 12 then 96 else 48

/-- A range that an MLDS reads: the array it belongs to, whose first byte decides how it is read, its address and length, and
whether it holds metadata (R201, R318). -/
structure PlaneRange where
  base : W64
  va : Nat
  len : Nat
  codes : Bool := false
  deriving DecidableEq, Repr

/-- The ranges of an MLDS in the order in which it reads them: its columns, their scales, their metadata (R201, R318). -/
def MatDesc.planeRanges (d : MatDesc) : List PlaneRange :=
  (List.range 64).map (fun c => { base := d.addr, va := d.at_ c, len := if d.k4 then 387 else 384 })
    ++ (if d.scaled && !d.k4 then [{ base := d.scales, va := d.scales.toNat, len := 192 }] else [])
    ++ (if d.sparse then (List.range 64).map fun c =>
          { base := d.metadata, va := wrap 64 (d.metadata.toNat + d.metaLen * c), len := d.metaLen, codes := true } else [])

/-- The plane that the ranges of an MLDS give. -/
def MatDesc.plane (d : MatDesc) (loaded : List (List Byte)) : Plane :=
  let scaled := d.scaled && !d.k4
  { fmt := d.format, valid := false, ineligible := false, sparse := d.sparse,
    cols := planeCols d (loaded.take 64) (if scaled then loaded.getD 64 [] else []) (loaded.drop (if scaled then 65 else 64)) }

/-- The ranges of an MLDS read with the capacity it has, from its MPC on: a fault suspends it there, and a metadata code that is
none stops it with the shadow marked (R99, R189, R202). With its last range the shadow takes the plane. -/
def State.loadRanges (s : State) (j : Job) (y : Fin 8) (d : MatDesc) : List PlaneRange → State
  | [] => s
  | r :: rest =>
    let a := planeAccess s j.ctx y r.base.toNat
    let cost := ((piecesOf r.va r.len).map fun p => p.2 * s.byteCost a y p.1).foldl (· + ·) 0
    if j.credit < cost then s.modJob j.id fun x => { x with credit := j.credit }
    else
      match s.unitRead a r.va r.len with
      | (s, .error f) => (s.modJob j.id fun x => { x with credit := 0 }).suspendAt j j.mpc f
      | (t, .ok bs) =>
        if t.unserved then s.modJob j.id fun x => { x with credit := j.credit }
        else
        let s := t
        if r.codes && !(metaOk bs) then
          (s.modArr y fun a => { a with shadow := { a.shadow with ineligible := true } }).matFault j j.mpc 0x12
        else
          let j := { j with mpc := j.mpc + 1, loaded := j.loaded ++ [bs], credit := j.credit - cost }
          let s := s.modJob j.id fun x => { x with mpc := j.mpc, loaded := j.loaded }
          if rest.isEmpty then (s.modArr y fun a => { a with shadow := d.plane j.loaded }).lastsUntil j.id s.beat
          else s.loadRanges j y d rest

/-- An MLDS in one beat (R189). -/
def State.loadBeat (s : State) (j : Job) (y : Fin 8) (d : MatDesc) : State :=
  s.loadRanges { j with credit := j.credit + 384 } y d (d.planeRanges.drop j.mpc)

/-- An MLDS answers the plane demand that has been outstanding longest, claimed or not (R205). -/
def Lunge.takePlane (l : Lunge) : Lunge :=
  match l.planes with
  | [] => l
  | r :: rest => { l with planes := rest, demands := l.demands.filter fun d => !(d.kind == demandPlane && d.index == r) }

/-- MLDS begins (R189, R201): it needs SPARSE24 and an FP8, BF16 or FP16 plane where it is sparse. A plane demand that waits for
it is answered (R205; DEDUCED, log 75). -/
def State.runMlds (s : State) (j : Job) (y : Fin 8) (d : MatDesc) : State :=
  if d.sparse && !(s.accepts featSparse24 && d.format != 13) then s.matFault j 0 0x02
  else s.modArr y fun a => { a with lunge := a.lunge.map Lunge.takePlane }

/-- The job is an MLDS that has begun and whose plane is not complete. -/
def Job.loading (j : Job) : Bool :=
  j.begun && j.until_ == 0 && j.open_ && match j.kind with
    | .mlds _ => true
    | _ => false

/-- The shadow may be swapped in, or is marked ineligible: no MLDS of the entry is filling it (R190, R202, R206). -/
def State.shadowSettled (s : State) (y : Fin 8) (entry : Nat) : Bool :=
  ((s.arr y).shadow.valid || (s.arr y).shadow.ineligible) && !(s.jobs.any fun x => x.unit == .array y.val && x.entry == entry && x.loading)

/-- The planes exchanged: the shadow then holds the former stationary plane and is not valid (R190). -/
def MatArray.swap (a : MatArray) : MatArray :=
  { a with stationary := { a.shadow with valid := true }, shadow := { a.stationary with valid := false } }

/-- MSWAP (R190, R202, R319). -/
def State.runMswap (s : State) (j : Job) (y : Fin 8) : State :=
  if (s.arr y).shadow.ineligible then s.matFault j 0 0x12 else (s.modArr y MatArray.swap).lastsUntil j.id s.beat

/-- The faults that an MSTRM meets before its first row (R188, R199, R202, R315). -/
def MatArray.streamOk (a : MatArray) (d : MatDesc) (beat : Nat) : Bool :=
  let since := if a.live.isEmpty then beat else a.liveSince
  a.stationary.valid && formatPair a.stationary.fmt d.format && a.stationary.sparse == d.sparse
    && decide (beat + d.rows + 15 - since ≤ d.depth)

/-- The bytes of row `i`: from the loft, or drawn from the stream (R320). -/
def State.rowBytes (s : State) (j : Job) (y : Fin 8) (d : MatDesc) (i : Nat) : State × Except (BitVec 8 × Nat × Nat) (List Byte) :=
  if d.qsrc then
    let w := match s.contStream j.cont d.qreg with
      | some b => elemBits b.fmt
      | none => 8
    match s.draw j.ctx y j.cont d.qreg (8 * d.rowBytes / w) with
    | (s, .error f) => (s, .error f)
    | (s, .ok (w, xs)) => (s, .ok (toBytes d.rowBytes (packLanes w xs)))
  else s.unitRead (arrayAccess j.ctx y pathMatrix .read) (d.at_ i) d.rowBytes

/-- A row streams: its terms are formed and land 16 beats later (R191, R192). -/
def MatArray.stream (a : MatArray) (j : Job) (d : MatDesc) (accRow beat : Nat) (lungeRow : Option Nat) (row scales : List Byte) : MatArray :=
  match rowTerms a.stationary d.format row scales with
  | (ts, f) =>
    let a := (a.raise f).makeLive accRow j.cont beat
    { a with landings := a.landings ++ [{ job := j.id, cont := j.cont, accRow := accRow, terms := ts, lungeRow := lungeRow, at_ := beat + 16 }] }

/-- The elements of its q stream that a row of the job takes. -/
def State.rowElems (s : State) (j : Job) (d : MatDesc) : Nat :=
  match s.contStream j.cont d.qreg with
  | some b => 8 * d.rowBytes / elemBits b.fmt
  | none => 0

/-- The operands of the job's next row are there (R191, R194): the row and the scales that come from q streams. Too few scales are
no reason to wait: that is a fault (R193). -/
def State.operandsHere (s : State) (j : Job) (y : Fin 8) (d : MatDesc) : Bool :=
  (!d.qsrc || s.drawable j.cont d.qreg (s.rowElems j d))
    && (d.rowScales == 0 || decide (s.scalesLeft y < d.rowScales) || match (s.arr y).scale with
      | .stream cont q => s.drawable cont q d.rowScales
      | _ => true)

/-- The next row of an MSTRM in its beat (R191-R194): it streams with its scales; one that is not there stalls the job, or stops one
that has a stamp. -/
def State.streamRow (s : State) (j : Job) (y : Fin 8) (d : MatDesc) (stamp : Option Nat) : State :=
  let i := j.mpc
  if s.scalesLeft y < d.rowScales then s.matFault j i 0x11
  else if d.last && i + 1 = d.rows && decide (d.rowScales < s.scalesLeft y) then s.matFault j i 0x11
  else if !(s.operandsHere j y d) then (if stamp.isSome then s.matFault j i 0x10 else s)
  else
    match s.rowBytes j y d i with
    | (_, .error f) => s.suspendAt j i f
    | (s1, .ok row) =>
      match if d.rowScales = 0 then (s1, .ok []) else s1.takeScales y d.rowScales with
      | (_, .error f) => s.suspendAt j i f
      | (s2, .ok scales) =>
        (s2.modArr y fun a => a.stream j d (d.accBase + i) s.beat none row scales).modJob j.id fun j => { j with mpc := i + 1 }

/-- MSTRM begins (R191-R194, R199, R320): its rows stream one in a beat, and its end comes when the last has landed. -/
def State.runMstrm (s : State) (j : Job) (y : Fin 8) (d : MatDesc) : State :=
  if j.mpc = 0 && !((s.arr y).streamOk d s.beat) then s.matFault j 0 0x02 else s

/-- One drained row in the format of the descriptor, and its flags (R195, R321). -/
def drainBytes (ty : Nat) (xs : List W32) : List Byte × Sticky :=
  if ty = 8 then (xs.flatMap fun x => toBytes 4 x.toNat, {})
  else
    let es := xs.map fun x => encodeElem (lfmtOf ty) (fp32.decode x.toNat)
    let w := elemBits ty
    (toBytes (64 * w / 8) (packLanes w (es.map (·.1))), stickyAll (es.map (·.2)))

/-- An MDRN that its array has begun reads its next row (R195, R321): the row is converted, with CLEAR it is cleared, and its writes
are performed 8 beats later. -/
def State.drainRow (s : State) (j : Job) (y : Fin 8) (d : MatDesc) : State :=
  let i := j.mpc
  match drainBytes d.format ((List.range 64).map ((s.arr y).word (d.accBase + i))) with
  | (bs, f) =>
    match reach s (arrayAccess j.ctx y pathMatrix .write) [{ va := d.at_ i, len := bs.length, unit := 4 }] with
    | (s, .error f) => s.suspendAt j i (f.1, f.2, pathMatrix)
    | (s, .ok pas) =>
      let s := s.modArr y fun a =>
        let a := { a.raise f with drained := a.drained ++ [{ at_ := s.beat + 8, job := j.id, cont := j.cont, entry := j.entry, dst := pas.flatten, bytes := bs }] }
        if d.clear then a.clearRow (d.accBase + i) else a
      let s := s.modJob j.id fun j => { j with mpc := i + 1 }
      if i + 1 = d.rows then s.lastsUntil j.id (s.beat + 8) else s

/-- The drained rows whose beat has come are performed (R195). -/
def State.landDrained (s : State) (y : Fin 8) : State :=
  let due := (s.arr y).drained.filter fun r => decide (r.at_ ≤ s.beat)
  if due.isEmpty then s
  else due.foldl (fun s r => (s.logHeld r.dst 1 y.val r.entry).putBytes r.dst r.bytes)
    (s.modArr y fun a => { a with drained := a.drained.filter fun r => decide (s.beat < r.at_) })

/-- Rows `b` to `b + n - 1` set to +0.0 and not live (R195). -/
def MatArray.zeroRows (a : MatArray) (b n : Nat) : MatArray := (upFrom b n).foldl MatArray.clearRow a

/-- Each element of rows `b` to `b + n - 1` times 2^exp (R195). -/
def MatArray.scaleRows (a : MatArray) (exp : Int) (b n : Nat) : MatArray :=
  (upFrom (64 * b) (64 * n)).foldl (fun a k =>
    match scaleExp2 (SMap.get 0 a.acc k) exp with
    | (x, f) => { a with acc := SMap.set 0 a.acc k x }.raise f) a

/-- The accumulator rows that a job changes, and how. -/
def JobKind.rowsChanged : JobKind → Option (MatDesc × (MatArray → Nat → Nat → MatArray))
  | .mzero d => some (d, MatArray.zeroRows)
  | .meadd d => some (d, fun a => a.scaleRows d.exp)
  | _ => none

/-- MZERO and MEADD change 16 rows in a beat (R195). -/
def State.changeRows (s : State) (j : Job) (y : Fin 8) : State :=
  match j.kind.rowsChanged with
  | none => s
  | some (d, f) =>
    let n := min 16 (d.rows - j.mpc)
    let s := (s.modArr y fun a => f a (d.accBase + j.mpc) n).modJob j.id fun j => { j with mpc := j.mpc + n }
    if d.rows ≤ j.mpc + n then s.lastsUntil j.id s.beat else s

/-- MSCL binds the scale FIFO (R193, R322). -/
def State.runMscl (s : State) (j : Job) (y : Fin 8) (d : MatDesc) : State :=
  (s.modArr y fun a => { a with scale := if d.qsrc then .stream j.cont d.qreg else .loft d.addr d.count j.ctx }).lastsUntil j.id s.beat

/-! ### Job order (R197, R99, R187) -/

/-- The job changes accumulator rows in place. -/
def JobKind.changesRows (k : JobKind) : Bool := k.rowsChanged.isSome

/-- The rows that an MDRN has still to read. -/
def Job.unread (j : Job) : Option (Nat × Nat) :=
  match j.kind with
  | .mdrn d => if j.begun && j.mpc < d.rows && (j.phase == .running || j.phase == .suspended || j.phase == .queued) then
      some (d.accBase + j.mpc, d.rows - j.mpc) else none
  | _ => none

/-- The descriptor of a job that works through accumulator rows one after another, as its MPC counts: an MSTRM, an MZERO or an MEADD. -/
def JobKind.rowByRow : JobKind → Option MatDesc
  | .mstrm d _ => some d
  | k => k.rowsChanged.map (·.1)

/-- The rows that an MSTRM has still to stream, or an MZERO or MEADD to change. -/
def Job.unchanged (j : Job) : Option (Nat × Nat) :=
  j.kind.rowByRow.bind fun d => if j.open_ && decide (j.mpc < d.rows) then some (d.accBase + j.mpc, d.rows - j.mpc) else none

/-- Row `r` of array `y` is one of those that `rows` gives for a job of the array that is of the entry of job `id` and before it (R197). -/
def State.rowBefore (s : State) (y : Fin 8) (id r : Nat) (rows : Job → Option (Nat × Nat)) : Bool :=
  s.jobs.any fun x => x.unit == .array y.val && decide (x.id < id) && (s.job? id).all (·.entry == x.entry) && (rows x).any fun u => decide (u.1 ≤ r ∧ r < u.1 + u.2)

/-- Row `r` of array `y` has still to be read by an MDRN that precedes job `id` (R191, R197). -/
def State.rowUnread (s : State) (y : Fin 8) (id r : Nat) : Bool := s.rowBefore y id r Job.unread

/-- The job runs beside a lunge run (R205). -/
def JobKind.besideLunge : JobKind → Bool
  | .mlds _ | .mdrn _ => true
  | _ => false

/-- A job that has neither begun nor ended. -/
def Job.pending (j : Job) : Bool := j.phase == .queued || j.phase == .suspended

/-- What a job waits for beside the jobs before it in the queue (R189-R191, R195): one plane loads at a time, nothing streams while the
planes or the scales change, and a stream or a change of rows comes after the change of rows that precedes it. An MSTRM without a
stamp waits for its first operands. -/
def State.kindReady (s : State) (y : Fin 8) (j : Job) : Bool :=
  let held := s.jobs.filter fun x => x.unit == j.unit && x.phase == .running && x.id != j.id && x.entry == j.entry
  let still := held.all fun x => !x.streaming
  let settled := still && held.all fun x => !x.kind.changesRows
  match j.kind with
  | .mlds _ => held.all fun x => !x.loading
  | .mdrn _ => true
  | .mswap => still && s.shadowSettled y j.entry
  | .mscl _ => still
  | .mstrm d stamp => settled && (stamp.isSome || s.operandsHere j y d)
  | .mzero d | .meadd d => settled && (s.arr y).landings.all (fun l => decide (l.accRow < d.accBase ∨ d.accBase + d.rows ≤ l.accRow))
      && (upFrom d.accBase d.rows).all fun r => !(s.rowUnread y j.id r)
  | _ => settled

/-- The array runs the job and has work to do for it yet. -/
def Job.underway (j : Job) : Bool := j.phase == .running && j.until_ == 0

/-- The array may take a job of the entry: it works for that entry, or stands at retirement, and what it runs for another entry has
come to its last beat or yields to the job (R64, R65, R197, R199). -/
def State.entryMay (s : State) (y : Fin 8) (j : Job) : Bool :=
  let a := s.arr y
  match a.lastEntry with
  | some e => e == j.entry || (a.retired && a.landings.isEmpty && a.lunge.isNone
      && s.jobs.all fun x => x.unit != j.unit || x.entry == j.entry || !x.underway || keyPrecedes (s.jobKey j) (s.jobKey x))
  | none => true

/-- The array may take the job now, keys and what its kind waits for apart (R197, R205). -/
def State.arrayTurn (s : State) (y : Fin 8) (j : Job) : Bool :=
  let a := s.arr y
  j.phase == .queued && decide (j.ready ≤ s.beat)
    && (a.lunge.isNone || j.kind.besideLunge || a.lunge.any (·.job == j.id))
    && s.entryMay y j
    && !(s.jobs.any fun x => x.unit == j.unit && x.entry == j.entry && decide (x.id < j.id) && x.pending
          && (a.lunge.isNone || x.kind.besideLunge))

/-- The array passes to a job of another context, and is cleared first (R187). -/
def State.mustClear (s : State) (y : Fin 8) (j : Job) : Bool := (s.arr y).lastCtx.any (· != j.ctx)

/-- The job may be taken by its array now, keys apart (R187, R189-R191, R195, R197, R205). -/
def State.arrayReady (s : State) (y : Fin 8) (j : Job) : Bool :=
  s.arrayTurn y j && (s.mustClear y j || (decide ((s.arr y).clearUntil ≤ s.beat) && s.kindReady y j))

/-- The jobs that the array runs for other entries yield it: they wait again with their keys and what they have done (R64, R199). -/
def State.yieldArray (s : State) (y : Fin 8) (entry : Nat) : State :=
  { s with jobs := s.jobs.map fun x =>
      if x.unit == .array y.val && x.entry != entry && x.underway then { x with phase := .queued, credit := 0 } else x }

/-- What an entry that has jobs left keeps of the array while another has it (R199; DEDUCED, log 65). -/
def State.parkEntry (s : State) (y : Fin 8) (entry : Nat) : State :=
  s.modArr y fun a => match a.lastEntry with
    | some e => if e != entry && s.jobs.any (fun x => x.unit == .array y.val && x.entry == e) then
        { a with parked := (e, a.stationary, a.shadow, a.scale) :: a.parked } else a
    | none => a

/-- The array is cleared for a job of another context, which takes 64 beats and is charged to no budget (R187; DEDUCED, log 74). -/
def State.clearArray (s : State) (y : Fin 8) (j : Job) : State :=
  ((s.yieldArray y j.entry).parkEntry y j.entry).modArr y fun a =>
    { a with acc := [], live := [], stationary := {}, shadow := {}, lastEntry := none, lastCtx := some j.ctx, clearUntil := s.beat + 64 }

/-- The array takes a job of an entry: what another entry held is kept for it, and what this entry held comes back (R199). -/
def State.enterArray (s : State) (y : Fin 8) (j : Job) : State :=
  ((s.yieldArray y j.entry).parkEntry y j.entry).modArr y fun a =>
    let a := match a.parked.find? (fun p => p.1 == j.entry && a.lastEntry != some j.entry) with
      | some p => { a with stationary := p.2.1, shadow := p.2.2.1, scale := p.2.2.2, parked := a.parked.filter (·.1 ≠ j.entry) }
      | none => a
    { a with lastEntry := some j.entry, lastCtx := some j.ctx }

/-- The power condition of a job (R63, R73, R77); a job of an entry that has ended begins no more (R57, R70, R77). -/
def State.jobFits (s : State) (j : Job) : Bool := s.powerFits j.entry && !(s.hasEnded j.entry)

/-! ### MATRIX_ROW_LAND (R191) -/

/-- Every row of the job has landed. -/
def State.landedAll (s : State) (y : Fin 8) (id : Nat) : Bool :=
  !((s.arr y).landings.any (·.job = id)) &&
    match s.job? id with
    | some j => match j.kind with
      | .mstrm d _ => j.phase == .running && j.mpc == d.rows
      | _ => false
    | none => false

/-- The job of a landing is held through the beat on which its last row lands (R199). -/
def State.endStream (s : State) (y : Fin 8) (id : Nat) : State := if s.landedAll y id then s.lastsUntil id s.beat else s

/-- The first landing that is due, whose row no earlier MDRN has still to read and no earlier landing awaits (R191, R197). -/
def State.nextLanding (s : State) (y : Fin 8) : Option Landing :=
  let ls := (s.arr y).landings
  (ls.zipIdx.find? fun x => decide (x.1.at_ ≤ s.beat) && !(s.rowUnread y x.1.job x.1.accRow)
    && !((ls.take x.2).any (·.accRow == x.1.accRow))).map (·.1)

/-- A landing of the array can be made. -/
def State.landingDue (s : State) (y : Fin 8) : Bool := (s.nextLanding y).isSome

/-! ### What the arrays do in a beat (R189, R195) -/

/-- The rows that a job which the array can take before it has ended its lunge run has still to stream or change: none of a job that
waits for the run's end (R205). -/
def State.unchangedBy (s : State) (y : Fin 8) (x : Job) : Option (Nat × Nat) :=
  if (s.arr y).lunge.isSome && !x.begun && !x.kind.besideLunge then none else x.unchanged

/-- The drain port reads one row in a beat: of the oldest MDRN with rows left, once every earlier landing on that row has come
and every earlier change of it is made (R191, R195). -/
def State.drainBeat (s : State) (y : Fin 8) : State :=
  match s.jobs.find? (fun j => j.unit == .array y.val && j.phase == .running && j.unread.isSome) with
  | none => s
  | some j =>
    match j.kind with
    | .mdrn d =>
      let r := d.accBase + j.mpc
      if (s.arr y).landings.any (fun l => decide (l.job < j.id) && l.accRow == r) || s.rowBefore y j.id r (s.unchangedBy y) then s
      else s.drainRow j y d
    | _ => s

/-- What the array does in a beat for a job that it holds: a load goes on, a row streams, rows are changed (R189, R191, R195). -/
def State.jobBeat (s : State) (y : Fin 8) (j : Job) : State :=
  match j.kind with
  | .mlds d => if j.until_ = 0 then s.loadBeat j y d else s
  | .mstrm d stamp => if j.mpc < d.rows then s.streamRow j y d stamp else s
  | .mzero _ | .meadd _ => if j.until_ = 0 then s.changeRows j y else s
  | _ => s

/-- The jobs that the array holds go on by one beat, oldest first. -/
def State.jobsBeat (s : State) (y : Fin 8) : State :=
  (s.jobs.filterMap fun j => if j.unit == .array y.val && j.phase == .running then some j.id else none).foldl (fun s id =>
    match s.job? id with
    | some j => if j.phase == .running then s.jobBeat y j else s
    | none => s) s

/-- A job that its array has held long enough is over; a loaded plane is then valid (R189). -/
def State.releaseArray (s : State) (y : Fin 8) : State :=
  (s.jobs.filter fun j => j.unit == .array y.val && j.phase == .running && j.until_ != 0 && decide (j.until_ ≤ s.beat)).foldl
    (fun s j =>
      let s := match j.kind with
        | .mlds _ => s.modArr y fun a => { a with shadow := { a.shadow with valid := true } }
        | _ => s
      s.doneJob j.id) s

/-- An array in a beat: drained rows are performed, the drain port reads, then its other jobs go on. -/
def State.arrayBeat (s : State) (y : Fin 8) : State :=
  let s := s.landDrained y
  if s.jobs.any (fun j => j.unit == .array y.val) then ((s.drainBeat y).jobsBeat y).releaseArray y else s

/-! ### Issue (R315, R317, R319-R323) -/

/-- The fields of a descriptor within their limits, by instruction (R315 step 4, R317). -/
def mldsOk (d : MatDesc) : Bool :=
  (d.k4 || d.aligned) && d.planeFmt && (!(d.scaled && !d.k4) || d.scales.toNat % 64 == 0) && (!d.sparse || d.metadata.toNat % 64 == 0)
    && (!d.k4 || (d.format == 13 && d.scaled && !d.sparse))

def mstrmOk (d : MatDesc) (pmax : Nat) : Bool :=
  (d.qsrc || d.aligned) && d.planeFmt && d.rowsOk && decide (1 ≤ d.depth ∧ d.depth ≤ pmax)

def mdrnOk (d : MatDesc) : Bool := d.aligned && d.rowsOk && (d.format == 3 || decide (8 ≤ d.format ∧ d.format ≤ 14))

def meaddOk (d : MatDesc) : Bool := d.rowsOk && decide (-255 ≤ d.exp ∧ d.exp ≤ 255)

def msclOk (d : MatDesc) : Bool := d.qsrc || (d.addr.toNat % 64 == 0 && decide (1 ≤ d.count ∧ d.count ≤ 2 ^ 24))

/-- The first byte of a range on the MATRIX path, or the plane's path. -/
def rangeOn (s : State) (path : Nat) (need : Need) (va : W64) : Access × Nat := (arrayAccess s.core.ctx s.yardIdx path need, va.toNat)

/-- A read of a descriptor's array instruction up to its job: fields, ranges, then the queue (R315). -/
def matIssue (op : Nat) (check : Bool) (w : EngF) (ok : State → MatDesc → Bool) (ranges : State → MatDesc → List (Access × Nat))
    (early : State → MatDesc → Option Trap) (kind : State → MatDesc → JobKind) (stamped : List (Spec × Bool)) (s : State) : Result :=
  issue (reqDesc op check w ((w.desc, w.e) :: stamped)) (fun s =>
    withDesc w s fun s bs =>
      let d := (parseMat bs).1
      if !((parseMat bs).2 && ok s d) then .trap s { code := 0x02 }
      else
        match early s d with
        | some t => .trap s t
        | none => withRanges s (ranges s d) fun s => enqueueJob w s (kind s d) (.array s.yardIdx.val) none) s

/-- No further early fault. -/
def noEarly : State → MatDesc → Option Trap := fun _ _ => none

/-- MLDS (R318). -/
def execMlds (w : EngF) (s : State) : Result :=
  matIssue 0xc0 (checkMlds w) w (fun _ => mldsOk)
    (fun s d => let on := fun (va : W64) => (planeAccess s s.core.ctx s.yardIdx va.toNat, va.toNat)
      on d.addr :: ((if d.scaled && !d.k4 then [on d.scales] else []) ++ if d.sparse then [on d.metadata] else []))
    noEarly (fun _ d => .mlds d) [] s

/-- MSWAP (R319): no descriptor. -/
def execMswap (w : EngF) (s : State) : Result :=
  issue (reqDesc 0xc1 (checkMswap w) w []) (fun s =>
    if !clausesOwned w s then .trap s { code := codePermission } else enqueueJob w s .mswap (.array s.yardIdx.val) none) s

/-- The stamp of an MSTRM or MLUNGE (R236). -/
def stampOf (w : EngF) (s : State) : Option Nat :=
  if w.stampEn then some ((s.srcS w.d).toNat + w.stampOff.toNat) else none

/-- The stamp base is a source of a stamped instruction. -/
def stampSrc (w : EngF) : List (Spec × Bool) := if w.stampEn then [(w.d, false)] else []

/-- The faults of a stream source at issue (R320, R322): STREAM_UNBOUND, and too few elements for the rows. -/
def sourceFault (need : Nat → MatDesc → Nat) (s : State) (d : MatDesc) : Option Trap :=
  if !d.qsrc then none
  else
    match s.core.getQ d.qreg with
    | none => some { code := 0x0B }
    | some b =>
      if b.isWrite then some { code := 0x0B }
      else if b.total - b.pos < need (elemBits b.fmt) d then some { code := 0x02 }
      else none

/-- MSTRM (R320). -/
def execMstrm (w : EngF) (s : State) : Result :=
  matIssue 0xc2 (checkMstrm w) w (fun s d => mstrmOk d s.gov.pmaxMatrix)
    (fun s d => if d.qsrc then [] else [rangeOn s pathMatrix .read d.addr])
    (sourceFault fun bits d => d.rows * (8 * d.rowBytes / bits)) (fun s d => .mstrm d (stampOf w s)) (stampSrc w) s

/-- MDRN (R321). -/
def execMdrn (w : EngF) (s : State) : Result :=
  matIssue 0xc3 (checkMdrn w) w (fun _ => mdrnOk) (fun s d => [rangeOn s pathMatrix .write d.addr]) noEarly (fun _ d => .mdrn d) [] s

/-- MZERO (R321). -/
def execMzero (w : EngF) (s : State) : Result :=
  matIssue 0xc4 (checkMzero w) w (fun _ => MatDesc.rowsOk) (fun _ _ => []) noEarly (fun _ d => .mzero d) [] s

/-- MEADD (R321). -/
def execMeadd (w : EngF) (s : State) : Result :=
  matIssue 0xc5 (checkMeadd w) w (fun _ => meaddOk) (fun _ _ => []) noEarly (fun _ d => .meadd d) [] s

/-- MSCL (R322). -/
def execMscl (w : EngF) (s : State) : Result :=
  matIssue 0xc6 (checkMscl w) w (fun _ => msclOk) (fun s d => if d.qsrc then [] else [rangeOn s pathMatrix .read d.addr])
    (sourceFault fun _ _ => 1) (fun _ d => .mscl d) [] s

/-- MSTAT (R196, R323): the word is sampled when the result lands. -/
def execMstat (w : EngF) (s : State) : Result :=
  issue { op := 0xc7, ok := checkMstat w, pred := w.pred, dsts := [w.d] } (fun s =>
    .retire s { writes := [.s (specIdx w.d) 0], cls := 14 }) s

end Sys2Proof.Machine
end

