-- ==== Sys2Proof/Machine/Lunge.lean ====
section
/-! DEFINITION. Lunge mode of the matrix array (R203-R209, R324-R327, R364), landings (R191), and the sampled results of
MSTAT and MWAITD (R196, R205). -/

namespace Sys2Proof.Machine

/-! ### A run -/

/-- Due beat of row `r` (R204, R207, R209). -/
def Lunge.due (l : Lunge) (r : Nat) : Nat := l.start + l.look + (r - l.base) * l.desc.period + l.shift

/-- Rows that the run still has: all of them, or those up to the end of the group it stops after (R208, R209). -/
def Lunge.limit (l : Lunge) : Nat :=
  match l.stopAt with
  | some j => min l.desc.lrows ((j + 1) * l.desc.groupRows)
  | none => l.desc.lrows

/-- First accumulator row of a group (R203). -/
def Lunge.firstRow (l : Lunge) (j : Nat) : Nat := l.desc.accBase + j % 2 * l.desc.group

/-- Rows that the run has in all: one that yields goes on after it resumes (R209, R364). -/
def Lunge.rows (l : Lunge) : Nat := if l.yields then l.desc.lrows else l.limit

/-- Accumulator row of row `r` (R204). -/
def Lunge.accRow (l : Lunge) (r : Nat) : Nat := l.firstRow (l.groupOf r) + r % l.desc.group

/-- Row `r` swaps the planes on its due beat (R204). -/
def Lunge.swaps (l : Lunge) (r : Nat) : Bool := decide (1 < l.desc.ksteps) && decide (0 < r) && r % l.desc.group == 0

/-- The demand that is claimed next: the earliest in due order among those in the queue (R205). -/
def Lunge.nextDemand (l : Lunge) : Option Demand := argMin? (fun a b => decide (a.due < b.due)) (l.demands.take 64)

/-- The run can raise no more demands (R205). -/
def Lunge.spent (l : Lunge) : Bool := l.failed || (decide (l.rows ≤ l.demandRow) && decide (l.rows ≤ l.landed))

/-- The plane demand of a row raised (R204). -/
def Lunge.postPlane (l : Lunge) (r : Nat) : Lunge := { l.post demandPlane r (l.due r) with planes := l.planes ++ [r] }

/-- The operand demand of the next row, and the plane demand that goes with it (R204). -/
def Lunge.raiseNext (l : Lunge) : Lunge :=
  let r := l.demandRow
  let l := { l with demandRow := r + 1, open_ := l.open_ ++ [r] }
  let l := l.post demandOperand r (l.due r)
  if 1 < l.desc.ksteps ∧ r % l.desc.group = 0 ∧ r + l.desc.group < l.limit then l.postPlane (r + l.desc.group)
  else l

/-- Demands and answers of rows from `first` on withdrawn (R208). -/
def Lunge.withdraw (l : Lunge) (first : Nat) : Lunge :=
  { l with open_ := l.open_.filter (decide <| · < first), planes := l.planes.filter (decide <| · < first),
           answers := l.answers.filter (fun a => decide (a.row < first)),
           demands := l.demands.filter fun d => d.kind == demandDrain || decide (d.index < first) }

/-- The run stops after the current group: that of the row that streamed last, or group 0 (R208). One that was to yield there
ends there. -/
def Lunge.stop (l : Lunge) (yields : Bool) : Lunge :=
  if l.failed then l
  else if l.stopAt.isSome then { l with yields := l.yields && yields }
  else
    let l := { l with stopAt := some (l.groupOf (l.next - 1)), yields := yields }
    l.withdraw l.limit

/-- The run of a yard's array of an entry. -/
def State.lungeOf (s : State) (y : Fin 8) (entry : Nat) : Option Lunge := (s.arr y).lunge.bind fun l => if l.entry = entry then some l else none

def State.setLunge (s : State) (y : Fin 8) (l : Option Lunge) : State := s.modArr y fun a => { a with lunge := l }

/-- A change of the run of a yard's array. Operand demands that it withdraws are remembered, so that what still answers them retires
(R208). -/
def State.cutLunge (s : State) (y : Fin 8) (l : Lunge) (f : Lunge → Lunge) : State :=
  let t := f l
  s.modArr y fun a => { a with lunge := some t,
                               withdrawn := a.withdrawn ++ ((l.open_.filter fun r => !(t.open_.contains r)).map fun r => (l.entry, r)) }

/-- The job of a run is running: it is not suspended. -/
def State.lungeRuns (s : State) (l : Lunge) : Bool :=
  match s.job? l.job with
  | some j => j.phase == .running
  | none => false

/-- A run that has nothing left to do ends with the beat: a missed strict run as a job fault, one that yields goes back to the array's
queue, any other signals (R207-R209). -/
def State.settleLunge (s : State) (y : Fin 8) : State :=
  match (s.arr y).lunge with
  | none => s
  | some l =>
    let waiting := (s.arr y).landings.any (·.job = l.job) || !l.drains.isEmpty
    if waiting || !(l.failed || decide (l.limit ≤ l.next)) then s
    else
      let s := s.setLunge y none
      if l.failed then
        match s.job? l.job with
        | some j => s.matFault j l.next 0x13
        | none => s
      else if l.yields && decide (l.next < l.desc.lrows) then
        s.modJob l.job fun j => { j with phase := .queued, mpc := l.next }
      else s.doneJob l.job

/-- The run that an MLUNGE begins, or goes on with after a yield (R203, R209). -/
def Job.newRun (j : Job) (d : MatDesc) (look beat : Nat) : Lunge :=
  { job := j.id, cont := j.cont, entry := j.entry, ctx := j.ctx, desc := d, look := look, start := beat, next := j.mpc,
    demandRow := j.mpc, landed := j.mpc, base := j.mpc }

/-- MLUNGE taken by the array: the run begins, or goes on after a yield, when the demand for the plane of its first row is raised
again unless that plane is there (R203, R209; DEDUCED, log 75). A run that was suspended goes on with its due beats moved to the
present (DEDUCED, log 75). -/
def State.runMlunge (s : State) (j : Job) (y : Fin 8) (d : MatDesc) (look : Nat) : State :=
  match (s.arr y).lunge with
  | some l => if l.job = j.id then s.setLunge y (some { l with shift := l.shift + (s.beat - l.due l.next) }) else s
  | none =>
    let l := j.newRun d look s.beat
    let l := if l.swaps j.mpc && !(s.arr y).shadow.valid then l.postPlane j.mpc else l
    s.modArr y fun a => { a with lunge := some l, withdrawn := a.withdrawn.filter fun w => w.1 ≠ j.entry || j.mpc ≠ 0 }

/-- The job is a lunge run. -/
def JobKind.isRun : JobKind → Bool
  | .mlunge _ _ _ => true
  | _ => false

/-- The start beat of a stamped job (R194). -/
def JobKind.stamp : JobKind → Option Nat
  | .mstrm _ b => b
  | .mlunge _ b _ => b
  | _ => none

/-- LUNGE_OPERAND_DEMAND (R204, R207): the demand of the next row is raised at its due beat minus A; a row that is due is
judged first. A row whose demand an earlier stretch of the run withdrew is demanded anew (R208, R209). -/
def execLungeOperandDemand (s : State) : Result :=
  let y := s.subj.yard
  match (s.arr y).lunge with
  | none => .next s
  | some l =>
    let judged := decide (l.limit ≤ l.next) || decide (s.beat < l.due l.next)
    if s.lungeRuns l && !l.failed && decide (l.demandRow < l.limit) && decide (l.due l.demandRow ≤ s.beat + l.look) && judged then
      .next (s.modArr y fun a => { a with lunge := some l.raiseNext, withdrawn := a.withdrawn.filter (· ≠ (l.entry, l.demandRow)) })
    else .next s

/-- Row `r` is on time (R206). -/
def State.rowOnTime (s : State) (y : Fin 8) (l : Lunge) (r : Nat) : Bool :=
  let a := s.arr y
  let j := l.groupOf r
  (l.answers.any fun x => x.row == r && decide (x.beat + (if x.remote then 12 else 4) ≤ l.due r))
    && (!(l.swaps r) || (s.shadowSettled y l.entry && !a.shadow.ineligible))
    && (r % l.desc.groupRows != 0 || decide (j < 2) || decide ((j - 2) * l.desc.groupRows < l.base) || l.freed.contains (j - 2))

/-- The accumulator rows of the groups that have begun and not landed are cleared, with their landings (R207; DEDUCED, log 69). -/
def MatArray.dropGroups (a : MatArray) (l : Lunge) : MatArray :=
  let groups := (List.range (l.groupOf (l.next - 1) + 1)).filter fun j =>
    decide (j * l.desc.groupRows < l.next) && decide (l.base < (j + 1) * l.desc.groupRows) && !(a.groupLanded l j)
  groups.foldl (fun a j => (upFrom (l.firstRow j) l.desc.group).foldl MatArray.clearRow a)
    { a with landings := a.landings.filter (·.job ≠ l.job) }

/-- A missed beat: a bubble, or the end of a strict run (R207). -/
def State.missBeat (s : State) (y : Fin 8) (l : Lunge) : State :=
  if l.desc.strict then (s.modArr y fun a => a.dropGroups l).cutLunge y l fun l => { l with failed := true }.withdraw 0
  else s.modArr y fun a => { a with lunge := some { l with shift := l.shift + l.desc.period }, misses := (a.misses + 1) % 2 ^ 32, missBeat := some s.beat }

/-- The row that is due streams from its answer's address, with its own scales after its bytes, on the planes as it swaps them
(R203, R206). A read that faults suspends the run before anything has changed (R99). -/
def State.streamDue (s : State) (y : Fin 8) (l : Lunge) (j : Job) (addr : W64) : State :=
  let r := l.next
  let swapped := fun (a : MatArray) => if l.swaps r then a.swap else a
  let p := (swapped (s.arr y)).stationary
  if !(p.valid && formatPair p.fmt l.desc.format && p.sparse == l.desc.sparse) then (s.setLunge y none).matFault j r 0x02
  else
    match s.unitRead (arrayAccess l.ctx y pathMatrix .read) addr.toNat (l.desc.rowBytes + l.desc.rowScales) with
    | (s, .error f) => s.suspendAt j r f
    | (s, .ok bs) =>
      s.modArr y fun a =>
        { (swapped a).stream j l.desc (l.accRow r) s.beat (some r) (bs.take l.desc.rowBytes) (bs.drop l.desc.rowBytes) with
          lunge := some { l with next := r + 1, answers := l.answers.filter (·.row ≠ r) } }

/-- LUNGE_ROW_DUE (R206, R207): the due beat of the next row has come. -/
def execLungeRowDue (s : State) : Result :=
  let y := s.subj.yard
  match (s.arr y).lunge with
  | none => .next s
  | some l =>
    match s.job? l.job with
    | none => .next s
    | some j =>
      if j.phase != .running || l.failed || decide (l.limit ≤ l.next) || decide (s.beat < l.due l.next) then .next s
      else if s.rowOnTime y l l.next then
        .next (s.streamDue y l j ((l.answers.find? (·.row = l.next)).map (·.addr) |>.getD 0))
      else .next (s.missBeat y l)

/-- MATRIX_ROW_LAND (R191): the first landing that is due is added to its row. -/
def execMatrixRowLand (s : State) : Result :=
  let y := s.subj.yard
  match s.nextLanding y with
  | none => .next s
  | some x => .next ((s.modArr y fun a => a.land x s.beat).endStream y x.job)

/-! ### What the arrays do in a beat -/

/-- The arrays in a beat; a lunge run that has nothing left to do ends with it (R189, R191, R195, R207-R209). -/
def State.arraysBeat (s : State) : State := (List.finRange 8).foldl (fun s y => (s.arrayBeat y).settleLunge y) s

/-! ### Instructions -/

/-- Limits of a lunge descriptor (Table 10.2, R324). -/
def mlungeOk (d : MatDesc) (look pmax : Nat) : Bool :=
  decide (1 ≤ d.period ∧ 1 ≤ d.group ∧ d.group ≤ 512 ∧ 1 ≤ d.ksteps ∧ 1 ≤ d.lrows ∧ d.lrows ≤ 2 ^ 30 ∧ d.lrows % (d.group * d.ksteps) = 0
    ∧ d.accBase + 2 * d.group ≤ 1024 ∧ d.depth = 0 ∧ 1 ≤ look ∧ d.group * d.ksteps * d.period + look ≤ pmax)
    && d.planeFmt

/-- The lookahead A of a core (R203). -/
def Core.look (c : Core) : Nat := fld c.lookahead.toNat 0 16

/-- MLUNGE (R203, R324). -/
def execMlunge (w : EngF) (s : State) : Result :=
  issue { reqDesc 0xc8 (checkMlunge w) w ((w.desc, w.e) :: stampSrc w) with feature := s.accepts featLunge } (fun s =>
    withDesc w s fun s bs =>
      let d := (parseMat bs).1
      if !((parseMat bs).2 && mlungeOk d s.core.look s.gov.pmaxMatrix) then .trap s { code := 0x02 }
      else enqueueJob w s (.mlunge d (stampOf w s) s.core.look) (.array s.yardIdx.val) none) s

/-- MWAITD (R205, R325): the demand is claimed when the result lands. -/
def execMwaitd (w : A3) (s : State) : Result :=
  issue { op := 0xc9, ok := checkMwaitd w, feature := s.accepts featLunge, pred := w.pred, dsts := [w.d] } (fun s =>
    .retire s { writes := [.s (specIdx w.d) 0], cls := 14 }) s

/-- The stall of an MFEED is over: the array has read the row, or its demand has been withdrawn, or the run that it answered is over
(R326). -/
def State.fedRead (s : State) (x : Fed) : Bool :=
  !(s.yards.toList.any fun y => y.arr.lunge.any fun l =>
    l.job == x.run && l.start == x.start && decide (l.next ≤ x.row) && decide (x.row < l.limit) && !l.failed)

/-- The answer reaches the array on the beat after issue (R326). -/
def State.feed (s : State) (l : Lunge) (r va pa : Nat) : State :=
  let x : Answer := { row := r, addr := BitVec.ofNat 64 va, beat := s.beat + 1, remote := loftYard pa != s.yardIdx.val }
  let l := { l with open_ := l.open_.filter (· ≠ r), answers := l.answers ++ [x],
                    demands := l.demands.filter fun d => !(d.kind == demandOperand && d.index == r) }
  (s.setLunge s.yardIdx (some l)).modCore fun c => { c with fed := { addr := c.f0, row := r, run := l.job, start := l.start } :: c.fed }

/-- The operand demand of the row has been withdrawn, and nothing has answered it since (R208). -/
def State.withdrawnRow (s : State) (r : Nat) : Bool := (s.arr s.yardIdx).withdrawn.contains (s.core.entry, r)

/-- MFEED (R205, R326): the checks of the stage and of the demand, then those of the row's address in the order of R97. -/
def execMfeed (w : SysF) (s : State) : Result :=
  issue { op := 0xca, ok := checkMfeed w, feature := s.accepts featLunge, pred := w.pred, srcs := [(w.a, w.ea), (w.d, false)] } (fun s =>
    let r := (s.srcS w.d).toNat
    match s.core.fed.find? (·.addr = s.core.f0) with
    | some x => if s.fedRead x then .retire (s.modCore fun c => { c with fed := c.fed.filter (·.addr ≠ c.f0) }) {} else .wait s
    | none =>
      let g := s.stage (fld w.ctl.toNat 0 3)
      if !(g.full && g.owner == s.coreInYard && g.ctx == s.core.ctx) then .trap s { code := 0x0A }
      else
        match (s.lungeOf s.yardIdx s.core.entry).filter (·.open_.contains r) with
        | none =>
          if s.withdrawnRow r then .retire (s.modArr s.yardIdx fun a => { a with withdrawn := a.withdrawn.filter (· ≠ (s.core.entry, r)) }) {}
          else .trap s { code := 0x02 }
        | some l =>
          let va := (s.srcS w.a + g.data.setWidth 64).toNat
          match reach s (arrayAccess s.core.ctx s.yardIdx pathMatrix .read) [{ va := va, len := 1 }] with
          | (s, .error f) => .trap s (memTrap pathMatrix f)
          | (s, .ok pas) =>
            if va % 64 ≠ 0 then .trap s (memTrap pathMatrix (codeMisaligned, va)) else .wait (s.feed l r va (pas.flatten.headD 0))) s

/-- An MDRN of the continuation has still to read rows (R205). -/
def State.draining (s : State) : Bool :=
  s.jobs.any fun j => j.cont == s.core.cont && j.open_ && match j.kind with
    | .mdrn d => decide (j.mpc < d.rows)
    | _ => false

/-- MDACK (R205, R327). -/
def execMdack (w : SysF) (s : State) : Result :=
  issue { op := 0xcb, ok := checkMdack w, feature := s.accepts featLunge, pred := w.pred, srcs := [(w.a, w.ea)] } (fun s =>
    let j := (s.srcS w.a).toNat
    match s.lungeOf s.yardIdx s.core.entry with
    | none => .trap s { code := 0x02 }
    | some l =>
      if !(l.drains.contains j) then .trap s { code := 0x02 }
      else if s.draining then .wait s
      else
        let l := { l with drains := l.drains.filter (· ≠ j), freed := l.freed ++ [j],
                          demands := l.demands.filter fun d => !(d.kind == demandDrain && d.index == j) }
        .retire (s.setLunge s.yardIdx (some l)) {}) s

/-- The run stops: one that the array has taken after its current group; of those that wait, the first of the entry after the groups
that have run, or the first (R208, R364). -/
def State.stopRun (s : State) : State :=
  let y := s.yardIdx
  match s.lungeOf y s.core.entry with
  | some l => s.cutLunge y l fun l => l.stop false
  | none =>
    match s.jobs.find? fun j => j.entry == s.core.entry && j.unit == .array y.val && j.open_ && j.kind.isRun with
    | none => s
    | some j => s.modJob j.id fun j =>
        match j.kind with
        | .mlunge d b look => { j with kind := .mlunge { d with lrows := max d.groupRows j.mpc } b look }
        | _ => j

/-- MSTOP (R208, R327). -/
def execMstop (w : EngF) (s : State) : Result :=
  issue { reqDesc 0xcc (checkMstop w) w [] with feature := s.accepts featLunge } (fun s => .retire s.stopRun {}) s

/-! ### Results sampled when they land (R196, R205, R323, R325) -/

/-- An earlier matrix job of the continuation has still to end; a running lunge run is no such job (R323). -/
def State.matrixBefore (s : State) (mark : Nat) : Bool :=
  s.jobs.any fun j => j.cont == s.core.cont && j.onArray && decide (j.id < mark) &&
    match j.kind with
    | .mlunge _ _ _ => j.phase != .running
    | _ => true

/-- The word of Table 10.1. -/
def State.mstatWord (s : State) : W64 :=
  let a := s.arr s.yardIdx
  let busy := s.jobs.any (fun j => j.unit == .array s.yardIdx.val && j.phase == .running) || !a.landings.isEmpty
  let mode := match a.lunge with
    | some l => if l.stopAt.isSome then 3 else 2
    | none => bit busy
  let left := match a.lunge with
    | some l => if l.failed then 0 else l.rows - l.next
    | none => 0
  BitVec.ofNat 64 (2 ^ 56 * s.core.matFault.toNat + 2 ^ 54 * mode + 2 ^ 53 * bit (s.shadowSettled s.yardIdx (a.lastEntry.getD 0) && !a.shadow.ineligible)
    + 2 ^ 52 * bit a.retired + 2 ^ 51 * bit a.invalid + 2 ^ 50 * bit a.overflow + 2 ^ 49 * bit a.underflow + 2 ^ 48 * bit a.inexact
    + 2 ^ 32 * a.live.length + left % 2 ^ 32)

/-- MSTAT sampled: its word, and the flags it returned cleared; none while an earlier job runs. -/
def State.serveMstat (s : State) (mark : Nat) : Option (State × W64) :=
  if s.matrixBefore mark then none
  else some (s.modArr s.yardIdx fun a => { a with invalid := false, overflow := false, underflow := false, inexact := false }, s.mstatWord)

/-- The word of Table 10.3. -/
def Demand.word (d : Demand) : W64 := BitVec.ofNat 64 (2 ^ 62 * d.kind + 2 ^ 32 * (d.index % 2 ^ 30) + d.due % 2 ^ 32)

/-- A run of the core's entry waits in the array's queue (R364). -/
def State.lungeQueued (s : State) : Bool :=
  s.jobs.any fun j => j.unit == .array s.yardIdx.val && j.entry == s.core.entry && j.open_ && j.kind.isRun
    && (s.arr s.yardIdx).lunge.all (·.job != j.id)

/-- MWAITD served: the earliest demand claimed, or 0 where no more can come; none while one may still come (R205). -/
def State.serveMwaitd (s : State) : Option (State × W64) :=
  match s.lungeOf s.yardIdx s.core.entry with
  | none => if s.lungeQueued then none else some (s, 0)
  | some l =>
    match l.nextDemand with
    | some d => some (s.setLunge s.yardIdx (some { l with demands := l.demands.erase d }), d.word)
    | none => if l.spent && !s.lungeQueued then some (s, 0) else none

/-- An earlier request of another core of the yard for the same run is still waiting (R325). -/
def State.mwaitdBefore (s : State) (f : InFlight) : Bool :=
  (List.range 8).any fun i =>
    let n := 8 * s.yardIdx.val + i
    let c := s.coreAt n
    n != s.subj.core.val && c.running && c.entry == s.core.entry
      && c.flight.any fun g => g.op == 0xC9 && (decide (g.due < f.due) || (g.due == f.due && decide (n < s.subj.core.val)))

/-- The value of a result that its unit samples when it lands: none where it is not there yet. Any other result is as it was
computed. -/
def State.sampled (s : State) (f : InFlight) : Option (State × List Write) :=
  let answer := fun (r : State × W64) => (r.1, f.writes.map fun w => match w with
    | .s i _ => Write.s i r.2
    | w => w)
  if f.op = 0xC7 then (s.serveMstat f.mark).map answer
  else if f.op = 0xC9 then if s.mwaitdBefore f then none else s.serveMwaitd.map answer
  else some (s, f.writes)

/-- An operation under full/empty bits whose result has come (R166). -/
def InFlight.arrived (f : InFlight) (beat : Nat) : Bool := f.land == .arrival && decide (f.due ≤ beat)

/-- A scoreboarded result of an earlier operation is still to be written to a register of operation `index` (R164, R165). -/
def Core.overtakes (c : Core) (f : InFlight) (index : Nat) : Bool :=
  (c.flight.take index).any fun g => g.passed c.slot && f.shares g

/-- The operations in flight without the one at `index`; where that is a load, the loads before it have been performed (R103). -/
def Core.without (c : Core) (f : InFlight) (index : Nat) : List InFlight :=
  (if f.redo.isSome then settleFlight (fun _ => true) (c.flight.take index) else c.flight.take index) ++ c.flight.drop (index + 1)

/-- FULL_EMPTY_RESULT_FILL (R166): the result of operation `index` in flight is written, and its destinations are full. -/
def execFullEmptyResultFill (index : Nat) (s : State) : Result :=
  match s.core.flight[index]? with
  | none => .next s
  | some f =>
    if !(f.arrived s.beat) || s.core.overtakes f index then .next s
    else
      match s.sampled f with
      | none => .next s
      | some (s, ws) =>
        .next (s.modCore fun c =>
          let c := { c with flight := c.without f index }.applyAll ws
          ws.foldl (fun c w => c.setFull w.spec true) c)

end Sys2Proof.Machine
end

