-- ==== Sys2Proof/Machine/Engine.lean ====
section
/-! DEFINITION. The front end's dispatch of engine jobs (R61-R63, R187, R197, R315) and their ends (R137, R185, R315), and the
copy of a COPY record (R53). -/

namespace Sys2Proof.Machine

/-! ### COPY records (R53) -/

/-- The copy that a COPY record asks for: one row of LENGTH bytes between the ranges of its handles, by the BTE of yard[0]
(DESIGN CHOICE, log 16). -/
def CopyRec.plan (r : CopyRec) (src dst : Handle) (ctx entry : Nat) : CopyPlan :=
  { ctx := ctx, yard := 0, srcBus := src.bus, dstBus := dst.bus, rows := [(src.base + r.srcOff, dst.base + r.dstOff)],
    rowBytes := r.len, conv := r.conv.toNat, crcList := if r.crcList = 0 then none else some r.crcList.toNat, template := false,
    entry := entry }

/-- The copy of a COPY record goes on. -/
def State.runRecordCopy (s : State) (j : Job) (r : CopyRec) : State :=
  let c := s.ctxAt j.ctx
  match c.handle? r.src, c.handle? r.dst with
  | some src, some dst => (r.plan src dst j.ctx j.entry).goOn s j
  | _, _ => s.stopJob j.id 0x41

/-! ### What keeps a queued job from its unit -/

/-- The unit of the job's wait clause has been taken, or it has none to take (R299, R315). -/
def State.tookUnit (s : State) (j : Job) : Bool :=
  match j.take, j.wait with
  | some id, some n => s.granted n id
  | _, _ => true

/-- The job has a STAMP and has not begun: the array starts it on that beat (R194). -/
def Job.stamped (j : Job) : Bool :=
  !j.begun && match j.kind with
    | .mstrm _ b => b.isSome
    | .mlunge _ b _ => b.isSome
    | _ => false

/-- The job pre-empts a copy that its channel runs (R64). -/
def State.preemptsCopy (s : State) (j : Job) : Bool :=
  s.jobs.any fun r => r.unit == j.unit && r.copying && keyPrecedes (s.jobKey j) (s.jobKey r)

/-- Jobs of the unit that were issued before this one and have not ended let it pass (R61, R308; DEDUCED, log 63). Those of its own entry
do not; on a channel of a BTE, whose jobs run in issue order, one of another entry does only where it is suspended, its unit being
released (R99), or where the job pre-empts what the channel runs (R64). -/
def State.orderAllows (s : State) (j : Job) : Bool :=
  s.jobs.all fun x => !(x.shares j) || decide (j.id ≤ x.id) || !(x.pending || x.copying) ||
    match j.unit with
    | .frontEnd | .array _ => true
    | .bte _ _ => x.entry != j.entry && (x.phase == .suspended || s.preemptsCopy j)
    | _ => x.entry != j.entry

/-- The unit of a job is idle and ready for it. -/
def State.unitIdle (s : State) (j : Job) : Bool :=
  match j.unit with
  | .array n => s.arrayReady ⟨n % 8, by omega⟩ j
  | .mcs _ => match s.bankJob? j.id with
    | some b => b.ports.all fun p => p.halted || (s.mcsAt p.die).holder.isNone
    | none => false
  | .layout => match j.kind with
    | .layout r _ => (!(s.registrationWaits r) || decide (0 < j.mpc)) && !(s.unitHeld j.unit (s.jobKey j))
    | _ => true
  | .frontEnd => match j.kind with
    | .btinv _ waitFor => !(s.jobs.any fun x => waitFor.contains x.id)
    | _ => true
  | .bte _ _ => !(s.unitHeld j.unit (s.jobKey j))

/-- The continuation of the job has had a matrix job fault and has not taken its trap (R198): the cancelling fault. -/
def State.cancelled (s : State) (j : Job) : Option (BitVec 8 × Nat) := if j.onArray then s.matCancelOf j.cont else none

/-- The job could be dispatched now, keys apart (R61, R63, R315). -/
def State.dispatchable (s : State) (j : Job) : Bool :=
  j.phase == .queued && decide (j.ready ≤ s.beat ∧ j.holdOff ≤ s.beat) && s.tookUnit j && !j.stamped && s.jobFits j && s.orderAllows j && s.unitIdle j

/-- Two jobs compete for a unit: the front end takes any number. -/
def State.competes (_s : State) (x j : Job) : Bool := x.shares j && x.unit != .frontEnd

/-- No job that could be dispatched competes with the job under a smaller key (R61). -/
def State.firstOnUnit (s : State) (j : Job) : Bool :=
  s.jobs.all fun x => x.id == j.id || !(s.competes x j) || !(s.dispatchable x) || keyLess (s.jobKey j) (s.jobKey x)

/-- The job is the next that its unit takes. -/
def State.nextOnUnit (s : State) (j : Job) : Bool := s.dispatchable j && s.firstOnUnit j

/-! ### Stamped jobs (R194) -/

/-- The array of a job that has a stamp and has not begun, with the stamp. -/
def Job.stampOn (j : Job) : Option (Fin 8 × Nat) :=
  match j.unit, j.kind.stamp with
  | .array n, some b => if j.begun then none else some (⟨n % 8, by omega⟩, b)
  | _, _ => none

/-- A swap of the entry that is pending before the job takes effect on this beat, before the job begins (R190, R194). -/
def State.swapComes (s : State) (j : Job) : Bool :=
  s.jobs.any fun x => x.unit == j.unit && x.entry == j.entry && decide (x.id < j.id) && x.kind == .mswap && s.nextOnUnit x

/-- At its beat or after it, an array that streams for another job, or a swap of the entry that is pending before the job, keeps
it from beginning (R194). -/
def State.stampKept (s : State) (j : Job) : Bool :=
  s.jobs.any fun x => x.unit == j.unit && x.id != j.id
    && (x.streaming || (x.entry == j.entry && decide (x.id < j.id) && x.pending && x.kind == .mswap))

/-- The first operands of a stamped MSTRM are there. -/
def State.stampFed (s : State) (y : Fin 8) (j : Job) : Bool :=
  match j.kind with
  | .mstrm d _ => s.operandsHere j y d
  | _ => true

/-- A stamped job whose beat has come, once the array has reached it or cannot reach it in time (R194): the array, and whether it
begins on its beat. -/
def State.stampDue (s : State) (j : Job) : Option (Fin 8 × Bool) :=
  j.stampOn.bind fun (y, b) =>
    if !(decide (b ≤ s.beat) && j.phase == .queued && decide (j.ready ≤ s.beat) && s.tookUnit j && s.jobFits j && (s.cancelled j).isNone) then none
    else if s.swapComes j then none
    else if s.stampKept j then some (y, false)
    else if s.arrayReady y j && !(s.mustClear y j) && s.firstOnUnit j then some (y, b == s.beat && s.stampFed y j)
    else none

/-- The array is cleared for a job of another context that is its next, or whose stamp is still to come (R187). -/
def State.clearDue (s : State) (j : Job) : Option (Fin 8) :=
  match j.unit with
  | .array n =>
    let y : Fin 8 := ⟨n % 8, by omega⟩
    if s.mustClear y j && s.arrayTurn y j && s.tookUnit j && s.jobFits j && s.firstOnUnit j then some y else none
  | _ => none

/-- A job is taken by its unit: its unit of the wait clause is spent, and it begins (R63, R299). -/
def State.beginJob (s : State) (j : Job) : State :=
  let s := match j.take, j.wait with
    | some id, some n => s.noticeTake n id
    | _, _ => s
  ((s.noteDispatch j.entry).modEntry j.entry fun e => { e with rampDone := true }).modJob j.id fun j =>
    { j with phase := .running, begun := true, take := none }

/-- MSTRM_STAMP_START (R194): a stamped job begins on its beat, or has missed it. -/
def execMstrmStampStart (s : State) : Result :=
  match s.job? s.subj.job with
  | none => .next s
  | some j =>
    match s.stampDue j with
    | none => .next s
    | some (_, false) => .next ((s.beginJob j).matFault j 0 0x10)
    | some (y, true) =>
      let s := (s.enterArray y j).beginJob j
      match s.job? j.id, j.kind with
      | some j, .mstrm d _ => .next (s.runMstrm j y d)
      | some j, .mlunge d _ look => .next (s.runMlunge j y d look)
      | _, _ => .next s

/-! ### ENGINE_JOB_DISPATCH -/

/-- The MCSs of a bank job execute it from now on (R121). -/
def State.holdPorts (s : State) (id : Nat) : State :=
  match s.bankJob? id with
  | none => s
  | some b => b.ports.foldl (fun s p =>
      if p.halted || p.onExpert.isSome then s else s.setMcs p.die { s.mcsAt p.die with holder := some id }) s

/-- A job does what it was issued for, `first` when it begins and not when it goes on (DESIGN CHOICE, log 6). -/
def State.runJob (s : State) (first : Bool) (j : Job) : State :=
  match j.unit, j.kind with
  | .array n, k =>
    let y : Fin 8 := ⟨n % 8, by omega⟩
    let s := s.enterArray y j
    match k with
    | .mlds d => if first then s.runMlds j y d else s
    | .mswap => s.runMswap j y
    | .mstrm d _ => s.runMstrm j y d
    | .mscl d => s.runMscl j y d
    | .mlunge d _ look => s.runMlunge j y d look
    | _ => s
  | _, .bcall _ _ => s.holdPorts j.id
  | _, .kvho d t => s.runKvho j d t
  | _, .btinv _ waitFor => s.runBtinv j waitFor
  | _, .layout r at_ => s.runLayout j r at_
  | _, .copy table tmpl index => s.runTmplCopy j table tmpl index
  | _, .bteg t lanes active => s.runGather j t lanes active
  | _, .recordCopy r => s.runRecordCopy j r
  | _, _ => s

/-- A copy or a placement at a boundary goes on when no queued job of its unit precedes it (R61, R64, Table 4.2); the copy of a
record has its unit to itself. -/
def State.copyGoesOn (s : State) (j : Job) : Bool :=
  j.copying && decide (j.holdOff ≤ s.beat) && (j.unit == .frontEnd || s.jobs.all fun x => x.unit != j.unit || !(s.dispatchable x))

/-- ENGINE_JOB_DISPATCH (R63): the job whose turn it is, when it is the next of its idle unit; one that R198 cancels ends
with the cancelling fault instead. A copy that stands at a 4 KiB boundary of its destination goes on (R52). A turn whose reads meet a
refresh comes after it (R13). -/
def execEngineJobDispatch (s : State) : Result :=
  match s.job? s.subj.job with
  | none => .next s
  | some j =>
    match s.cancelled j with
    | some (code, mpc) =>
      if j.pending then .next (s.modJob j.id fun j => { j with phase := .failed code, mpc := mpc, va := 0, path := 0 }) else .next s
    | none =>
      if s.copyGoesOn j then .next ((s.runJob false j).orJob s j.id)
      else if let some y := s.clearDue j then .next (s.clearArray y j)
      else if !(s.nextOnUnit j) then .next s
      else
        let t := (s.yieldUnit j.unit).beginJob j
        .next ((t.runJob (!j.begun) ((t.job? j.id).getD j)).orJob s j.id)

/-! ### ENGINE_JOB_END -/

/-- A failed job of the layout engine is logged, delivered, and ends its entry (R137, R333). -/
def State.failLayout (s : State) (j : Job) (code : BitVec 8) : State :=
  ((s.logError code.toNat 5 0 j.entry).failJob j code).failEntry j.entry code

/-- ENGINE_JOB_END (R185, R315): a job of a core that is done signals and sets its tag; one that stopped leaves its fault. The
jobs of operator records end with their records. -/
def execEngineJobEnd (s : State) : Result :=
  match s.job? s.subj.job with
  | none => .next s
  | some j =>
    if j.cont = 0 then .next s
    else if s.hasEnded j.entry && j.isOver then .next ((s.cancelJobs fun x => x.id = j.id).discardRows (· = j.entry))
    else
      match j.phase with
      | .done => .next (s.endJob j)
      | .failed code => .next (match j.unit with
        | .layout => s.failLayout j code
        | _ => s.failJob j code)
      | _ => .next s

end Sys2Proof.Machine
end

