-- ==== Sys2Proof/Machine/Queue.lean ====
section
/-! DEFINITION. Work queues: their registers (R38-R40, R50), the reading and checking of work entries (R41-R46), admission
(R67, R76), and completion records (R57). -/

namespace Sys2Proof.Machine

/-! ### Registers (R17, R38, R39, R50) -/

/-- A 64-bit register's value after a write of the whole of it, or of one half with the data in the low 32 bits (R17). -/
def mergePart (p : RegPart) (old v : Nat) : Nat :=
  match p with
  | .whole => v
  | .low => old / 2 ^ 32 * 2 ^ 32 + v % 2 ^ 32
  | .high => v % 2 ^ 32 * 2 ^ 32 + old % 2 ^ 32

/-- QCFG (Table 3.2). -/
def WorkQueue.cfg (q : WorkQueue) : Nat :=
  bit q.enable + 2 * bit q.loc + 4 * bit q.halt + 16 * (q.log2 % 16) + 2 ^ 8 * (q.ctx % 64) + 2 ^ 40 * (q.faultVec % 256)
    + 2 ^ 48 * (q.proc % 65536)

/-- QSTAT (Table 3.3). -/
def WorkQueue.stat (q : WorkQueue) : Nat :=
  q.lastFault % 256 + 2 ^ 16 * bit q.overrun + 2 ^ 17 * bit q.contained + 2 ^ 32 * q.ignored

/-- QRESET as it reads (Table 3.4). -/
def WorkQueue.resetWord (q : WorkQueue) : Nat := 2 * bit q.done + 4 * bit q.busy

/-- The conditions under which a write may set ENABLE (R39). -/
def State.mayEnable (s : State) (q : WorkQueue) : Bool :=
  decide (4 ≤ q.log2 ∧ q.log2 ≤ 11) && (!q.loc || s.accepts featDevQueues) && (s.ctxAt q.ctx).live

/-- A queue after a write to QCFG (R39). -/
def State.newCfg (s : State) (q : WorkQueue) (v : Nat) : WorkQueue :=
  if q.enable then { q with halt := nbit v 2, enable := nbit v 0 }
  else
    let q := { q with proc := fld v 48 16, faultVec := fld v 40 8, ctx := fld v 8 6, log2 := fld v 4 4, halt := nbit v 2, loc := nbit v 1 }
    { q with enable := nbit v 0 && s.mayEnable q }

def State.writeQcfg (s : State) (n : Nat) (p : RegPart) (v : Nat) : State :=
  if n < 1024 then s.setQueue n (s.newCfg (s.queue n) (mergePart p (s.queue n).cfg v)) else s

/-- QCFG_WRITE (R39). -/
def execQcfgWrite (n : Nat) (p : RegPart) (v : BitVec 64) (s : State) : Result := hostWrite s (s.writeQcfg n p v.toNat)

/-- A host write to TAIL: the high half has no effect (R17, R40). -/
def State.hostTail (s : State) (n : Nat) (p : RegPart) (v : Nat) : State :=
  if n < 1024 && p != .high then s.writeTail n v else s

/-- TAIL_WRITE (R40). -/
def execTailWrite (n : Nat) (p : RegPart) (v : BitVec 64) (s : State) : Result := hostWrite s (s.hostTail n p v.toNat)

/-- A queue reset starts: consumption stops, and the work of the queue's entries is cancelled (R50 steps 1 to 6). -/
def State.startReset (s : State) (n : Nat) : State :=
  let q := s.queue n
  let ids := s.entriesOf [n]
  let s := s.setQueue n { q with busy := true, done := false, parked := none }
  (s.unpinEntries ids).dropEntries ids

/-- A write to QRESET; a REQ while BUSY is 1 is ignored (R50). -/
def State.writeQreset (s : State) (n v : Nat) : State :=
  if n < 1024 && nbit v 0 && !(s.queue n).busy then s.startReset n else s

/-- QRESET (R50). -/
def execQreset (n : Nat) (v : BitVec 64) (s : State) : Result := hostWrite s (s.writeQreset n v.toNat)

/-- Drained rows of an array that are still to be written, of the entries for which `own` holds (R195). -/
def State.drainsPending (s : State) (own : Nat → Bool) : Bool := s.yards.toList.any fun y => y.arr.drained.any fun r => own r.entry

/-- A reset of a queue can end: no write of its work is still to be made (R50). -/
def State.resetEnds (s : State) (n : Nat) : Bool :=
  (s.queue n).busy && !s.drainWaits && !(s.drainsPending fun e => entryQueue e == n)

/-- QUEUE_RESET_DONE (R50 step 7): the writes that the queues of memory hold are performed. -/
def execQueueResetDone (s : State) : Result :=
  let n := s.subj.queue
  let q := s.queue n
  if !(s.resetEnds n) then .next s
  else
    .next (s.drainWrites.setQueue n { q with
      head := 0, tail := 0, enable := false, halt := false, contained := false, ignored := 0, overrun := false, lastFault := 0,
      busy := false, done := true, parked := none })

/-! ### Firmware's accesses (R82) -/

/-- An access of firmware or the front end in a context: V, RD or W and the memory type only. -/
def firmAccess (ctx : Nat) (need : Need) : Access := { ctx := ctx, path := pathHost, checkPath := false, need := need, cache := .yard 0 }

/-- Bytes read by firmware. -/
def State.firmRead (s : State) (ctx va n : Nat) : State × Except (BitVec 8) (List Byte) :=
  match reach s (firmAccess ctx .read) [{ va := va, len := n }] with
  | (s, .error f) => (s, .error f.1)
  | (s, .ok pas) => (s.ordinaryRead pas.flatten, .ok (pas.flatten.map s.readByte))

/-- Bytes written by firmware; a failure is logged under unit kind 7, and nothing is written (R57). -/
def State.firmWrite (s : State) (ctx va : Nat) (bs : List Byte) (entry : Nat) : State × Bool :=
  match reach s (firmAccess ctx .write) [{ va := va, len := bs.length }] with
  | (s, .error f) => (s.logError f.1.toNat 7 0 entry, false)
  | (s, .ok pas) => ((s.logHeld pas.flatten 7 0 entry).putBytes pas.flatten bs, true)

/-- Whether a range is mapped for an access of firmware; none is made. -/
def State.firmMapped (s : State) (ctx : Nat) (need : Need) (va n : Nat) : State × Bool :=
  match reach s { firmAccess ctx need with probe := true } [{ va := va, len := n }] with
  | (s, .error _) => (s, false)
  | (s, .ok _) => (s, true)

/-! ### Completion records (R57) -/

/-- The 64 bytes of a completion record (Table 3.9). START_BEAT of an entry that ends before any operator has begun is its END_BEAT
(DESIGN CHOICE, log 90). -/
def Entry.record (e : Entry) : List Byte :=
  toBytes 2 (e.status.getD 0) ++ toBytes 1 (e.firstFault % 256) ++ toBytes 1 (e.adm % 256) ++ toBytes 4 (min e.faults 0xFFFFFFFF)
    ++ toBytes 8 (e.startBeat.getD e.endBeat) ++ toBytes 8 e.endBeat ++ toBytes 8 e.used.cores ++ toBytes 8 e.used.matrix
    ++ toBytes 8 e.used.bank ++ toBytes 8 e.used.copy ++ toBytes 4 (min e.ballast 0xFFFFFFFF) ++ toBytes 4 e.seqno

/-- The record written as two writes; the second only when the first was (R57). -/
def State.writeRecord (s : State) (e : Entry) : State :=
  match s.firmWrite e.ctx e.completion.toNat (e.record.take 56) e.id with
  | (s, false) => s
  | (s, true) => (s.firmWrite e.ctx (e.completion.toNat + 56) (e.record.drop 56) e.id).1

/-- A completion record, then SIGSEM and VECTOR unless the STATUS is TAG_FAIL (R57). -/
def State.complete (s : State) (e : Entry) : State :=
  let s := (s.writeRecord e).drainWrites
  if e.status = some statusTagFail then s
  else
    let s := if e.sig then s.signalLogged e.sigsem 7 0 e.id else s
    if e.irq then s.sendMsix e.vector else s

/-! ### Admission (R67, R76) -/

/-- The classes with the capacity per beat and the blocking allowance of R67. -/
structure ClassCap where
  num : Nat
  den : Nat
  blk : Nat
  ceil : Nat
  of : Meters → Nat

def Gov.classes (g : Gov) : List ClassCap :=
  [{ num := 64, den := 1, blk := 64 * g.pmaxCores, ceil := g.ceilCores, of := (·.cores) },
   { num := 8, den := 1, blk := 8 * (g.pmaxMatrix + 64), ceil := g.ceilMatrix, of := (·.matrix) },
   { num := 768, den := 13, blk := 98304, ceil := g.ceilBank, of := (·.bank) },
   { num := 16, den := 1, blk := 16384, ceil := g.ceilCopy, of := (·.copy) }]

/-- ThermalBudget() in 0.1 W (R24). -/
def thermalBudget (peak : Nat) (t : Int) : Nat :=
  if t < 950 then 10 * peak else if t < 1050 then 10 * peak - peak * (t - 950).toNat / 20 else 5 * peak

/-- The entries that the test counts: those admitted that are still deadline entries of the future, and the new one. -/
def State.admitted (s : State) (e : Entry) : List Entry := s.entries.filter (fun x => x.dl && decide (s.beat < x.deadline)) ++ [e]

/-- The demand test of one class at one deadline (R67). -/
def utilFits (c : ClassCap) (now : Nat) (xs : List Entry) (d : Nat) : Bool :=
  let demand := ((xs.filter fun x => decide (x.deadline ≤ d)).map fun x => c.of x.budget - c.of x.used).foldl (· + ·) 0
  decide (1000 * c.den * (demand + c.blk) ≤ c.num * (d - now) * c.ceil)

/-- The power test at one deadline, in 0.1 W (R67). -/
def energyFits (padm : Int) (now : Nat) (xs : List Entry) (d : Nat) : Bool :=
  let energy := (xs.map fun x => classWatts x.powerClass * (min x.deadline d - now)).foldl (· + ·) 0
  decide ((10 * energy : Nat) ≤ padm * (d - now : Nat))

/-- Beats that the budgets need at the full capacity of their classes: max over c of ⌈left / CAP⌉ (R74, R76). -/
def Gov.runBeats (g : Gov) (left : ClassCap → Nat) : Nat :=
  (g.classes.map fun c => ceilDiv (left c * c.den) c.num).foldl max 0

/-- Windows of ramp that an entry needs (R74, R76). -/
def Gov.rampSlotsOf (g : Gov) (e : Entry) : Nat := ceilDiv (classWatts e.powerClass) g.board.rampUp

/-- First beat of the window `k` after the current one. -/
def Gov.slotBeat (g : Gov) (k : Nat) : Nat := g.windowAt + k * g.board.window

/-- The slot of the window `k` after the current one is spoken for: reserved for a pinned entry, or one of the consecutive slots of a pen
that has begun to take them (R74, R76). -/
def Gov.taken (g : Gov) (k : Nat) : Bool :=
  g.reserved.any (·.1 = g.slotBeat k) || g.waiting.any fun w => !w.pens.isEmpty && decide (k ≤ w.left)

/-- The first run of `n` consecutive unreserved slots, from slot `k` on (R76). -/
def Gov.freeRun (g : Gov) (n : Nat) : Nat → Nat → Option Nat
  | 0, _ => none
  | fuel + 1, k =>
    if (List.range n).all fun i => !(g.taken (k + i)) then some k else g.freeRun n fuel (k + 1)

/-- The slots that RampReservable finds for a pinned entry (R76). -/
def Gov.rampFor (g : Gov) (e : Entry) : Option (List Nat) :=
  let n := g.rampSlotsOf e
  let taken := g.reserved.length + (g.waiting.map (·.left)).foldl (· + ·) 0
  match g.freeRun n (n * taken + 1) 1 with
  | none => none
  | some k =>
    let slots := (List.range n).map fun i => g.slotBeat (k + i)
    if g.slotBeat (k + n - 1) + g.runBeats (fun c => c.of e.budget) ≤ e.deadline then some slots else none

/-- The admission test: the code, and the slots it reserves (R67; DEDUCED, log 42). -/
def State.admission (s : State) (e : Entry) : Nat × List Nat :=
  if !e.dl then (0, [])
  else
    let xs := s.admitted e
    let ds := xs.map (·.deadline)
    let padm : Int := (min (10 * s.gov.board.sustain) (thermalBudget s.gov.board.peak s.gov.temperature) : Nat) - (10 * s.gov.beReserve : Nat)
    if !(s.gov.classes.all fun c => ds.all (utilFits c s.beat xs)) then (1, [])
    else if !(ds.all (energyFits padm s.beat xs)) then (2, [])
    else if e.pinned then
      match s.gov.rampFor e with
      | some slots => (0, slots)
      | none => (8, [])
    else (0, [])

/-! ### Work entries (R41, R44, R45) -/

/-- The entry ID of R44. -/
def entryIdOf (queue seq : Nat) : Nat := 2 ^ 31 + 2 ^ 21 * (queue % 1024) + seq % 2 ^ 21

/-- A work entry from its 128 bytes (Tables 3.5 and 3.6). -/
def parseEntry (n ctx : Nat) (bs : List Byte) : Entry :=
  let fl := numAt bs 8 4
  { id := entryIdOf n (numAt bs 0 4), queue := n, ctx := ctx, seqno := numAt bs 0 4, prio := numAt bs 5 1, powerClass := numAt bs 6 1,
    sigsem := numAt bs 7 1, vector := fld fl 8 8, irq := nbit fl 6, sig := nbit fl 5, missAbort := nbit fl 4, overrun := fld fl 2 2,
    pinned := nbit fl 1, dl := nbit fl 0, expertTimeout := numAt bs 0x0C 4, deadline := numAt bs 0x10 8,
    budget := { cores := numAt bs 0x18 8, matrix := numAt bs 0x20 8, bank := numAt bs 0x28 8, copy := numAt bs 0x30 8 },
    opchain := BitVec.ofNat 64 (numAt bs 0x38 8), completion := BitVec.ofNat 64 (numAt bs 0x40 8), opcount := numAt bs 0x48 4,
    handles := (List.range 8).map fun i => BitVec.ofNat 32 (numAt bs (0x50 + 4 * i) 4) }

/-- Checks 1 and 2 of Table 3.7. -/
def State.entryShape (s : State) (e : Entry) (bs : List Byte) : Bool :=
  numAt bs 4 1 == 1 && numAt bs 0x0A 2 == 0 && !(nbit (numAt bs 8 1) 7) && numAt bs 0x4C 4 == 0 && numAt bs 0x70 16 == 0
    && decide (e.powerClass ≤ 15) && e.overrun != 3
    && (!e.irq || e.vector != 0) && (!e.pinned || e.dl) && (!e.sig || s.semOwned e.sigsem e.ctx)

/-- Check 3 of Table 3.7. -/
def State.entryChain (s : State) (e : Entry) : State × Bool :=
  if !(decide (1 ≤ e.opcount ∧ e.opcount ≤ 4096) && e.opchain.toNat % 64 == 0 && e.completion.toNat % 64 == 0) then (s, false)
  else
    match s.firmMapped e.ctx .read e.opchain.toNat (64 * e.opcount) with
    | (s, false) => (s, false)
    | (s, true) => s.firmMapped e.ctx .write e.completion.toNat 64

/-- A handle has a live slot that is not freeing (R51). -/
def Context.liveHandle (c : Context) (h : BitVec 32) : Bool :=
  match c.handle? h with
  | some x => x.st == .set
  | none => false

/-- Checks 4 to 8 of Table 3.7: the code of the first that fails, or 0. -/
def State.rejection (s : State) (e : Entry) : Nat :=
  let c := s.ctxAt e.ctx
  let used := [e.budget.cores, e.budget.matrix, e.budget.bank, e.budget.copy]
  if (s.queue e.queue).halt then 6
  else if !(e.handles.all fun h => h == 0 || c.liveHandle h) then 7
  else if e.dl && !(s.accepts featDeadline && (used.zipIdx.all fun b => b.1 == 0 || c.dlclass.getLsbD b.2)) then 5
  else if e.dl && decide (e.deadline ≤ s.beat) then 3
  else if e.dl && used.all (· == 0) then 4
  else 0

/-- The pins that an admitted entry takes (R51). -/
def State.pinEntry (s : State) (e : Entry) : State :=
  { s with ctxs := e.handles.foldl (fun cs h => if h = 0 then cs else pin cs e.ctx (handleSlot h)) s.ctxs }

/-- A rejected entry is answered at once (R45, R57). -/
def State.reject (s : State) (e : Entry) (adm : Nat) : State :=
  s.complete { e with status := some statusRejected, adm := adm, startBeat := some s.beat, endBeat := s.beat }

/-- An entry that has passed its checks is admitted or rejected (R45, R67). -/
def State.takeIn (s : State) (e : Entry) : State :=
  match s.admission e with
  | (0, slots) =>
    let s := s.pinEntry e
    { s with entries := s.entries ++ [{ e with rampSlots := slots }],
             gov := { s.gov with reserved := s.gov.reserved ++ slots.map fun b => (b, e.id) } }
  | (adm, _) => s.reject e adm

/-- A consumed entry is checked (R45). -/
def State.judgeEntry (s : State) (n : Nat) (bs : List Byte) : State :=
  let e := parseEntry n (s.queue n).ctx bs
  if !(s.entryShape e bs) then s.contain n e.id
  else
    match s.entryChain e with
    | (s, false) => s.contain n e.id
    | (s, true) =>
      let r := s.rejection e
      if r = 0 then s.takeIn e else s.reject e r

/-- The 128 bytes of the slot at HEAD: through the context for a device-resident ring, from host memory otherwise (R38). -/
def State.readSlot (s : State) (n : Nat) : State × Option (List Byte) :=
  let q := s.queue n
  let a := q.base.toNat + 128 * (q.head % q.ring)
  if q.loc then
    match s.firmRead q.ctx a 128 with
    | (s, .ok bs) => (s, some bs)
    | (s, .error _) => (s, none)
  else if s.busError a 128 then (s, none) else (s, some (s.readBus a 128))

/-- The entry at HEAD is read and its SEQNO compared (R41). -/
def State.consume (s : State) (n : Nat) : State :=
  let q := s.queue n
  match s.readSlot n with
  | (s, none) => s.contain n (entryIdOf n q.head)
  | (s, some bs) =>
    let seq := numAt bs 0 4
    if seq = q.head then (s.setQueue n { s.queue n with head := (q.head + 1) % 2 ^ 32, parked := none }).judgeEntry n bs
    else if seq = (q.head + 2 ^ 32 - q.ring) % 2 ^ 32 then s.setQueue n { s.queue n with parked := some s.beat }
    else s.contain n (entryIdOf n seq)

/-- Firmware may consume from a queue: the device is READY, the queue live and not empty (R23, R39, R41). -/
def State.consumes (s : State) (n : Nat) : Bool :=
  let q := s.queue n
  s.boot.state == 0x0A && q.enable && !q.busy && !q.contained && q.pending != 0

/-- WORK_ENTRY_READ (R41, R45, R67). -/
def execWorkEntryRead (s : State) : Result :=
  let n := s.subj.queue
  if s.consumes n && (s.queue n).parked.isNone then .next ((s.consume n).orFirm s) else .next s

/-- An entry not yet written is due for its next look (R41). -/
def State.rereads (s : State) (n : Nat) : Bool :=
  s.consumes n && match (s.queue n).parked with
    | some t => decide (t + 2600 ≤ s.beat)
    | none => false

/-- ENTRY_REREAD (R41). -/
def execEntryReread (s : State) : Result :=
  let n := s.subj.queue
  if s.rereads n then .next ((s.consume n).orFirm s) else .next s

/-! ### Completion of an entry (R57) -/

/-- Work of an entry that is still anywhere, drained rows on their way to the loft among it (R57, R118, R195). -/
def State.working (s : State) (id : Nat) : Bool :=
  s.jobs.any (·.entry = id) || s.ready.any (·.entry = id) || s.cores.toList.any (fun c => c.running && c.entry == id)
    || (s.launches.any fun l => l.entry = id && decide (l.next < l.body.count)) || s.drainsPending (· = id)

/-- Every operator of the entry has retired, or the entry has been ended. -/
def Entry.isOver (e : Entry) : Bool := e.status.isSome || (e.opIndex == e.opcount && e.op.isNone && e.shadow.isNone)

/-- The entry as its record reports it: END_BEAT is the beat on which its last work has drained (R57, R75). -/
def State.finalEntry (s : State) (e : Entry) : Entry :=
  { e with
    status := some (e.status.getD (if e.faults = 0 then statusDone else statusDoneErrors)),
    endBeat := s.beat, ballast := s.projectedBallast e }

/-- ENTRY_COMPLETION (R57): the entry's work has drained; its record is written, its handles are unpinned, its prefix
references released (R154), and it leaves the device. -/
def execEntryCompletion (s : State) : Result :=
  match s.entry? s.subj.entry with
  | none => .next s
  | some e =>
    if !e.isOver || s.working e.id then .next s
    else
      let s := (s.complete (s.finalEntry e)).unpinEntries [e.id]
      let s := s.endPrefixes e.id
      .next { s with entries := s.entries.filter (·.id ≠ e.id), launches := s.launches.filter (·.entry ≠ e.id),
                     gov := { s.gov with reserved := s.gov.reserved.filter (·.2 ≠ e.id) } }

end Sys2Proof.Machine
end

