-- ==== Sys2Proof/Machine/Keys.lean ====
section
/-! DEFINITION. Bindings of contexts to the TDI and the key slots of confidential copies, changed by requests of a secured
session (R54, R55). -/

namespace Sys2Proof.Machine

/-- The CONF_COPY that an entry runs. -/
def Entry.confRunning (e : Entry) : Option ConfRec :=
  match e.op with
  | some (.confCopy r, .running) => some r
  | some (.confCopy r, .finishing _ _) => some r
  | _ => none

/-- A running CONF_COPY uses a key slot. -/
def State.slotInUse (s : State) (slot : Nat) : Bool := s.entries.any fun e => e.confRunning.any fun r => r.slot = slot

/-- A running CONF_COPY uses a context's binding. -/
def State.bindingInUse (s : State) (ctx : Nat) : Bool := s.entries.any fun e => e.ctx == ctx && e.confRunning.isSome

/-- A key slot emptied, its key gone (Table 3.12). -/
def State.dropKey (s : State) (slot : Nat) : State := { s with link := { s.link with keys := vset s.link.keys slot none } }

/-- The key slots for which `gone` holds emptied. -/
def State.dropKeys (s : State) (gone : KeySlot → Bool) : State :=
  { s with link := { s.link with keys := s.link.keys.map fun k => if k.any gone then none else k } }

/-- A context's binding cleared, and every key slot bound to it (Table 3.12). -/
def State.unbindTdi (s : State) (ctx : Nat) : State :=
  (s.setCtx ctx { s.ctxAt ctx with bound := false }).dropKeys fun k => k.ctx = ctx

/-- Every binding and every key slot cleared (R55). -/
def State.clearBindings (s : State) : State :=
  ({ s with ctxs := s.ctxs.map fun c => { c with bound := false } } : State).dropKeys fun _ => true

/-- A request waits for a running CONF_COPY to end (R55). -/
def State.postpone (s : State) (i : Instr) : State := { s with link := { s.link with waiting := s.link.waiting ++ [i] } }

/-- Requests that waited for a CONF_COPY to end take effect (R55). -/
def State.settleKeys (s : State) : State :=
  let due := s.link.waiting
  due.foldl (fun s i => match i with
    | .unbindContext c => if s.bindingInUse c.toNat then s.postpone i else s.unbindTdi c.toNat
    | .clearKey k => if s.slotInUse k.toNat then s.postpone i else s.dropKey k.toNat
    | _ => s) { s with link := { s.link with waiting := [] } }

/-- The answer of the device to a request of the session (R55): 0 done, 1 bad argument, 2 wrong state. -/
def State.answer (s : State) (code : Nat) : State := { s with link := { s.link with reply := .status code } }

/-- A request made outside a secured session is answered with 2 and changes nothing (R55). -/
def inSession (s : State) (body : State) : Result := .next (if s.link.session then body else s.answer 2)

/-- BIND_CONTEXT (R55, Table 3.12). -/
def execBindContext (c : BitVec 8) (s : State) : Result :=
  inSession s (
    if 64 ≤ c.toNat then s.answer 1
    else if !(s.ctxAt c.toNat).live || !s.link.tdiBound then s.answer 2
    else (s.setCtx c.toNat { s.ctxAt c.toNat with bound := true }).answer 0)

/-- UNBIND_CONTEXT (R55, Table 3.12). -/
def execUnbindContext (c : BitVec 8) (s : State) : Result :=
  inSession s (
    if 64 ≤ c.toNat then s.answer 1
    else if s.bindingInUse c.toNat then (s.postpone (.unbindContext c)).answer 0
    else (s.unbindTdi c.toNat).answer 0)

/-- SET_KEY (R55, Table 3.12): the slot must be empty and the context bound. -/
def execSetKey (r : KeyRequest) (s : State) : Result :=
  inSession s (
    if 16 ≤ r.slot.toNat ∨ 64 ≤ r.ctx.toNat ∨ r.zero ≠ 0 then s.answer 1
    else if (vget none s.link.keys r.slot.toNat).isSome || !(s.ctxAt r.ctx.toNat).bound then s.answer 2
    else
      let k : KeySlot := { key := r.key, ctx := r.ctx.toNat, stream := r.stream, nextCtr := r.nextCtr.toNat }
      ({ s with link := { s.link with keys := vset s.link.keys r.slot.toNat (some k) } } : State).answer 0)

/-- CLEAR_KEY (R55, Table 3.12). -/
def execClearKey (k : BitVec 8) (s : State) : Result :=
  inSession s (
    if 16 ≤ k.toNat then s.answer 1
    else if s.slotInUse k.toNat then (s.postpone (.clearKey k)).answer 0
    else (s.dropKey k.toNat).answer 0)

/-- TDI_EXIT_RUN (R55): the TDI leaves LOCKED or RUN, which clears every binding and key slot. -/
def execTdiExitRun (toError : Bool) (s : State) : Result :=
  if !s.link.tdiBound then .next s
  else
    let s := s.clearBindings
    .next { s with link := { s.link with tdi := if toError then .error else .unlocked, waiting := [] } }

/-- TDI_LOCK (R15): possible once TDISP has been accepted (Table 2.6). -/
def execTdiLock (s : State) : Result :=
  if s.link.tdi = .unlocked && s.accepts featTdisp then .next { s with link := { s.link with tdi := .locked } } else .next s

/-- TDI_START (R15). -/
def execTdiStart (s : State) : Result :=
  if s.link.tdi = .locked then .next { s with link := { s.link with tdi := .run } } else .next s

/-- SPDM_SECURED_SESSION (R55): the session is established, or ends. -/
def execSpdmSecuredSession (up : Bool) (s : State) : Result := .next { s with link := { s.link with session := up } }

end Sys2Proof.Machine
end

