-- ==== Sys2Proof/Machine/Records.lean ====
section
/-! DEFINITION. Operator records: their reading and checks (R47, R48, R51, R54, R136, R171, R242), and the running of LAUNCH,
COPY, CONF_COPY, INGEST, HANDLE_SET and HANDLE_FREE (R51, R53, R56, R58, R59, R74, R137, R142, R171). -/

namespace Sys2Proof.Machine

/-! ### Bodies (Table 3.8) -/

/-- A LAUNCH body; the pens are read later. -/
def parseLaunch (bs : List Byte) : LaunchRec :=
  { code := BitVec.ofNat 64 (numAt bs 8 8), frame := BitVec.ofNat 64 (numAt bs 0x10 8), stride := numAt bs 0x18 4,
    count := numAt bs 0x1C 4, pentab := BitVec.ofNat 64 (numAt bs 0x20 8), tmpltab := BitVec.ofNat 64 (numAt bs 0x28 8),
    penset := BitVec.ofNat 32 (numAt bs 0x30 4), pencnt := numAt bs 0x34 1 }

/-- The fields of a LAUNCH, and of every continuation record it makes (Table 4.1), within their limits. -/
def launchOk (bs : List Byte) (r : LaunchRec) : Bool :=
  r.stride % 64 == 0 && decide (1 ≤ r.count ∧ r.count ≤ 65536 ∧ r.pencnt ≤ 4) && numAt bs 0x35 11 == 0 && recordAddr 8 r.code
    && recordAddr 64 r.frame && decide (r.frame.toNat + (r.count - 1) * r.stride < 2 ^ 57)

/-- An optional semaphore: its enable bit and its number. -/
def semIf (on : Bool) (n : Nat) : Option Nat := if on then some n else none

/-- A COPY body. -/
def parseCopy (bs : List Byte) (resultAt : W64) : CopyRec :=
  { dst := BitVec.ofNat 32 (numAt bs 8 4), src := BitVec.ofNat 32 (numAt bs 0x0C 4), dstOff := numAt bs 0x10 8,
    srcOff := numAt bs 0x18 8, len := numAt bs 0x20 8, crcList := BitVec.ofNat 64 (numAt bs 0x28 8),
    conv := BitVec.ofNat 8 (numAt bs 0x30 1), sig := semIf (nbit (numAt bs 0x33 1) 0) (numAt bs 0x31 1),
    err := semIf (nbit (numAt bs 0x33 1) 1) (numAt bs 0x32 1), resultAt := resultAt }

def copyOk (bs : List Byte) (r : CopyRec) : Bool :=
  decide (1 ≤ r.len ∧ r.len ≤ 2 ^ 40) && pairOk r.conv.toNat && r.crcList.toNat % 4 == 0 && decide (numAt bs 0x33 1 < 4)
    && numAt bs 0x34 4 == 0

/-- A CONF_COPY body. -/
def parseConf (bs : List Byte) (resultAt : W64) : ConfRec :=
  { src := BitVec.ofNat 32 (numAt bs 8 4), slot := numAt bs 0x0C 1, stageOff := numAt bs 0x10 8, len := numAt bs 0x18 8,
    stream := BitVec.ofNat 32 (numAt bs 0x20 4), counter := BitVec.ofNat 64 (numAt bs 0x28 8), resultAt := resultAt }

def confOk (bs : List Byte) (r : ConfRec) : Bool :=
  decide (r.slot < 16) && numAt bs 0x0D 3 == 0 && decide (16 ≤ r.len ∧ r.len ≤ 2 ^ 30) && r.len % 16 == 0 && numAt bs 0x24 4 == 0
    && numAt bs 0x30 8 == 0

/-- A HANDLE_SET body. -/
def parseSet (bs : List Byte) (resultAt : W64) : HandleSetRec :=
  { slot := numAt bs 8 2, bus := numAt bs 0x0A 1 == 1, canRead := nbit (numAt bs 0x0B 1) 0, canWrite := nbit (numAt bs 0x0B 1) 1,
    base := numAt bs 0x10 8, len := numAt bs 0x18 8, resultAt := resultAt }

/-- A HANDLE_SET body within its limits; a PERM with one of bits 7:2 set is outside them (R47; DESIGN CHOICE, log 84). -/
def handleSetOk (bs : List Byte) (r : HandleSetRec) : Bool :=
  decide (1 ≤ r.slot) && decide (numAt bs 0x0A 1 ≤ 1) && decide (numAt bs 0x0B 1 < 4) && numAt bs 0x0C 4 == 0
    && decide (1 ≤ r.len ∧ r.len ≤ 2 ^ 48) && numAt bs 0x20 24 == 0

/-- A record's body by its KIND; none where KIND, FORMAT, a reserved byte or a field is outside its limits (R47). -/
def parseRecord (bs : List Byte) (at_ : W64) (paging : Bool) : Option OpRec :=
  if numAt bs 1 1 ≠ 1 ∨ numAt bs 2 6 ≠ 0 then none
  else
    match numAt bs 0 1 with
    | 1 => if launchOk bs (parseLaunch bs) then some (.launch (parseLaunch bs)) else none
    | 2 => if copyOk bs (parseCopy bs at_) then some (.copy (parseCopy bs at_)) else none
    | 3 => if confOk bs (parseConf bs at_) then some (.confCopy (parseConf bs at_)) else none
    | 4 => if ingestFieldsOk bs (parseIngest bs at_) paging then some (.ingest (parseIngest bs at_)) else none
    | 5 => if handleSetOk bs (parseSet bs at_) then some (.handleSet (parseSet bs at_)) else none
    | 6 => if numAt bs 0x0C 52 = 0 then some (.handleFree (BitVec.ofNat 32 (numAt bs 8 4))) else none
    | _ => none

/-- Address of a record's RESULT field. -/
def OpRec.result? : OpRec → Option W64
  | .copy r => some r.resultAt
  | .confCopy r => some r.resultAt
  | .ingest r => some r.resultAt
  | .handleSet r => some r.resultAt
  | _ => none

/-! ### Checks -/

/-- A handle that the entry lists, found in its context (R47, R51). -/
def State.listed (s : State) (e : Entry) (h : BitVec 32) : Option Handle :=
  if h ≠ 0 ∧ e.handles.contains h then (s.ctxAt e.ctx).handle? h else none

/-- The semaphores of a record are the context's (R298). -/
def State.semsOwned (s : State) (ctx : Nat) (sems : List (Option Nat)) : Bool :=
  sems.all fun x => x.all fun n => s.semOwned n ctx

/-- A pen after the image of a PENTAB has been loaded into it (R171). -/
def loadPen (ctx : Nat) (x : Nat) (p : Pen) : Pen := if x = 0 then p else { p with bitmap := BitVec.ofNat 64 x, owner := some ctx }

/-- The pen table after a load (R171). -/
def State.loadedPens (s : State) (ctx : Nat) (image : List Nat) : Vector Pen 256 :=
  Vector.ofFn fun i => loadPen ctx (image.getD i.val 0) s.pens[i]

/-- The pens of a LAUNCH are its to load and to name (R171). -/
def State.pensOk (s : State) (ctx : Nat) (r : LaunchRec) : Bool :=
  let after := s.loadedPens ctx r.pens
  let mine := r.pens.zipIdx.all fun x => x.1 == 0 || (match (vget ({} : Pen) s.pens x.2).owner with
    | some c => c == ctx || !(s.ctxAt c).live
    | none => true)
  let few := r.pens.isEmpty || (List.range 64).all fun c =>
    decide ((after.toList.filter fun p => p.bitmap.getLsbD c).length ≤ 4)
  let named := (pensOf r.penset r.pencnt).all fun i =>
    let p := vget ({} : Pen) after i
    p.bitmap != 0 && p.owner == some ctx
  mine && few && named

/-- A CONF_COPY is one that R54 allows. -/
def State.confAllowed (s : State) (e : Entry) (r : ConfRec) : Bool :=
  let c := s.ctxAt e.ctx
  s.accepts featConfCopy && s.link.tdi == .run && c.bound
    && (match vget none s.link.keys r.slot with
        | some k => k.ctx == e.ctx && k.stream == r.stream && decide (k.nextCtr ≤ r.counter.toNat)
        | none => false)
    && decide (r.stageOff + r.len ≤ c.stageLen)

/-- The checks of a record that look at the device, RESULT and the pen image aside (R47, R51, R54, R136, R142; DEDUCED, log 44). -/
def State.recordOk (s : State) (e : Entry) : OpRec → Bool
  | .launch r => s.pensOk e.ctx r
  | .copy r =>
    s.semsOwned e.ctx [r.sig, r.err] &&
      match s.listed e r.src, s.listed e r.dst with
      | some a, some b => a.canRead && b.canWrite && a.covers r.srcOff r.len && b.covers r.dstOff r.len
      | _, _ => false
  | .confCopy r =>
    s.confAllowed e r &&
      match s.listed e r.src with
      | some a => a.canRead && a.covers 0 (r.len + 16)
      | none => false
  | .ingest r =>
    s.semsOwned e.ctx [r.sig, r.err] && !(s.expertTaken e.ctx r) &&
      match s.listed e r.src, s.listed e r.dst with
      | some a, some b => r.rangesOk a b && (s.accepts featP2pIngest || !(s.peerSource a r.srcOff (r.srcSpan a)))
      | _, _ => false
  | .handleSet r => (SMap.get ({} : Handle) (s.ctxAt e.ctx).handles r.slot).st == .free
  | .handleFree h => h != 0 && e.handles.contains h

/-- The image of a PENTAB: 256 bitmaps (Table 3.8). -/
def penImage (bs : List Byte) : List Nat := (List.range 256).map fun i => numAt bs (8 * i) 8

/-- What a LAUNCH reads at expansion: its code object header and its pen image (R171, R241, R242). -/
def State.expandLaunch (s : State) (e : Entry) (r : LaunchRec) : State × Option LaunchRec :=
  match readHeader s e.ctx (.yard 0) r.code with
  | (s, .ok (some _)) =>
    if r.pentab = 0 then (s, some r)
    else
      match s.firmRead e.ctx r.pentab.toNat 2048 with
      | (s, .ok bs) => (s, some { r with pens := penImage bs })
      | (s, .error _) => (s, none)
  | (s, _) => (s, none)

/-- A record read, parsed and checked; none where it is malformed (R47, R48; DEDUCED, log 45). -/
def State.readRecord (s : State) (e : Entry) : State × Option OpRec :=
  let at_ := e.opchain + BitVec.ofNat 64 (64 * e.opIndex)
  match s.firmRead e.ctx at_.toNat 64 with
  | (s, .error _) => (s, none)
  | (s, .ok bs) =>
    match parseRecord bs (at_ + 0x38) (s.accepts featExpertPaging) with
    | none => (s, none)
    | some r =>
      let r1 : State × Option OpRec := match r with
        | .launch l => match s.expandLaunch e l with
          | (s, some l) => (s, some (.launch l))
          | (s, none) => (s, none)
        | r => (s, some r)
      match r1 with
      | (s, none) => (s, none)
      | (s, some r) =>
        if !(s.recordOk e r) then (s, none)
        else
          match r.result? with
          | none => (s, some r)
          | some a => match s.firmMapped e.ctx .write a.toNat 8 with
            | (s, ok) => (s, if ok then some r else none)

/-! ### The shadow bank (R47) -/

/-- The record of an entry has done its work: the next one swaps in, or the record waits for the next one's checks. -/
def Entry.retireOp (e : Entry) : Entry :=
  match e.op with
  | none => e
  | some (r, _) =>
    if e.opIndex = e.opcount || e.shadow.isSome then { e with op := e.shadow.map fun r => (r, .shadow), shadow := none }
    else { e with op := some (r, .retiring) }

/-- A record is placed in the shadow bank; where nothing runs any more, it swaps in. -/
def Entry.place (e : Entry) (r : OpRec) : Entry :=
  let e := { e with opIndex := e.opIndex + 1 }
  match e.op with
  | none => { e with op := some (r, .shadow) }
  | some (_, .retiring) => { e with op := some (r, .shadow) }
  | some _ => { e with shadow := some r }

/-- The front end reads the entry's next record now: none runs, or one runs and none waits behind it (R47). -/
def Entry.expands (e : Entry) : Bool :=
  e.status.isNone && decide (e.opIndex < e.opcount) &&
    match e.op with
    | none => true
    | some (_, .shadow) => false
    | some _ => e.shadow.isNone

/-- OPERATOR_RECORD_EXPAND (R47, R49). -/
def execOperatorRecordExpand (s : State) : Result :=
  match s.entry? s.subj.entry with
  | none => .next s
  | some e =>
    if !e.expands then .next s
    else
      match s.readRecord e with
      | (t, none) => .next ((t.contain e.queue e.id).orFirm s)
      | (t, some r) => .next ((t.modEntry e.id fun e => e.place r).orFirm s)

/-- The record of the entry whose turn it is, when it waits to swap in. -/
def State.swapping (s : State) : Option (Entry × OpRec) :=
  match s.entry? s.subj.entry with
  | none => none
  | some e =>
    match e.op with
    | some (r, .shadow) => if e.status.isNone then some (e, r) else none
    | _ => none

/-- The record of the entry whose turn it is, when it runs. -/
def State.runningOp (s : State) : Option (Entry × OpRec) :=
  match s.entry? s.subj.entry with
  | none => none
  | some e =>
    match e.op with
    | some (r, .running) => if e.status.isNone then some (e, r) else none
    | _ => none

/-- A record swaps in and runs; the first one starts the entry's clock (R57). -/
def State.swapIn (s : State) (id : Nat) : State :=
  s.modEntry id fun e => { e with startBeat := some (e.startBeat.getD s.beat), op := e.op.map fun x => (x.1, .running) }

/-- The record of an entry retires. -/
def State.retireRecord (s : State) (id : Nat) : State := s.modEntry id Entry.retireOp

/-- A RESULT field is written by firmware (R82). -/
def State.writeResult (s : State) (e : Entry) (at_ : W64) (x : Nat) : State :=
  (s.firmWrite e.ctx at_.toNat (toBytes 8 x) e.id).1

/-! ### LAUNCH (R58, R59, R74, R171) -/

/-- A request for ramp slots: one for each of the pens in turn, or for a whole launch or transfer (R73, R74). -/
def State.askSlots (s : State) (e : Entry) (pens : List Nat) : State :=
  { s with gov := { s.gov with waiting := s.gov.waiting ++ [{ entry := e.id, urgent := false, pens := pens, left := 0 }] } }

/-- The pens of a launch in the order in which they are released (R74). -/
def LaunchRec.pensInTurn (r : LaunchRec) : List Nat := sortBy (fun a b => decide (a < b)) (pensOf r.penset r.pencnt).eraseDups

/-- The first item of an entry is a transfer that does not fit, and it has not asked for slots (R73). -/
def State.asksSlots (s : State) (e : Entry) : Bool :=
  !(s.powerFits e.id) && !e.started && !e.pinned && !e.released && !(s.gov.waiting.any fun w => w.entry == e.id)

/-- The governor's answer to a launch: released at once when it fits, else a request for ramp slots; a pinned entry waits
for its reserved slots (R73, R74, R76; DEDUCED, log 43). -/
def State.rampRequest (s : State) (e : Entry) (r : LaunchRec) : State :=
  let w := classWatts e.powerClass * 1000
  if e.started then s.modEntry e.id fun e => { e with released := true }
  else if e.pinned then s.modEntry e.id fun e => { e with released := e.rampSlots.all fun b => decide (b ≤ s.beat) }
  else if w ≤ s.allowance e then
    { s with gov := { s.gov with risenMw := s.gov.risenMw + w } }.modEntry e.id fun e =>
      { e with released := true, rampSlots := [s.gov.windowAt] }
  else
    s.askSlots e r.pensInTurn

/-- A LAUNCH swaps in: pens and template table are loaded, and its records become ready. -/
def State.launch (s : State) (e : Entry) (r : LaunchRec) : State :=
  let c := s.ctxAt e.ctx
  let s := { s with pens := s.loadedPens e.ctx r.pens }
  let s := if r.tmpltab = 0 then s else s.setCtx e.ctx { c with tmpltab := some r.tmpltab.toNat }
  let g : LaunchGen := { id := s.fresh, entry := e.id, ctx := e.ctx, body := r, next := 0, ready := s.beat }
  let s := { s with launches := s.launches ++ [g], fresh := s.fresh + 1 }
  (((s.swapIn e.id).modEntry e.id fun e => { e with hwJoin := r.count, released := false, pensReleased := [] }).rampRequest e r).drainWrites

/-- LAUNCH (R58, R171). A pen that another launch has taken meanwhile makes the record malformed. -/
def execLaunch (s : State) : Result :=
  match s.swapping with
  | some (e, .launch r) => if s.pensOk e.ctx r then .next (s.launch e r) else .next (s.contain e.queue e.id)
  | _ => .next s

/-- LAUNCH_RETIRE (R59): every continuation has ended, and every job charged to the launch has drained. -/
def execLaunchRetire (s : State) : Result :=
  match s.runningOp with
  | some (e, .launch _) =>
    if e.hwJoin ≠ 0 ∨ s.working e.id then .next s
    else
      .next ({ s with launches := s.launches.filter (·.entry ≠ e.id),
                      gov := { s.gov with waiting := s.gov.waiting.filter (·.entry ≠ e.id) } }.retireRecord e.id)
  | _ => .next s

/-! ### Records that run as jobs: COPY and INGEST (R53, R137) -/

/-- A job of an operator record: no core issued it. -/
def recordJob (s : State) (e : Entry) (kind : JobKind) (unit : JobUnit) : Job :=
  { id := s.fresh, kind := kind, unit := unit, core := 0, cont := 0, entry := e.id, ctx := e.ctx, wait := none, sig := none,
    tag := none, ready := s.beat, phase := .running, begun := true }

/-- A record's job is made. -/
def State.startRecord (s : State) (e : Entry) (j : Job) : State :=
  let s := ((s.swapIn e.id).noteDispatch e.id).modEntry e.id fun e => { e with rampDone := true }
  { s with jobs := s.jobs ++ [j], fresh := s.fresh + 1 }

/-- The job of an entry's record. -/
def State.recordJob? (s : State) (id : Nat) : Option Job := s.jobs.find? fun j => j.entry = id && j.cont = 0

/-- COPY (R53): the record swaps in once its power fits, and the copy runs. -/
def execCopy (s : State) : Result :=
  match s.swapping with
  | some (e, .copy r) =>
    if !(s.powerFits e.id) then .next (if s.asksSlots e then s.askSlots e [] else s)
    else
      let j := recordJob s e (.recordCopy r) .frontEnd
      .next (((s.startRecord e j).runRecordCopy j r).orFirm s)
  | _ => .next s

/-- Bytes that a stopped copy has written: those of the chunks that matched (R53). -/
def Job.copied (j : Job) (r : CopyRec) : Nat :=
  match j.run with
  | some c => convertedLen c.pair (wholePrefix c.pair (min r.len (j.mpcByte * chunkBytes)))
  | none => 0

/-- A signal of the front end, when the record asks for it (R299). -/
def State.frontSignal (s : State) (sem : Option Nat) (entry : Nat) : State :=
  match sem with
  | some n => s.signalLogged n 7 0 entry
  | none => s

/-- A fault of a copy that its unit has not logged is logged (R53, R134). -/
def State.logRecord (s : State) (j : Job) (code : BitVec 8) : State :=
  if code = 0x24 || code = 0x21 then s else s.logError code.toNat j.logKind.1 j.logKind.2 j.entry

/-- COPY_END (R53): RESULT, then SIGSEM and retirement; or the count written, ERRSEM and STATUS FAILED. -/
def execCopyEnd (s : State) : Result :=
  match s.runningOp with
  | some (e, .copy r) =>
    match s.recordJob? e.id with
    | none => .next s
    | some j =>
      match j.phase with
      | .done => .next ((((s.removeJob j).writeResult e r.resultAt r.len).frontSignal r.sig e.id).retireRecord e.id)
      | .failed code =>
        let n := j.copied r
        .next (((((s.logRecord j code).removeJob j).writeResult e r.resultAt n).frontSignal r.err e.id).failEntry e.id code)
      | _ => .next s
  | _ => .next s

/-- An INGEST waits: for a registration that must wait, for its power, or for the layout engine (R63, R136, R142). -/
def State.ingestWaits (s : State) (e : Entry) (r : IngestRec) : Bool :=
  s.registrationWaits r || !(s.powerFits e.id) || s.unitHeld .layout (s.keyOf e.id s.beat 0)

/-- INGEST (R136, R142): when nothing holds it back, the layout engine runs; a job of a later key yields it (R64). -/
def execIngest (s : State) : Result :=
  match s.swapping with
  | some (e, .ingest r) =>
    if !(s.recordOk e (.ingest r)) then .next (s.contain e.queue e.id)
    else if s.ingestWaits e r then .next (if s.asksSlots e then s.askSlots e [] else s)
    else
      let j := recordJob s e (.layout r r.resultAt) .layout
      let t := (s.yieldUnit .layout).startRecord e j
      .next (({ t with ctxs := pin (pin t.ctxs e.ctx (handleSlot r.src)) e.ctx (handleSlot r.dst) }.runLayout j r r.resultAt).orFirm s)
  | _ => .next s

/-- INGEST_END (R137, R142): RESULT and SIGSEM when the rows are placed, a deferred registration having placed none; or
ERRSEM, an error record and STATUS FAILED. -/
def execIngestEnd (s : State) : Result :=
  match s.runningOp with
  | some (e, .ingest r) =>
    match s.recordJob? e.id with
    | none => .next s
    | some j =>
      match j.phase with
      | .done =>
        let s := (s.removeJob j).writeResult e r.resultAt (ingestResult r.placed j.mpcByte).toNat
        .next ((if r.expert.isSome && r.defer then s else s.frontSignal r.sig e.id).retireRecord e.id)
      | .failed code =>
        .next ((((s.removeJob j).frontSignal r.err e.id).logError code.toNat 5 0 e.id).failEntry e.id code)
      | _ => .next s
  | _ => .next s

/-! ### CONF_COPY (R54, R56) -/

/-- The ciphertext and tag under the SRC handle; none where the read completes with an error (DEDUCED, log 17). -/
def State.confSource (s : State) (e : Entry) (h : Handle) (n : Nat) : State × Option (List Byte) :=
  if h.bus then (if s.busError h.base n then (s, none) else (s, some (s.readBus h.base n)))
  else
    match s.firmRead e.ctx h.base n with
    | (s, .ok bs) => (s, some bs)
    | (s, .error _) => (s, none)

/-- The plaintext, when the tag verifies (R56). -/
def confPlain (k : KeySlot) (r : ConfRec) (bs : List Byte) : Option (List Byte) :=
  gcmOpen ((toBytes 32 k.key.toNat).map (·.toNat)) (beBytes 4 r.stream.toNat ++ beBytes 8 r.counter.toNat)
    (bs.take r.len) (bs.drop r.len)

/-- The staging range held for the CONF_COPY of an entry. -/
def State.hold (s : State) (e : Entry) (at_ n : Nat) : State :=
  s.setCtx e.ctx { s.ctxAt e.ctx with held := (e.id, at_, n) :: (s.unhold e.ctx e.id |>.ctxAt e.ctx).held }

/-- Bytes put into the arrays of a staging range. -/
def State.putStage (s : State) (at_ : Nat) : List Byte → State
  | [] => s
  | b :: bs => (s.writeArray at_ b).putStage (at_ + 1) bs

/-- CONF_COPY (R54, R56): NEXT_CTR advances, the staging range is held, and the ciphertext is read; what comes of it shows
when the tag has been checked. -/
def execConfCopy (s : State) : Result :=
  match s.swapping with
  | some (e, .confCopy r) =>
    match s.recordOk e (.confCopy r), vget none s.link.keys r.slot, s.listed e r.src with
    | true, some k, some h =>
      let u := { s with link := { s.link with keys := vset s.link.keys r.slot (some { k with nextCtr := r.counter.toNat + 1 }) } }
      let at_ := (u.ctxAt e.ctx).stageBase + r.stageOff
      match (u.swapIn e.id).confSource e h (r.len + 16) with
      | (t, none) =>
        .next (((t.hold e at_ r.len).modEntry e.id fun e => { e with op := some (.confCopy r, .finishing 0x25 0) }).orFirm s)
      | (t, some bs) =>
        match confPlain k r bs with
        | some plain =>
          .next ((((t.putStage at_ plain).hold e at_ r.len).modEntry e.id fun e =>
            { e with op := some (.confCopy r, .finishing 0 (BitVec.ofNat 64 r.len)) }).orFirm s)
        | none =>
          .next (((t.hold e at_ r.len).modEntry e.id fun e => { e with op := some (.confCopy r, .finishing 0x23 0) }).orFirm s)
    | _, _, _ => .next (s.contain e.queue e.id)
  | _ => .next s

/-- CONF_COPY_TAG_CHECK (R55, R56): the range is released and RESULT written, or scrubbed and the entry ends TAG_FAIL. -/
def execConfCopyTagCheck (s : State) : Result :=
  match s.entry? s.subj.entry with
  | none => .next s
  | some e =>
    match e.op with
    | some (.confCopy r, .finishing fault x) =>
      if fault = 0 then
        .next ((((s.unhold e.ctx e.id).writeResult e r.resultAt x.toNat).retireRecord e.id).settleKeys)
      else
        let s := (((s.scrubHeld e.ctx e.id).writeResult e r.resultAt 0).logError fault.toNat 6 0 e.id).chargeFault e.id fault.toNat
        .next ((s.endEntry e.id (if fault = 0x23 then statusTagFail else statusFailed)).settleKeys)
    | _ => .next s

/-! ### Handles (R51) -/

/-- HANDLE_SET (R51): a FREE slot becomes SET, and the handle is written to RESULT. -/
def execHandleSet (s : State) : Result :=
  match s.swapping with
  | some (e, .handleSet r) =>
    if !(s.recordOk e (.handleSet r)) then .next (s.contain e.queue e.id)
    else
      let c := s.ctxAt e.ctx
      let old := SMap.get ({} : Handle) c.handles r.slot
      let h : Handle :=
        { old with st := .set, bus := r.bus, canRead := r.canRead, canWrite := r.canWrite, base := r.base, len := r.len, pins := 0 }
      let s := (s.swapIn e.id).setCtx e.ctx { c with handles := SMap.set ({} : Handle) c.handles r.slot h }
      .next ((s.writeResult e r.resultAt (2 ^ 16 * c.generation r.slot + r.slot)).retireRecord e.id)
  | _ => .next s

/-- A SET slot becomes FREEING, and FREE with the next generation where nothing pins it (R51). -/
def freeHandle (h : Handle) : Handle :=
  if h.pins = 0 then { ({} : Handle) with gen := (h.gen + 1) % 65536 } else { h with st := .freeing }

/-- HANDLE_FREE (R51): a handle that does not match or is not SET fails the entry with HANDLE_STALE. -/
def execHandleFree (s : State) : Result :=
  match s.swapping with
  | some (e, .handleFree h) =>
    let s := s.swapIn e.id
    let c := s.ctxAt e.ctx
    if c.liveHandle h then
      let x := SMap.get ({} : Handle) c.handles (handleSlot h)
      .next ((s.setCtx e.ctx { c with handles := SMap.set ({} : Handle) c.handles (handleSlot h) (freeHandle x) }).retireRecord e.id)
    else
      let s := s.setQueue e.queue { s.queue e.queue with lastFault := 0x41 }
      .next ((s.logError 0x41 7 0 e.id).failEntry e.id 0x41)
  | _ => .next s

end Sys2Proof.Machine
end

