-- ==== Sys2Proof/Machine/Governor.lean ====
section
/-! DEFINITION. The scheduler's and the governor's own events: pre-emption (R64), overruns (R70), missed deadlines (R71),
temperature (R24, R78), modelled power (R73, R75) and governor windows (R74, R76, R77). -/

namespace Sys2Proof.Machine

/-! ### Pre-emption (R64) -/

/-- The key of the continuation that a core runs. -/
def State.runKey (s : State) (c : Nat) : List Nat := s.keyOf (s.coreAt c).entry (s.coreAt c).readyAt (s.coreAt c).index

/-- Continuations that an item stands for: one, or those that a launch has still to make. -/
def PopItem.count : PopItem → Nat
  | .record _ => 1
  | .launch l => l.body.count - l.next

/-- A core is the victim of some ready item: no unit that may take the item is idle, more items than are yielding to them want these
units, and no unit of them that is not yielding runs an item with a later key. -/
def State.coreVictim (s : State) (c : Nat) : Bool :=
  (s.coreAt c).running && !(s.coreAt c).preemptReq && s.items.any fun x =>
    s.mayPop c x && keyPrecedes (x.key s) (s.runKey c) &&
      let units := (List.range 64).filter fun i => s.mayPop i x
      let yielding := units.filter fun i => (s.coreAt i).preemptReq
      let before := s.items.filter fun y => y == x || (!(keyLess (x.key s) (y.key s)) && yielding.any fun i => s.mayPop i y)
      units.all (fun i => (s.coreAt i).running && ((s.coreAt i).preemptReq || !(keyLess (s.runKey c) (s.runKey i))))
        && decide (yielding.length < (before.map PopItem.count).foldl (· + ·) 0)

/-- A queued job that only waits for its unit. -/
def State.jobReady (s : State) (j : Job) : Bool :=
  j.phase == .queued && decide (j.ready ≤ s.beat) && s.tookUnit j && !j.stamped && s.powerFits j.entry && s.orderAllows j

/-- The array as it stands once its lunge run has yielded. -/
def State.runYielded (s : State) (y : Fin 8) (l : Lunge) : State :=
  { s with jobs := s.jobs.filter (·.id ≠ l.job) }.modArr y fun a => { a with lunge := none, live := [], landings := [] }

/-- The lunge run of an array is the victim of a queued job that the array would take in its place. -/
def State.runVictim (s : State) (y : Fin 8) (l : Lunge) : Bool :=
  l.stopAt.isNone && !l.failed && s.jobs.any fun x =>
    x.unit == .array y.val && x.entry != l.entry && s.jobReady x && (s.runYielded y l).arrayReady y x
      && (s.job? l.job).any fun j => keyPrecedes (s.jobKey x) (s.jobKey j)

/-- Every MCS that a queued bank job needs is idle or executes a job with a later key. -/
def State.portsYield (s : State) (x : Job) : Bool :=
  (s.bankJob? x.id).any fun b => b.ports.all fun p => p.halted || match (s.mcsAt p.die).holder.bind s.job? with
    | some y => keyPrecedes (s.jobKey x) (s.jobKey y)
    | none => true

/-- A running bank job is the victim of a queued one. -/
def State.bankVictim (s : State) (j : Job) : Bool :=
  j.phase == .running && (s.bankJob? j.id).any (fun b => !b.ended) && s.jobs.any fun x =>
    x.id != j.id && s.competes x j && s.jobReady x && !(s.dispatchable x) && s.portsYield x && keyPrecedes (s.jobKey x) (s.jobKey j)

/-- A bank job yields between two words: its MCSs are free, and it waits with its key and its ports as they stand (R64, R126). -/
def State.yieldBank (s : State) (id : Nat) : State := ((s.dropWaits id).freeMcs id).modJob id fun j => { j with phase := .queued }

/-- PREEMPTION (R64): the victim is told to yield at its yield point (Table 4.2). -/
def execPreemption (unit : PreemptUnit) (s : State) : Result :=
  match unit with
  | .core c => if s.coreVictim c.val then .next (s.modCoreAt c.val fun x => { x with preemptReq := true }) else .next s
  | .matrix y =>
    match (s.arr y).lunge with
    | some l => if s.runVictim y l then .next (s.cutLunge y l fun l => l.stop true) else .next s
    | none => .next s
  | .bank id =>
    match s.job? id with
    | some j => if s.bankVictim j then .next (s.yieldBank id) else .next s
    | none => .next s

/-! ### Meters and deadlines (R70, R71) -/

def Meters.get (m : Meters) (c : MeterClass) : Nat :=
  match c with
  | .cores => m.cores
  | .matrix => m.matrix
  | .bank => m.bank
  | .copy => m.copy

/-- A meter has exceeded its budget for the first time; for a best-effort entry a budget of 0 means unmetered (R44, R70). -/
def Entry.overruns (e : Entry) (c : MeterClass) : Bool :=
  e.status.isNone && !(e.overran.contains c) && decide (e.budget.get c < e.used.get c) && (e.dl || e.budget.get c != 0)

/-- A fault of an entry that its policy handles: logged by the front end and charged. -/
def State.noteFault (s : State) (id code : Nat) : State := (s.logError code 7 0 id).chargeFault id code

/-- BUDGET_OVERRUN (R70). -/
def execBudgetOverrun (c : MeterClass) (s : State) : Result :=
  match s.entry? s.subj.entry with
  | none => .next s
  | some e =>
    if !(e.overruns c) then .next s
    else
      let s := (s.noteFault e.id 0x30).modEntry e.id fun e => { e with overran := e.overran ++ [c] }
      match e.overrun with
      | 0 =>
        .next { s.modEntry e.id fun e => { e with trapNew := true } with
          cores := s.cores.map fun x => if x.running && x.entry = e.id then { x with budgetTrap := true } else x }
      | 1 => .next (s.modEntry e.id fun e => { e with dl := false })
      | _ => .next (s.endEntry e.id statusAborted)

/-- The deadline of an entry has passed and has not been noted (R71). -/
def Entry.misses (e : Entry) (beat : Nat) : Bool := e.dl && !e.missed && e.status.isNone && decide (e.deadline < beat)

/-- DEADLINE_MISS (R71). -/
def execDeadlineMiss (s : State) : Result :=
  match s.entry? s.subj.entry with
  | none => .next s
  | some e =>
    if !(e.misses s.beat) then .next s
    else
      let s := (s.noteFault e.id 0x31).modEntry e.id fun e => { e with missed := true }
      if e.missAbort then .next (s.endEntry e.id statusAborted)
      else .next (s.modEntry e.id fun e => { e with dl := false, continued := true })

/-! ### Temperature (R24) -/

/-- The highest level that the envelope allows in the current window, in 0.1 W (R73, R78, Table 4.6). -/
def Gov.ceiling (g : Gov) : Nat := min ((g.windowStartMw + g.board.rampUp * 1000) / 100) (min (10 * g.board.peak) g.budgetDw)

/-- THERMAL_SAMPLE (R24): the thermal budget and the clock step follow the temperature; at 115 °C all clocks stop and a fatal
error message is sent. The clock steps back up at the first sample below 105 °C (R10; DESIGN CHOICE, log 84). -/
def execThermalSample (s : State) : Result :=
  if s.beat < s.gov.thermalAt then .next s
  else
    let t := s.env.temperature
    let step := if t < 1050 then 0 else 1 + Config.throttleStep t % 4
    let g := { s.gov with temperature := t, budgetDw := thermalBudget s.gov.board.peak t, clockStep := step,
                          thermalAt := (s.beat / 260 + 1) * 260 }
    let g := { g with ceilingDw := g.ceiling }
    if t < 1150 then .next { s with gov := g }
    else .next { s with gov := { g with stopped := true }, link := { s.link with fatal := true } }

/-! ### Power (R73, R75) -/

/-- An entry's attributed power as of a sample, and by yard as of the last one at which it is not zero (R68, R75). -/
def State.sampleEntry (s : State) (e : Entry) : Entry :=
  let a := s.attributedMw e.id
  let e := { e with drawnMw := sumMw a }
  if sumMw a = 0 then e else { e with attributed := a, sampleMw := s.modelledNow }

/-- MODELLED_POWER_SAMPLE (R73, R75): power is evaluated, and ballast is run where activity fell. -/
def execModelledPowerSample (s : State) : Result :=
  if s.beat < s.gov.sampleAt then .next s
  else
    let s := s.settleBallast
    .next { s with gov := { s.gov with modelledMw := s.modelledNow, sampleAt := (s.beat / 260 + 1) * 260 },
                   entries := s.entries.map s.sampleEntry }

/-! ### Governor windows (R74, R76, R77) -/

/-- A running pinned entry drew more than its class at the last sample (R68, R77). -/
def Entry.violates (e : Entry) : Bool :=
  e.pinned && e.started && e.status.isNone && decide (classWatts e.powerClass * 1000 < e.drawnMw)

/-- The lunge runs of an entry end after their groups (R77, Table 4.2). -/
def State.endRuns (s : State) (id : Nat) : State :=
  (List.finRange 8).foldl (fun s y => match s.lungeOf y id with
    | some l => s.cutLunge y l fun l => l.stop false
    | none => s) s

/-- RAMP_VIOLATION for every pinned entry that draws more than its class (R77). -/
def State.punish (s : State) : State :=
  (s.entries.filter Entry.violates).foldl (fun s e => ((s.logError 0x32 7 0 e.id).failAtYield e.id 0x32).endRuns e.id) s

/-- A waiting entry takes slots ahead of the others: its slack is below its ramp horizon (R74). -/
def State.urgent (s : State) (w : RampWait) : Bool :=
  w.urgent || match s.entry? w.entry with
    | some e =>
      let run := s.gov.runBeats fun c => c.of e.budget - c.of e.used
      e.dl && decide (e.deadline < s.beat + run + s.gov.rampSlotsOf e * s.gov.board.window)
    | none => false

/-- Slots that the next pens of a request take, or all of a request without pens, and whether a share fits one slot (R74). -/
def State.slotsFor (s : State) (w : RampWait) (e : Entry) : Nat × Bool :=
  let watts := classWatts e.powerClass
  let up := s.gov.board.rampUp
  let p := e.pensReleased.length + w.pens.length
  let fits := p ≠ 0 && decide (watts ≤ p * up)
  (if p = 0 then ceilDiv watts up else if fits then 1 else ceilDiv watts (p * up), fits)

/-- A request can use the slot of this window: a pen that takes several finds consecutive ones (R74). -/
def State.canTake (s : State) (w : RampWait) : Bool :=
  match s.entry? w.entry with
  | none => true
  | some e =>
    decide (w.left ≠ 0) || w.pens.isEmpty
      || (List.range ((s.slotsFor w e).1 - 1)).all fun i => !(s.gov.reserved.any (·.1 = s.gov.slotBeat (i + 1)))

/-- The request that the next slot goes to: a pen that has begun to take consecutive ones, else the first urgent one, else the first (R74). -/
def State.slotTaker (s : State) : Option RampWait :=
  let ws := s.gov.waiting.filter s.canTake
  (ws.find? fun w => decide (w.left ≠ 0) && !w.pens.isEmpty) <|> ws.find? s.urgent <|> ws.head?

/-- A slot granted to a waiting launch or transfer releases its next pens, or counts towards them, where the level allows the rise of the
slot; a pen whose slots come to one that it does not takes consecutive slots anew (R73, R74; DEDUCED, log 99). -/
def State.grantSlot (s : State) (w : RampWait) : State :=
  match s.entry? w.entry with
  | none => { s with gov := { s.gov with waiting := s.gov.waiting.filter (· ≠ w) } }
  | some e =>
    let watts := classWatts e.powerClass
    let up := s.gov.board.rampUp
    let p := e.pensReleased.length + w.pens.length
    let (per, fits) := s.slotsFor w e
    let left := (if w.left = 0 then per else w.left) - 1
    let k := if fits then max 1 (up * p / watts) else 1
    let rest := if left ≠ 0 then w.pens else w.pens.drop k
    let excess := left = 0 && rest.isEmpty
    let rise := if fits then min (up * 1000) (min k w.pens.length * watts * 1000 / p) else up * 1000
    let next := { w with pens := rest, left := left }
    if s.gov.levelMw < s.modelledNow + rise then
      if w.pens.isEmpty then s
      else { s with gov := { s.gov with waiting := s.gov.waiting.map fun x => if x = w then { w with left := 0 } else x } }
    else
    let s := { s with gov := { s.gov with
      risenMw := s.gov.risenMw + rise,
      waiting := if excess then s.gov.waiting.filter (· ≠ w) else s.gov.waiting.map fun x => if x = w then next else x } }
    s.modEntry e.id fun e => { e with
      rampSlots := e.rampSlots ++ [s.gov.windowAt], released := e.released || excess,
      pensReleased := if left ≠ 0 then e.pensReleased else e.pensReleased ++ w.pens.take k }

/-- An entry that was released, none of whose items has started, and that the window of its slot is over for and the envelope no longer
fits: its first item requests slots anew (R73). -/
def State.lapsed (s : State) (e : Entry) : Bool :=
  e.released && !e.started && !e.pinned && e.status.isNone && !(s.riseGranted e) && !(s.powerFits e.id)

/-- The request of an entry whose grant has lapsed: of a launch's pens here, of a transfer when its record asks (R73, R74). -/
def State.askAgain (s : State) (e : Entry) : State :=
  let s := s.modEntry e.id fun e => { e with released := false, pensReleased := [], rampSlots := [] }
  match e.op with
  | some (.launch r, _) => s.askSlots e r.pensInTurn
  | _ => s

/-- Every grant that has lapsed is asked for again. -/
def State.renewSlots (s : State) : State := (s.entries.filter s.lapsed).foldl State.askAgain s

/-- The slot of a window goes to the pinned entry it is reserved for, or to a waiting launch (R74, R76). -/
def State.giveSlot (s : State) : State :=
  match s.gov.reserved.find? (·.1 = s.gov.windowAt) with
  | some r =>
    { s with gov := { s.gov with risenMw := s.gov.board.rampUp * 1000 } }.modEntry r.2 fun e =>
      { e with released := e.rampSlots.all fun b => decide (b ≤ s.beat) }
  | none =>
    match s.slotTaker with
    | some w => s.grantSlot w
    | none => s

/-- The envelope of a window is set from modelled power at its first beat (R73). -/
def State.openWindow (s : State) : State :=
  let p := s.modelledNow
  let g := s.gov
  { s with
    gov := { g with windowAt := s.beat / g.board.window * g.board.window, windowStartMw := p, risenMw := 0,
                    ceilingDw := { g with windowStartMw := p }.ceiling,
                    reserved := g.reserved.filter fun r => decide (s.beat / g.board.window * g.board.window ≤ r.1) },
    yards := Vector.ofFn fun (y : Fin 8) => { s.yards[y] with startMw := s.yardMw y.val (fun _ => true) + s.yards[y].ballastMw } }

/-- A new window is due. -/
def State.windowDue (s : State) : Bool :=
  s.boot.state == 0x0A && decide (s.gov.board.window ≠ 0 ∧ s.gov.windowAt + s.gov.board.window ≤ s.beat)

/-- GOVERNOR_WINDOW_START (R74, R77). -/
def execGovernorWindowStart (s : State) : Result :=
  if s.windowDue then .next s.openWindow.punish.giveSlot.renewSlots.settleBallast else .next s

end Sys2Proof.Machine
end

