-- ==== Sys2Proof/Machine/Hash.lean ====
section
/-! DEFINITION. SHAKE256 (FIPS 202), by which the manual defines prefix digests (R152) and measurements (R33). PRESUMED: the
function is that of the standard (PRESUMED, log 15). -/

namespace Sys2Proof.Machine

/-- One bit of the round-constant sequence: the linear feedback shift register of FIPS 202. -/
def rcStep (r : Nat) : Nat := if r % 256 < 128 then 2 * r % 256 else (2 * r % 256) ^^^ 0x71

/-- The register after `n` steps. -/
def rcState : Nat → Nat
  | 0 => 1
  | n + 1 => rcStep (rcState n)

/-- The round constant of round `i`: bit 2^j - 1 is bit 0 of the register after 7 i + j steps. -/
def roundConst (i : Nat) : W64 :=
  BitVec.ofNat 64 (((List.range 7).map fun j => rcState (7 * i + j) % 2 * 2 ^ (2 ^ j - 1)).foldl (· + ·) 0)

/-- Rotation counts of the lanes, at x + 5 y. -/
def rotCounts : List Nat :=
  [0, 1, 62, 28, 27, 36, 44, 6, 55, 20, 3, 10, 43, 25, 39, 41, 45, 15, 21, 8, 18, 2, 61, 56, 14]

/-- Lane (x, y) of the sponge state, coordinates taken modulo 5. -/
def sponge (a : Array W64) (x y : Nat) : W64 := a.getD (x % 5 + 5 * (y % 5)) 0

/-- A sponge state from its lanes. -/
def spongeOf (f : Nat → Nat → W64) : Array W64 := ((List.range 25).map fun i => f (i % 5) (i / 5)).toArray

/-- θ: every lane takes the parities of two columns. -/
def keccakTheta (a : Array W64) : Array W64 :=
  let c := ((List.range 5).map fun x => sponge a x 0 ^^^ sponge a x 1 ^^^ sponge a x 2 ^^^ sponge a x 3 ^^^ sponge a x 4).toArray
  spongeOf fun x y => sponge a x y ^^^ c.getD ((x + 4) % 5) 0 ^^^ (c.getD ((x + 1) % 5) 0).rotateLeft 1

/-- ρ and π: lanes rotated, and moved from (x, y) to (y, 2x + 3y). -/
def keccakRhoPi (a : Array W64) : Array W64 :=
  spongeOf fun x y => (sponge a (x + 3 * y) x).rotateLeft (rotCounts.getD ((x + 3 * y) % 5 + 5 * x) 0)

/-- χ: each lane with the two after it in its row. -/
def keccakChi (a : Array W64) : Array W64 :=
  spongeOf fun x y => sponge a x y ^^^ (~~~(sponge a (x + 1) y) &&& sponge a (x + 2) y)

/-- One round of Keccak-f[1600]. -/
def keccakRound (a : Array W64) (i : Nat) : Array W64 :=
  let b := keccakChi (keccakRhoPi (keccakTheta a))
  b.set! 0 (b.getD 0 0 ^^^ roundConst i)

/-- Keccak-f[1600]: 24 rounds. -/
def keccakF (a : Array W64) : Array W64 := (List.range 24).foldl keccakRound a

/-- Bytes of a rate block of SHAKE256. -/
def shakeRate : Nat := 136

/-- A rate block taken into the state. -/
def absorbBlock (a : Array W64) (bs : List Byte) : Array W64 :=
  keccakF (spongeOf fun x y =>
    let i := x + 5 * y
    if i < 17 then sponge a x y ^^^ BitVec.ofNat 64 (numAt bs (8 * i) 8) else sponge a x y)

/-- Every whole block of a padded message taken in. -/
def absorb : Nat → Array W64 → List Byte → Array W64
  | 0, a, _ => a
  | n + 1, a, bs => absorb n (absorbBlock a (bs.take shakeRate)) (bs.drop shakeRate)

/-- The message padded to whole blocks: 1111 and the multi-rate padding of FIPS 202. -/
def shakePad (bs : List Byte) : List Byte :=
  let room := shakeRate - bs.length % shakeRate
  if room = 1 then bs ++ [0x9F] else bs ++ [0x1F] ++ List.replicate (room - 2) 0 ++ [0x80]

/-- The first `n` bytes of SHAKE256, for n up to one rate block (PRESUMED, log 15). -/
def shake256 (bs : List Byte) (n : Nat) : List Byte :=
  let m := shakePad bs
  let a := absorb (m.length / shakeRate) (spongeOf fun _ _ => 0) m
  ((List.range 17).flatMap fun i => toBytes 8 (a.getD i 0).toNat).take n

end Sys2Proof.Machine
end

