-- ==== Sys2Proof/Machine/Sign.lean ====
section
/-! DEFINITION. The verification of an SLH-DSA-SHAKE-256s signature (FIPS 205), in its pure form with an empty context string (R1, R32).
PRESUMED: the function is that of the standard (PRESUMED, log 15). -/

namespace Sys2Proof.Machine

/-! ### Parameters of SLH-DSA-SHAKE-256s -/

/-- Bytes of a node. -/
def slhN : Nat := 32
/-- Layers of the hypertree, and the height of each of its trees. -/
def slhD : Nat := 8
def slhHp : Nat := 8
/-- Height of a FORS tree, and the number of them. -/
def slhA : Nat := 14
def slhK : Nat := 22
/-- Chains of a one-time signature: 64 of the message, 3 of the checksum; each has 16 values. -/
def slhLen : Nat := 67
/-- Bytes of the message digest. -/
def slhM : Nat := 47

/-! ### Addresses and hashes -/

/-- A number in big-endian bytes. -/
def bigEndian (n x : Nat) : List Byte := (toBytes n x).reverse

/-- The number in some big-endian bytes. -/
def ofBigEndian (bs : List Byte) : Nat := fromBytes bs.reverse

/-- An address: layer, tree, type and its three words. -/
structure SlhAddr where
  layer : Nat := 0
  tree : Nat
  kind : Nat
  pair : Nat := 0
  mid : Nat := 0
  last : Nat := 0
  deriving DecidableEq, Repr

/-- The 32 bytes of an address. -/
def SlhAddr.bytes (a : SlhAddr) : List Byte :=
  bigEndian 4 a.layer ++ bigEndian 12 a.tree ++ bigEndian 4 a.kind ++ bigEndian 4 a.pair ++ bigEndian 4 a.mid ++ bigEndian 4 a.last

/-- The hash of some nodes at an address: F, H and T of the standard. -/
def slhHash (seed : List Byte) (a : SlhAddr) (m : List Byte) : List Byte := shake256 (seed ++ a.bytes ++ m) slhN

/-- Digits of `b` bits from the first bit of some bytes. -/
def slhDigits (b n : Nat) (bs : List Byte) : List Nat :=
  (List.range n).map fun i => fld (ofBigEndian bs) (8 * bs.length - b * (i + 1)) b

/-! ### Trees -/

/-- The root of a tree from a node at `index` and height `h`, and the nodes beside its path. -/
def slhClimb (seed : List Byte) (a : SlhAddr) : Nat → Nat → List Byte → List (List Byte) → List Byte
  | _, _, node, [] => node
  | h, index, node, beside :: rest =>
    let at_ := { a with mid := h + 1, last := index / 2 }
    slhClimb seed a (h + 1) (index / 2) (slhHash seed at_ (if index % 2 = 0 then node ++ beside else beside ++ node)) rest

/-- `n` steps of a chain from step `i`. -/
def slhChain (seed : List Byte) (a : SlhAddr) : Nat → Nat → List Byte → List Byte
  | 0, _, x => x
  | n + 1, i, x => slhChain seed a n (i + 1) (slhHash seed { a with last := i } x)

/-- The digits that a one-time signature of a node signs: those of the node, then those of their checksum. -/
def slhSigned (node : List Byte) : List Nat :=
  let ds := slhDigits 4 64 node
  ds ++ slhDigits 4 3 (bigEndian 2 (16 * (ds.map fun d => 15 - d).foldl (· + ·) 0))

/-- The public key that a one-time signature of a node gives. -/
def slhOneTime (seed : List Byte) (a : SlhAddr) (sig : List (List Byte)) (node : List Byte) : List Byte :=
  let ends := ((slhSigned node).zip sig).zipIdx.flatMap fun x => slhChain seed { a with mid := x.2 } (15 - x.1.1) x.1.1 x.1.2
  slhHash seed { a with kind := 1 } ends

/-- The root of the hypertree that signatures of a node give, layer by layer. -/
def slhHyper (seed : List Byte) : Nat → Nat → Nat → Nat → List (List Byte) → List Byte → List Byte
  | 0, _, _, _, _, node => node
  | n + 1, layer, tree, leaf, sigs, node =>
    let a : SlhAddr := { layer := layer, tree := tree, kind := 0, pair := leaf }
    let pk := slhOneTime seed a (sigs.take slhLen) node
    let root := slhClimb seed { layer := layer, tree := tree, kind := 2 } 0 leaf pk ((sigs.drop slhLen).take slhHp)
    slhHyper seed n (layer + 1) (tree / 2 ^ slhHp) (tree % 2 ^ slhHp) (sigs.drop (slhLen + slhHp)) root

/-- The key that the FORS part of a signature gives for a digest. -/
def slhFors (seed : List Byte) (a : SlhAddr) (sigs : List (List Byte)) (digits : List Nat) : List Byte :=
  let roots := digits.zipIdx.flatMap fun x =>
    let index := x.2 * 2 ^ slhA + x.1
    let part := (sigs.drop (x.2 * (slhA + 1))).take (slhA + 1)
    slhClimb seed a 0 index (slhHash seed { a with last := index } (part.headD [])) part.tail
  slhHash seed { a with kind := 4 } roots

/-- A signature of a message verifies under a key (R32): the pure form, whose message is preceded by two zero bytes where the context
string is empty. -/
def slhVerifies (key message sig : List Byte) : Bool :=
  let seed := key.take slhN
  let nodes := chunks slhN sig
  let digest := shake256 (sig.take slhN ++ key ++ [0, 0] ++ message) slhM
  let tree := ofBigEndian ((digest.drop 39).take 7)
  let leaf := ofBigEndian (digest.drop 46)
  let fors := slhFors seed { tree := tree, kind := 3, pair := leaf } (nodes.drop 1) (slhDigits slhA slhK (digest.take 39))
  sig.length == 29792 && key.length == 64
    && slhHyper seed slhD 0 tree leaf (nodes.drop (1 + slhK * (slhA + 1))) fors == key.drop slhN

end Sys2Proof.Machine
end

