-- ==== Sys2Proof/Machine/Boot.lean ====
section
/-! DEFINITION. Starts: their triggers (R25, R26), steps (R27-R33), features (R36), the mailbox (R34), the resynchronisation
summary (R37) and the SPDM report (R33). -/

namespace Sys2Proof.Machine

/-! ### States of a start (R27-R31) -/

def stReady : Nat := 0x0A
def stRecovery : Nat := 0xE0
def stFailed : Nat := 0xF0
def stColdOnly : Nat := 0xF1

/-- The device with everything that a start clears at its reset value: what survives is the world outside, the link itself,
the boot state given, the board limits and the memory given (R26, R27; DEDUCED, log 48). -/
def State.cleared (s : State) (b : Boot) (board : BoardPwr) (mem : Memory) : State :=
  { State.reset with
    beat := s.beat, boot := b, env := s.env, mem := mem, subj := s.subj, agenda := s.agenda, fresh := s.fresh,
    link := { trained := s.link.trained, lanes := s.link.lanes, rate := s.link.rate, flit := s.link.flit, msix := s.link.msix },
    gov := { board := board } }

/-- The boot state when a start begins at step 0x01; counts, digests and the retention flag stay (R25, R30, R33). -/
def Boot.begin (b : Boot) (warm : Bool) (beat : Nat) : Boot :=
  { state := 1, lastFail := b.lastFail, warm := warm, failCount := b.failCount, detail := b.detail, retained := b.retained,
    retainedDigest := b.retainedDigest, memoryUp := warm && b.memoryUp, stepAt := beat }

/-- A cold start begins (R25). -/
def State.startCold (s : State) : State := s.cleared (s.boot.begin false s.beat) {} []

/-- Package memory as a warm start keeps it: every waiting write drained, every staging region scrubbed, the loft lost
(R26). Every range of a nonzero CTX_STAGE_LEN is scrubbed, that of a context that is not LIVE too (DESIGN CHOICE, log 86: R26 says "staging
regions", R86 speaks of those of live contexts). -/
def State.retainedMemory (s : State) : Memory :=
  let staged := s.ctxs.toList.filter fun c => c.stageLen ≠ 0
  let m := staged.foldl (fun m c => Memory.clear m c.stageBase c.stageLen) (s.flush fun _ => true).mem
  m.filter fun c => decide (c.1 < Config.packageBytes)

/-- A warm start is requested: memory enters self-refresh, which sets the retention flag when every channel did so cleanly; a
request without retained memory runs as a cold start (R25, R26). -/
def State.startWarm (s : State) : State :=
  let kept := s.boot.memoryUp && s.env.refreshClean
  let b := { s.boot with retained := kept }
  if kept then s.cleared (b.begin true s.beat) s.gov.board s.retainedMemory else { s with boot := b }.startCold

/-- A start is running: steps 0x01 to 0x09. -/
def Boot.starting (b : Boot) : Bool := decide (1 ≤ b.state ∧ b.state ≤ 9)

/-- A warm start request acts: not during a start, not once FAIL_COUNT has reached 3, and not while the clocks stand (R24, R25, R30;
DEDUCED, log 47). A
Function Level Reset during a start requests nothing either (DESIGN CHOICE, log 84). -/
def State.warmRequest (s : State) : State :=
  if s.boot.starting || decide (3 ≤ s.boot.failCount) || s.gov.stopped then s else s.startWarm

/-- A write to BOOT_CTL (R25, Table 2.1). -/
def State.writeBootCtl (s : State) (v : Nat) : State :=
  if fld v 16 16 ≠ 0x4B59 then s
  else if fld v 0 2 = 1 then s.startCold
  else if fld v 0 2 = 2 then s.warmRequest
  else s

/-- BOOT_CTL_COLD_START (R25). -/
def execBootCtlColdStart (key : BitVec 16) (s : State) : Result := hostWrite s (s.writeBootCtl (2 ^ 16 * key.toNat + 1))

/-- BOOT_CTL_WARM_START (R25, R26). -/
def execBootCtlWarmStart (key : BitVec 16) (s : State) : Result := hostWrite s (s.writeBootCtl (2 ^ 16 * key.toNat + 2))

/-- POWER_ON (R25, R30): FAIL_COUNT is cleared and a cold start begins. -/
def execPowerOn (s : State) : Result := .next { s with boot := { s.boot with failCount := 0 } }.startCold

/-- POWER_LOSS (R25): the device loses everything, the always-on retention flag with it. -/
def execPowerLoss (s : State) : Result := .next { State.reset with env := s.env, subj := s.subj, agenda := s.agenda, fresh := s.fresh }

/-- PCIE_FUNDAMENTAL_RESET (R25): a cold start, with the link to be trained anew. -/
def execPcieFundamentalReset (s : State) : Result :=
  let t := s.startCold
  .next { t with link := { t.link with trained := false } }

/-- The configuration state of the PCIe function as it is reset: the TDI unlocked, no session, no binding, no key. -/
def State.resetFunction (s : State) : State :=
  let s := s.clearBindings
  { s with link := { s.link with tdi := .unlocked, session := false, waiting := [], reads := [] } }

/-- FUNCTION_LEVEL_RESET (R25, R30): the function's configuration state is reset, and a warm start requested. -/
def execFunctionLevelReset (s : State) : Result := .next s.resetFunction.warmRequest

/-! ### Steps (R27, R29, R30) -/

/-- A step of the start begins. -/
def State.enterStep (s : State) (n : Nat) : State := { s with boot := { s.boot with state := n, stepAt := s.beat } }

/-- A start fails with a code of Table 2.4 (R29-R31). -/
def State.failStart (s : State) (code detail : Nat) (recovery : Bool) : State :=
  let b := { s.boot with lastFail := code, detail := detail }
  if recovery then { s with boot := { b with state := stRecovery, image := none } }
  else
    let n := min (b.failCount + 1) 15
    { s with boot := { b with failCount := n, state := if 3 ≤ n then stColdOnly else stFailed } }

/-- BOOT_ROM_SELF_CHECK (R27, R9, R36): the beat counter is cleared, with all that starts clear; DRV_FEAT and a remembered commit
were cleared as the step began, and what the host has written since is kept. -/
def execBootRomSelfCheck (s : State) : Result :=
  if s.boot.state ≠ 1 then .next s
  else
    let t := { s.cleared (s.boot.begin s.boot.warm 0) s.gov.board s.mem with beat := 0 }
    let t := { t with boot := { t.boot with memoryUp := s.boot.memoryUp, drvFeat := s.boot.drvFeat, commit := s.boot.commit } }
    .next (if s.env.romFails then t.failStart 0x01 0 false else t.enterStep (if s.boot.warm then 3 else 2))

/-- A field of the board limits block: zero selects the default, any other value is clamped (R23, R28). -/
def boardField (default lo hi x : Nat) : Nat := if x = 0 then default else max lo (min hi x)

/-- The block as it is loaded, or the fallback values (R23, R28). -/
def boardOf (block : Option (List Byte)) : BoardPwr :=
  let fallback : BoardPwr := { window := 5200, peak := 200, sustain := 150, rampUp := 5, rampDown := 5, fallback := true }
  match block with
  | none => fallback
  | some bs =>
    if numAt bs 0 4 = 0x4B59424C ∧ numAt bs 4 2 = 1 ∧ numAt bs 6 2 = 32 ∧ numAt bs 0x10 12 = 0 ∧ numAt bs 0x1C 4 = crc32c (bs.take 28)
    then
      let peak := boardField 300 0 300 (numAt bs 8 2)
      { peak := peak, sustain := min (boardField 220 0 220 (numAt bs 0x0A 2)) peak, window := boardField 5200 1300 26000 (numAt bs 0x0C 2),
        rampUp := boardField 15 1 255 (numAt bs 0x0E 1), rampDown := boardField 15 1 255 (numAt bs 0x0F 1), fallback := false }
    else fallback

/-- READ_BOARD_LIMITS (R23, R28). -/
def execReadBoardLimits (s : State) : Result :=
  if s.boot.state ≠ 2 then .next s else .next ({ s with gov := { s.gov with board := boardOf s.env.eeprom } }.enterStep 3)

/-- A mailbox command completes: its status, and MSI-X vector 0 (R34). -/
def State.mailboxDone (s : State) (status : Nat) : State := { s with boot := { s.boot with mbStatus := status } }.sendMsix 0

/-- The header of an image is one that R32 accepts for a length. -/
def imageHeaderOk (bs : List Byte) (len : Nat) : Bool :=
  let n := numAt bs 8 4
  numAt bs 0 4 == 0x4B59494D && numAt bs 4 2 == 1 && numAt bs 6 2 == 0 && decide (64 ≤ n ∧ n ≤ 16777216) && n % 64 == 0
    && numAt bs 0x10 48 == 0 && len == n + 29920

/-- LOAD_IMAGE: the image that the mailbox names is read and its format checked (R31, R32). It is taken at step 0x03 and in
recovery; elsewhere it is a bad command (DESIGN CHOICE, log 18). The command has completed, with status 2, once the image is read: what step
0x04 finds does not change it (DESIGN CHOICE, log 84). The header is read and its format judged before the body is read, so IMAGE_FORMAT
comes before an IMAGE_READ of the body (DESIGN CHOICE, log 86). -/
def State.loadImage (s : State) : State :=
  let a := s.boot.mbArg0.toNat
  let n := s.boot.mbArg1.toNat
  if s.boot.mbStatus = 1 then s
  else if s.boot.state ≠ 3 && s.boot.state ≠ stRecovery then s.mailboxDone 3
  else if s.busError a 64 then (s.failStart 0x03 0 true).mailboxDone 5
  else if !(imageHeaderOk (s.readBus a 64) n) then (s.failStart 0x02 0 true).mailboxDone 4
  else if s.busError a n then (s.failStart 0x03 0 true).mailboxDone 5
  else ({ s with boot := { s.boot with image := some (s.readBus a n) } }.enterStep 4).mailboxDone 2

/-- LOAD_IMAGE (R32). -/
def execLoadImage (s : State) : Result := hostWrite s s.loadImage

/-- The 512-bit SHAKE256 digest of some bytes (R33). -/
def imageDigest (bs : List Byte) : BitVec 512 := BitVec.ofNat 512 (fromBytes (shake256 bs 64))

/-- MEASURE_IMAGE (R32, R33): the measurement, the key on every start, the signature where it must be verified, and the version. The fused
digest of the key has 512 bits, and an image that its version rejects does not become the retained measurement (DESIGN CHOICE, log 84). An
image with a bad signature and a version below the minimum is rejected with SIG_FAIL (DESIGN CHOICE, log 86). -/
def execMeasureImage (s : State) : Result :=
  match s.boot.image with
  | none => .next s
  | some bs =>
    if s.boot.state ≠ 4 then .next s
    else
      let n := numAt bs 8 4
      let signed := bs.take (64 + n)
      let key := (bs.drop (64 + n)).take 64
      let m := imageDigest signed
      let needed := !s.boot.warm || s.boot.retainedDigest != some m
      let s := { s with boot := { s.boot with digest := some m } }
      if imageDigest key != Config.fusedKeyDigest || needed && !(slhVerifies key signed (bs.drop (128 + n))) then
        .next (s.failStart 0x04 0 true)
      else if numAt bs 0x0C 4 < Config.minimumSvn then .next (s.failStart 0x05 (numAt bs 0x0C 4) true)
      else
        .next ({ s with boot := { s.boot with retainedDigest := some m, image := none } }.enterStep
          (if s.boot.warm then 6 else 5))

/-- TRAIN_CHANNELS (R27). -/
def execTrainChannels (s : State) : Result :=
  if s.boot.state ≠ 5 then .next s
  else
    match s.env.trainFails with
    | some c => .next (s.failStart 0x06 c false)
    | none => .next ({ s with boot := { s.boot with memoryUp := true } }.enterStep 6)

/-- BGU_SELF_TEST (R27): a unit that fails is named, as failing the words or the residue check; the memory that the test used
is restored. The errors that the test injects leave no trace in POISON_EVENTS, the rings or the error log (DESIGN CHOICE, log 84). -/
def execBguSelfTest (s : State) : Result :=
  if s.boot.state ≠ 6 then .next s
  else
    match s.env.selfTestFails with
    | some (n, residue) => .next (s.failStart (if residue then 0x08 else 0x07) n false)
    | none => .next (s.enterStep 7)

/-- CLEAR_LOFT (R27): every loft byte reads zero. -/
def execClearLoft (s : State) : Result :=
  if s.boot.state ≠ 7 then .next s
  else
    match s.env.loftFails with
    | some y => .next (s.failStart 0x09 y false)
    | none => .next ({ s with mem := Memory.clear s.mem Config.loftBase 0x8000000 }.enterStep 8)

/-- CALIBRATE_LOAD_MODEL (R22, R27). -/
def execCalibrateLoadModel (s : State) : Result :=
  if s.boot.state ≠ 8 then .next s
  else if s.env.calibrationFails then .next (s.failStart 0x0A 0 false)
  else .next ({ s with gov := { s.gov with calibration := Config.calibration } }.enterStep 9)

/-- DEV_FEAT (R36, Table 2.6). -/
def devFeat (n : Nat) : W64 := if n = 0 then Config.devFeat0 else 0

/-- The commit: the accepted features are latched, the device is READY, and the governor opens its first window (R30, R36, R73). -/
def State.commitFeatures (s : State) : State :=
  let acc := Vector.ofFn fun (i : Fin 4) => s.boot.drvFeat[i] &&& devFeat i.val
  ({ s with boot := { s.boot with accFeat := acc, committed := true, commit := false, failCount := 0 } }.enterStep stReady).openWindow

/-- FEATURE_NEGOTIATION (R36): step 0x09 begins, and a commit made before acts. -/
def execFeatureNegotiation (s : State) : Result :=
  if s.boot.state = 9 && s.boot.commit then .next s.commitFeatures else .next s

/-- A write of 1 to FEAT_COMMIT (R36). -/
def State.writeCommit (s : State) (v : Nat) : State :=
  let b := s.boot
  if !(nbit v 0) || b.committed || b.state == stRecovery || b.state == stFailed || b.state == stColdOnly then s
  else if b.state = 9 then s.commitFeatures
  else { s with boot := { b with commit := true } }

/-- FEAT_COMMIT (R36). -/
def execFeatCommit (v : BitVec 64) (s : State) : Result := hostWrite s (s.writeCommit v.toNat)

/-- Bound of a step in beats, for the steps that have one (Table 2.2). -/
def stepBound (n : Nat) : Option Nat :=
  match n with
  | 1 => some 5200000
  | 2 => some 13000000
  | 4 => some 520000000
  | 5 => some 1040000000
  | 6 => some 52000000
  | 7 => some 2600000
  | 8 => some 26000000
  | _ => none

/-- The current step has exceeded its bound. -/
def State.stepLate (s : State) : Bool := (stepBound s.boot.state).any fun b => decide (s.boot.stepAt + b < s.beat)

/-- STEP_TIMEOUT (R27, R29). -/
def execStepTimeout (s : State) : Result := if s.stepLate then .next (s.failStart 0x0B s.boot.state false) else .next s

/-- MAILBOX_BAD_COMMAND (R34, Table 2.5): any value but 1 and 2. -/
def execMailboxBadCommand (cmd : BitVec 64) (s : State) : Result :=
  if cmd = 1 || cmd = 2 then .next s else hostWrite s (if s.boot.mbStatus = 1 then s else s.mailboxDone 3)

/-! ### The summary (R37) -/

/-- BOOT_STATUS (Table 2.3). -/
def Boot.word (b : Boot) : Nat :=
  b.state % 256 + 2 ^ 8 * (b.lastFail % 256) + 2 ^ 16 * bit b.warm + 2 ^ 20 * (b.failCount % 16) + 2 ^ 32 * (b.detail % 2 ^ 32)

/-- BOARD_PWR (Table 1.4). -/
def BoardPwr.word (b : BoardPwr) : Nat :=
  bit b.fallback + 2 ^ 12 * (b.rampDown % 256) + 2 ^ 20 * (b.rampUp % 256) + 2 ^ 28 * (b.sustain % 1024) + 2 ^ 38 * (b.peak % 1024)
    + 2 ^ 48 * (b.window % 2 ^ 15)

/-- An error record, 16 bytes (R37). -/
def ErrRec.bytes (e : ErrRec) : List Byte :=
  toBytes 1 e.code ++ toBytes 1 e.unitKind ++ toBytes 2 e.unitIndex ++ toBytes 4 e.entry ++ toBytes 8 e.beat

/-- A context's byte of the summary: live, its process halted, bound (R37). -/
def State.contextByte (s : State) (i : Nat) : Nat :=
  let c := s.ctxAt i
  bit c.live + 2 * bit (s.queues.any fun q => q.2.ctx == i && (q.2.halt || q.2.contained)) + 4 * bit c.bound

/-- A queue's triple (R37). -/
def WorkQueue.triple (q : WorkQueue) : Nat :=
  q.head % 2 ^ 11 + 2 ^ 11 * (q.tail % 2 ^ 11) + 2 ^ 22 * bit (q.halt || q.contained) + 2 ^ 23 * bit q.enable

/-- Bytes filled with zeros to a length. -/
def padTo (n : Nat) (bs : List Byte) : List Byte := (bs ++ List.replicate (n - bs.length) 0).take n

/-- Ballast beats of all yards. -/
def State.ballastBeats (s : State) : Nat := (s.yards.toList.map (·.ballast)).foldl (· + ·) 0

/-- Beat of the next ramp slot: the next window's first beat; 0 where no window is open (R74; DESIGN CHOICE, log 84). -/
def State.nextSlot (s : State) : Nat := if s.boot.state = stReady then s.gov.windowAt + s.gov.board.window else 0

/-- The summary of Table 2.7; its queue, semaphore and context areas read zero in 0xE0, 0xF0 and 0xF1. The launches that wait for ramp slots
are the requests that wait at the governor, those of COPY and INGEST records among them, and not a pinned launch that waits for its
reserved slots (DESIGN CHOICE, log 87). -/
def State.summary (s : State) : List Byte :=
  let off := decide (stRecovery ≤ s.boot.state)
  let area := fun n (bs : List Byte) => if off then List.replicate n 0 else bs
  toBytes 4 0x4B595359 ++ toBytes 2 1 ++ toBytes 2 0 ++ toBytes 8 s.boot.word ++ toBytes 8 s.beat ++ toBytes 4 s.boot.seq
    ++ toBytes 4 s.errorCount ++ toBytes 4 s.eccCount ++ List.replicate 28 0
    ++ s.boot.accFeat.toList.flatMap (fun f => toBytes 8 f.toNat) ++ toBytes 8 s.gov.board.word
    ++ toBytes 2 (s.modelledNow / 100) ++ toBytes 2 s.gov.budgetDw ++ toBytes 2 (wrap 16 s.gov.temperature) ++ toBytes 1 s.gov.clockStep
    ++ toBytes 1 (min s.gov.waiting.length 255) ++ toBytes 8 s.nextSlot ++ toBytes 8 s.ballastBeats
    ++ area 64 ((List.range 64).flatMap fun i => toBytes 1 (s.contextByte i))
    ++ toBytes 4 s.entries.length ++ padTo 60 (s.entries.flatMap fun e => toBytes 4 e.id)
    ++ padTo 256 ((s.errors.take 16).flatMap ErrRec.bytes)
    ++ area 512 (s.sems.toList.flatMap fun x => toBytes 2 x.count)
    ++ area 3072 ((List.range 1024).flatMap fun n => toBytes 3 (s.queue n).triple)

/-- RESYNC: the summary is captured and written on one beat (R34, R37). It is taken from step 0x09 on; before that it is a bad
command (log 18; DEDUCED, log 49). SEQ counts a summary whose write completes with an error status too (DESIGN CHOICE, log 87). -/
def State.resync (s : State) : State :=
  let a := s.boot.mbArg0.toNat
  if s.boot.mbStatus = 1 then s
  else if s.boot.state < 9 then s.mailboxDone 3
  else if a % 4096 ≠ 0 then s.mailboxDone 4
  else
    let s := { s with boot := { s.boot with seq := s.boot.seq + 1 } }
    if s.busError a 4096 then s.mailboxDone 5 else (s.writeBus a s.summary).mailboxDone 2

/-- RESYNC (R37). -/
def execResync (s : State) : Result := hostWrite s s.resync

/-- SPDM_MEASUREMENT_REPORT (R33): the measurement, the device certificate and the accepted features, signed, one after the other; the
measurement reads zero before step 0x04 has made it (DESIGN CHOICE, log 84). -/
def execSpdmMeasurementReport (s : State) : Result :=
  let report := toBytes 64 (s.boot.digest.getD 0).toNat ++ Config.deviceCertificate ++ s.boot.accFeat.toList.flatMap (fun f => toBytes 8 f.toNat)
  .next { s with link := { s.link with reply := .data (report ++ Config.deviceSignature report) } }

end Sys2Proof.Machine
end

