-- ==== Sys2Proof/Machine/HostIf.lean ====
section
/-! DEFINITION. What the host and its peers reach: the linear window (R18, R19), the register window (R17), the context
registers (R85, R87, R99), SEM_ASSIGN (R298), page walks asked for on their own (R83), and the link's training (R14). -/

namespace Sys2Proof.Machine

/-! ### Answers -/

/-- A request is answered with data. -/
def State.replyBytes (s : State) (bs : List Byte) : State := { s with link := { s.link with reply := .data bs } }

/-- A request is completed with Unsupported Request. -/
def State.unsupported (s : State) : State := { s with link := { s.link with reply := .unsupported } }

/-! ### The linear window (R18, R19) -/

/-- The request lies beyond the bound, or is treated as though it did because a byte of it lies in a staging region
(R18). -/
def State.beyond (s : State) (off len : Nat) : Bool :=
  decide (Config.packageBytes < off + len) || decide (Config.packageBytes ≤ off) || s.foreignStage 64 off len

/-- A request of the linear window that reads a bank in refresh waits for its end (R13). -/
def State.orWindow (t s : State) (i : Instr) : State :=
  if t.unserved then { s with link := { s.link with reads := s.link.reads ++ [i] } } else t

/-- A read of the linear window (R18); its columns are fetched (R12). -/
def State.windowRead (s : State) (src : Requester) (off len : Nat) : State :=
  if s.refuses src then s.logRefused.unsupported
  else if s.beyond off len then s.unsupported
  else (s.ordinaryRead (upFrom off len)).replyBytes (s.readBytes off len)

/-- LINEAR_WINDOW_READ (R18). -/
def execLinearWindowRead (src : Requester) (off len : Nat) (s : State) : Result :=
  .next ((s.windowRead src off len).orWindow s (.linearWindowRead src off len))

/-- A posted write to the linear window (R18): dropped and logged where it is refused. It is performed at package scope before any later
request of the link (R117). -/
def State.windowWrite (s : State) (off : Nat) (bs : List Byte) : State :=
  if s.beyond off bs.length then s.logRefused else ((s.logHeld (upFrom off bs.length) 8 0 0).writeBytes off bs).drainWrites

/-- LINEAR_WINDOW_WRITE (R18). -/
def execLinearWindowWrite (src : Requester) (off : Nat) (data : List Byte) (s : State) : Result :=
  .next (if s.refuses src then s.logRefused else s.windowWrite off data)

/-- The new value of a PCIe AtomicOp: FetchAdd, Swap or CAS with the compare value first (R19). -/
def pcieNew (op : PcieAtomic) (size old v1 v2 : Nat) : Nat :=
  match op with
  | .fetchAdd => (old + v1) % 2 ^ (8 * size)
  | .swap => v1 % 2 ^ (8 * size)
  | .cas => if old = v1 % 2 ^ (8 * size) then v2 % 2 ^ (8 * size) else old

/-- An AtomicOp of 4 or 8 bytes on a naturally aligned address of the linear window; it answers the old value (R19). -/
def State.windowAtomic (s : State) (src : Requester) (op : PcieAtomic) (off size : Nat) (v1 v2 : BitVec 64) : State :=
  if s.refuses src then s.logRefused.unsupported
  else if (size ≠ 4 && size ≠ 8) || off % size ≠ 0 || s.beyond off size then s.unsupported
  else
    let old := s.readNum off size
    let s := s.ordinaryRead (upFrom off size)
    ((s.logHeld (upFrom off size) 8 0 0).writeBytes off (toBytes size (pcieNew op size old v1.toNat v2.toNat))).drainWrites.replyBytes
      (toBytes size old)

/-- LINEAR_WINDOW_ATOMICOP (R19). -/
def execLinearWindowAtomicop (src : Requester) (op : PcieAtomic) (off size : Nat) (v1 v2 : BitVec 64) (s : State) : Result :=
  .next ((s.windowAtomic src op off size v1 v2).orWindow s (.linearWindowAtomicop src op off size v1 v2))

/-- Requests of the window that waited for a refresh are made again, in order (R13, R117). -/
def State.settleReads (s : State) : State :=
  s.link.reads.foldl (fun s i =>
    let t := { s with served := 0 }
    match i with
    | .linearWindowRead src off len => (t.windowRead src off len).orWindow t i
    | .linearWindowAtomicop src op off size v1 v2 => (t.windowAtomic src op off size v1 v2).orWindow t i
    | _ => s) { s with link := { s.link with reads := [] } }

/-! ### Context registers (R85, R87) -/

/-- CTX_ROOT (Table 5.3). -/
def Context.rootWord (c : Context) : Nat := bit c.live + 2 * c.dlclass.toNat + c.root / 2 ^ 21 * 2 ^ 21

/-- A write that clears LIVE is ignored while an enabled queue names the context (R85). -/
def State.mayClearLive (s : State) (c : Nat) : Bool := !(s.queues.any fun q => q.2.enable && q.2.ctx == c)

/-- A context after a write to CTX_ROOT: while LIVE is 1, LIVE alone changes (R85). -/
def State.newRoot (s : State) (c v : Nat) : Context :=
  let x := s.ctxAt c
  if x.live then { x with live := nbit v 0 || !(s.mayClearLive c) }
  else { x with root := fld v 21 27 * 2 ^ 21, dlclass := BitVec.ofNat 4 (fld v 1 4), live := nbit v 0 }

/-- A write to CTX_ROOT, judged on the value that it would produce (R17, R85). -/
def State.writeRoot (s : State) (c : Nat) (p : RegPart) (v : Nat) : State :=
  if c < 64 then s.setCtx c (s.newRoot c (mergePart p (s.ctxAt c).rootWord v)) else s

/-- CTX_ROOT_WRITE (R85). -/
def execCtxRootWrite (c : Nat) (p : RegPart) (v : BitVec 64) (s : State) : Result := hostWrite s (s.writeRoot c p v.toNat)

/-- CTX_INVAL as it reads (Table 5.4). -/
def Context.invalWord (c : Context) : Nat := 2 ^ 63 * bit c.invalBusy + c.invalVa / 4096 % 2 ^ 45 * 4096 + 2 * (c.invalScope % 8)

/-- A cached leaf that an invalidation of a context removes (Table 5.4). -/
def Tlb.removedBy (t : Tlb) (ctx scope va : Nat) : Bool :=
  match scope with
  | 0 => t.hits ctx va
  | 1 => t.ctx == ctx && !(pteGlobal t.leaf.toNat)
  | 2 => t.ctx == ctx
  | _ => pteGlobal t.leaf.toNat

/-- Every matching entry leaves every translation cache (R87). -/
def State.invalidate (s : State) (ctx scope va : Nat) : State :=
  { s with
    yards := s.yards.map (fun y => { y with tlb := y.tlb.filter fun t => !(t.removedBy ctx scope va) }),
    mcs := s.mcs.map fun m => { m with tlb := m.tlb.filter fun t => !(t.removedBy ctx scope va) } }

/-- A byte lies in the frame of a cached leaf. -/
def Tlb.frames (t : Tlb) (pa : Nat) : Bool := decide (t.pa ≤ pa ∧ pa < t.pa + t.size)

/-- A core has loads, in flight or in its replay queue, of a byte for which `at_` holds. -/
def Core.loadsAt (c : Core) (at_ : Nat → Bool) : Bool :=
  (c.flight ++ c.rplq.map (·.1)).any fun f => f.redo.any fun p => p.bytes.any fun b => at_ b.2

/-- Loads that a removed entry may have translated are performed: those of the context's cores and, of other contexts, those in the frame of
a removed GLOBAL leaf; in flight or in a replay queue, they keep the values that they have read (R87; DESIGN CHOICE, log 82). -/
def State.settleOld (s : State) (ctx scope va : Nat) : State :=
  let gone := ((s.yards.toList.flatMap (·.tlb)) ++ s.mcs.toList.flatMap (·.tlb)).filter fun t => t.removedBy ctx scope va
  let old := fun (c : Core) =>
    if (c.ctx == ctx && scope != 3) || scope == 3 || c.loadsAt fun pa => gone.any fun t => t.frames pa then c.settleLoads else c
  { s with cores := s.cores.map old, ready := s.ready.map fun r => { r with saved := r.saved.map old } }

/-- A write to CTX_INVAL: one that carries SCOPE 4-7, or GO while BUSY is 1, is ignored whole (Table 5.4, R87). -/
def State.writeInval (s : State) (c : Nat) (p : RegPart) (v : Nat) : State :=
  if 64 ≤ c then s
  else
    let x := s.ctxAt c
    let go := p != .high && nbit v 0
    let w := mergePart p x.invalWord v
    if 4 ≤ fld w 1 3 || (go && x.invalBusy) then s
    else
      let va := fld w 12 45 * 4096
      let s := s.setCtx c { x with invalVa := va, invalScope := fld w 1 3, invalBusy := x.invalBusy || go }
      if go then (s.settleOld c (fld w 1 3) va).invalidate c (fld w 1 3) va else s

/-- CTX_INVALIDATE (R87). -/
def execCtxInvalidate (c : Nat) (p : RegPart) (v : BitVec 64) (s : State) : Result := hostWrite s (s.writeInval c p v.toNat)

/-- An invalidation can complete: the writes that wait can all be performed (R87). -/
def State.invalEnds (s : State) (c : Nat) : Bool := (s.ctxAt c).invalBusy && !s.drainWaits && !(s.drainsPending fun _ => true)

/-- CTX_INVALIDATE_DONE (R87): the writes that a removed entry translated enter the arrays, and BUSY clears. -/
def execCtxInvalidateDone (s : State) : Result :=
  let c := s.subj.ctx
  if 64 ≤ c || !(s.invalEnds c) then .next s
  else .next (s.drainWrites.setCtx c { s.ctxAt c with invalBusy := false })

/-- A write to CTX_RESUME (R99). -/
def State.writeResume (s : State) (c v : Nat) : State := if c < 64 && nbit v 0 then s.resumeCtx c else s

/-- CTX_RESUME (R99). -/
def execCtxResume (c : Nat) (v : BitVec 64) (s : State) : Result := hostWrite s (s.writeResume c v.toNat)

/-- A register of a context's page as the host reads it (Table 5.3). -/
def Context.reg (c : Context) (i : Nat) : Nat :=
  match i with
  | 0 => c.rootWord
  | 1 => c.compBase
  | 2 => c.sidecar
  | 3 => c.stageBase
  | 4 => c.stageLen
  | 5 => c.invalWord
  | 6 => c.efault.word
  | _ => 0

/-- A write to CTX_COMP, CTX_SIDECAR or a staging register, ignored while LIVE is 1 (R85, Table 5.3; DEDUCED, log 51). -/
def Context.writePlain (c : Context) (i v : Nat) : Context :=
  if c.live then c
  else
    match i with
    | 1 => { c with compBase := fld v 36 21 * 2 ^ 36 }
    | 2 => { c with sidecar := fld v 6 51 * 2 ^ 6 }
    | 3 => { c with stageBase := fld v 16 32 * 2 ^ 16 }
    | 4 => { c with stageLen := v / 65536 * 65536 }
    | _ => c

/-- A write to register `i` of a context's page (Table 5.3). -/
def State.writeCtxReg (s : State) (c i : Nat) (p : RegPart) (v : Nat) : State :=
  match i with
  | 0 => s.writeRoot c p v
  | 5 => s.writeInval c p v
  | 6 => s
  | 7 => s.writeResume c (mergePart p 0 v)
  | _ => s.setCtx c ((s.ctxAt c).writePlain i (mergePart p ((s.ctxAt c).reg i) v))

/-- PAGE_WALK (R83, R84): a walk for a context brings its leaf into a cache, or faults. -/
def execPageWalk (c : CacheId) (ctx : Nat) (va : BitVec 64) (write : Bool) (s : State) : Result :=
  .next (if 2 ^ 57 ≤ va.toNat ∨ 64 ≤ ctx then s else (walkInto s c ctx va.toNat write).1)

/-! ### SEM_ASSIGN (Table 15.2) -/

/-- SEM_ASSIGN[n] (Table 15.2). -/
def Sem.assignWord (x : Sem) : Nat := x.ctx % 64 + 2 ^ 8 * bit x.assigned

/-- A write to SEM_ASSIGN resets the semaphore's counter (R298). -/
def State.writeAssign (s : State) (n : Nat) (p : RegPart) (v : Nat) : State :=
  if n < 256 then
    let w := mergePart p (s.sem n).assignWord v
    s.setSem n { s.sem n with count := 0, assigned := nbit w 8, ctx := fld w 0 6 }
  else s

/-- SEM_ASSIGN_WRITE (R298). -/
def execSemAssignWrite (n : Nat) (p : RegPart) (v : BitVec 64) (s : State) : Result := hostWrite s (s.writeAssign n p v.toNat)

/-! ### The register window (R17, Table 1.3) -/

/-- ADM_CEIL (Table 4.4). -/
def Gov.ceilWord (g : Gov) : Nat := g.ceilCores + 2 ^ 10 * g.ceilMatrix + 2 ^ 20 * g.ceilBank + 2 ^ 30 * g.ceilCopy

/-- ADM_LIMITS (Table 4.5). -/
def Gov.limitsWord (g : Gov) : Nat := g.pmaxCores + 2 ^ 20 * g.pmaxMatrix + 2 ^ 40 * g.beReserve

/-- GOV_STATUS (Table 4.6). -/
def Gov.statusWord (g : Gov) : Nat :=
  2 ^ 8 * min g.waiting.length 255 + 2 ^ 16 * (g.ceilingDw % 65536) + 2 ^ 32 * (g.budgetDw % 65536)
    + 2 ^ 48 * (g.modelledMw / 100 % 65536)

/-- A bank error record, 32 bytes (Table 7.4). -/
def BankErr.bytes (e : BankErr) : List Byte :=
  toBytes 1 e.fault ++ toBytes 1 e.lane ++ toBytes 2 e.bgu ++ toBytes 1 e.bank ++ toBytes 1 e.die ++ toBytes 2 e.resRow
    ++ toBytes 4 e.dramRow ++ toBytes 4 e.block ++ toBytes 4 e.entry ++ toBytes 4 0 ++ toBytes 8 e.beat

/-- MCS_STAT (Table 7.3). -/
def Mcs.statWord (m : Mcs) : Nat :=
  m.logNext % 16 + 16 * min m.correctedEcc 65535 + 2 ^ 20 * min m.poisonEvents 4095 + 2 ^ 32 * (m.pauseCycles % 2 ^ 32)

/-- Eight bytes of an MCS's ring of error records (R135). -/
def Mcs.ringWord (m : Mcs) (off : Nat) : Nat :=
  match vget none m.log (off / 32) with
  | some e => numAt e.bytes (off % 32 / 8 * 8) 8
  | none => 0

/-- A register of a queue's page (Table 3.1). -/
def WorkQueue.reg (q : WorkQueue) (i : Nat) : Nat :=
  match i with
  | 0 => q.base.toNat
  | 1 => q.cfg
  | 2 => q.head
  | 3 => q.tail
  | 4 => q.stat
  | 5 => q.resetWord
  | _ => 0

/-- The 64-bit register at an offset that is a multiple of 8, below the queue pages; reserved offsets read zero (R4, R17). Table 1.3 names
an identity there without an offset or a value: no register is modelled for it, and its offset reads 0 (DESIGN CHOICE, log 84). -/
def State.ctrlReg (s : State) (o : Nat) : Nat :=
  if o = 0x08 then s.boot.word
  else if o = 0x40 then s.beat
  else if 0x80 ≤ o ∧ o < 0xA0 then (devFeat ((o - 0x80) / 8)).toNat
  else if 0xA0 ≤ o ∧ o < 0xC0 then (vget 0 s.boot.drvFeat ((o - 0xA0) / 8)).toNat
  else if 0xC0 ≤ o ∧ o < 0xE0 then (vget 0 s.boot.accFeat ((o - 0xC0) / 8)).toNat
  else if o = 0x100 then s.gov.board.word
  else if o = 0x200 then s.gov.ceilWord
  else if o = 0x208 then s.gov.limitsWord
  else if o = 0x210 then s.gov.statusWord
  else if 0x4000 ≤ o ∧ o < 0x5000 then (s.ctxAt ((o - 0x4000) / 0x40)).reg (o % 0x40 / 8)
  else if 0x5000 ≤ o ∧ o < 0x5800 then (s.sem ((o - 0x5000) / 8)).assignWord
  else if 0x6000 ≤ o ∧ o < 0x6600 then
    if o % 0x20 = 0 then (vget {} s.mcs ((o - 0x6000) / 0x20)).ordShare
    else if o % 0x20 = 8 then (vget {} s.mcs ((o - 0x6000) / 0x20)).statWord
    else 0
  else if 0x8000 ≤ o ∧ o < 0xE000 then (vget {} s.mcs ((o - 0x8000) / 0x200)).ringWord (o % 0x200)
  else if o = 0x10008 then s.boot.mbArg0.toNat
  else if o = 0x10010 then s.boot.mbArg1.toNat
  else if o = 0x10018 then s.boot.mbStatus
  else 0

/-- The 64-bit register at an offset that is a multiple of 8 (Table 1.3). -/
def State.windowReg (s : State) (o : Nat) : Nat :=
  if 0x100000 ≤ o ∧ o < 0x200000 then (s.queue ((o - 0x100000) / 0x400)).reg (o % 0x400 / 8) else s.ctrlReg o

/-- Which part of its register an aligned access of 4 or 8 bytes covers; none where the window does not accept it (R17). -/
def regPart (off size : Nat) : Option RegPart :=
  if 0x4000000 ≤ off then none
  else if size = 8 && off % 8 == 0 then some .whole
  else if size = 4 && off % 8 == 0 then some .low
  else if size = 4 && off % 8 == 4 then some .high
  else none

/-- The bytes of a register that a read of a part of it returns (R17). -/
def partBytesOf (p : RegPart) (v : Nat) : List Byte :=
  match p with
  | .whole => toBytes 8 v
  | .low => toBytes 4 v
  | .high => toBytes 4 (v / 2 ^ 32)

/-- REGISTER_WINDOW_READ (R17). -/
def execRegisterWindowRead (src : Requester) (off size : Nat) (s : State) : Result :=
  .next (
    if s.refuses src then s.logRefused.unsupported
    else
      match regPart off size with
      | none => s.unsupported
      | some p => s.replyBytes (partBytesOf p (s.windowReg (off / 8 * 8))))

/-- REGISTER_WINDOW_ATOMICOP (R17). -/
def execRegisterWindowAtomicop (src : Requester) (_off : Nat) (s : State) : Result :=
  .next (if s.refuses src then s.logRefused.unsupported else s.unsupported)

/-- ADM_CEIL after a write: a value above 1,000 is stored as 1,000 (Table 4.4). -/
def Gov.writeCeil (g : Gov) (v : Nat) : Gov :=
  { g with ceilCores := min (fld v 0 10) 1000, ceilMatrix := min (fld v 10 10) 1000, ceilBank := min (fld v 20 10) 1000,
           ceilCopy := min (fld v 30 10) 1000 }

/-- ADM_LIMITS after a write (Table 4.5). -/
def Gov.writeLimits (g : Gov) (v : Nat) : Gov :=
  { g with pmaxCores := max (fld v 0 20) 192, pmaxMatrix := min (fld v 20 20) 0x10000, beReserve := fld v 40 8 }

/-- ORD_SHARE as it is stored (Table 7.2). -/
def ordShareOf (x : Nat) : Nat := if x = 0 then 1 else min x 8

/-- A write to a register of a queue's page (Table 3.1); QBASE keeps its value while ENABLE is 1 (R39). -/
def State.writeQueueReg (s : State) (n i : Nat) (p : RegPart) (v : Nat) : State :=
  let q := s.queue n
  match i with
  | 0 => if q.enable then s else s.setQueue n { q with base := BitVec.ofNat 64 (mergePart p q.base.toNat v / 4096 * 4096) }
  | 1 => s.writeQcfg n p v
  | 3 => s.hostTail n p v
  | 4 => if nbit (mergePart p 0 v) 16 then s.setQueue n { q with overrun := false } else s
  | 5 => s.writeQreset n (mergePart p 0 v)
  | _ => s

/-- A mailbox command; the code lies in the low half (R34, Table 2.5). -/
def State.mailbox (s : State) (p : RegPart) (v : Nat) : State :=
  if p = .high then s
  else if mergePart p 0 v = 1 then s.loadImage
  else if mergePart p 0 v = 2 then s.resync
  else if s.boot.mbStatus = 1 then s
  else s.mailboxDone 3

/-- A write to a control, status or mailbox register; read-only and reserved offsets ignore it (R4, R17). The four DRV_FEAT words keep all
64 bits, the reserved ones too (R36; DESIGN CHOICE, log 84). -/
def State.writeCtrlReg (s : State) (o : Nat) (p : RegPart) (v : Nat) : State :=
  let w := mergePart p (s.ctrlReg o) v
  if o = 0x10 then s.writeBootCtl (mergePart p 0 v)
  else if 0xA0 ≤ o ∧ o < 0xC0 then
    if s.boot.committed then s
    else { s with boot := { s.boot with drvFeat := vset s.boot.drvFeat ((o - 0xA0) / 8) (BitVec.ofNat 64 w) } }
  else if o = 0xE0 then s.writeCommit (mergePart p 0 v)
  else if o = 0x200 then { s with gov := s.gov.writeCeil w }
  else if o = 0x208 then { s with gov := s.gov.writeLimits w }
  else if 0x4000 ≤ o ∧ o < 0x5000 then s.writeCtxReg ((o - 0x4000) / 0x40) (o % 0x40 / 8) p v
  else if 0x5000 ≤ o ∧ o < 0x5800 then s.writeAssign ((o - 0x5000) / 8) p v
  else if 0x6000 ≤ o ∧ o < 0x6600 ∧ o % 0x20 = 0 then
    { s with mcs := vset s.mcs ((o - 0x6000) / 0x20) { vget {} s.mcs ((o - 0x6000) / 0x20) with ordShare := ordShareOf (fld w 0 4) } }
  else if o = 0x10000 then s.mailbox p v
  else if o = 0x10008 then { s with boot := { s.boot with mbArg0 := BitVec.ofNat 64 w } }
  else if o = 0x10010 then { s with boot := { s.boot with mbArg1 := BitVec.ofNat 64 w } }
  else s

/-- A write to the register at an offset that is a multiple of 8 (Table 1.3). -/
def State.writeWindowReg (s : State) (o : Nat) (p : RegPart) (v : Nat) : State :=
  if 0x100000 ≤ o ∧ o < 0x200000 then s.writeQueueReg ((o - 0x100000) / 0x400) (o % 0x400 / 8) p v else s.writeCtrlReg o p v

/-- REGISTER_WRITE (R17): the register's fields take the value under the register's own rule, or the write is dropped and
logged. -/
def execRegisterWrite (src : Requester) (off size : Nat) (v : BitVec 64) (s : State) : Result :=
  .next (
    if s.refuses src then s.logRefused
    else
      match regPart off size with
      | none => s.logRefused
      | some p => s.writeWindowReg (off / 8 * 8) p v.toNat)

/-! ### The link (R14) -/

/-- Rates of the standard, in MT/s (R14). -/
def linkRates : List Nat := [2500, 5000, 8000, 16000, 32000, 64000]

/-- HOST_LINK_TRAINING (R14): a width of the part and a rate of the standard in MT/s, at most 32 GT/s without FLIT mode. -/
def execHostLinkTraining (lanes rate : Nat) (flit : Bool) (s : State) : Result :=
  .next (
    if lanes ∈ [1, 2, 4, 8, 16] ∧ rate ∈ linkRates ∧ (flit || rate ≤ 32000)
    then { s with link := { s.link with trained := true, lanes := lanes, rate := rate, flit := flit } }
    else s)

/-- Tag bits on the link (R14). -/
def Link.tagBits (l : Link) : Nat := if l.flit then 14 else 10

/-- Non-posted requests that may be outstanding (R14). -/
def Link.outstanding (l : Link) : Nat := if l.flit then 4096 else 768

end Sys2Proof.Machine
end

