-- ==== Sys2Proof/Machine/Prefix.lean ====
section
/-! DEFINITION. The five prefix-index instructions (R334-R337), with the digests of R152 and the order of R155. -/

namespace Sys2Proof.Machine

/-- The request of a prefix-index instruction. -/
def reqPx (op : Nat) (ok : Bool) (w : A3) (srcs : List (Spec × Bool)) (dsts : List Spec) (s : State) : Req :=
  { op := BitVec.ofNat 8 op, ok := ok, feature := s.accepts featPrefixIndex, pred := w.pred, srcs := srcs, dsts := dsts }

/-- A digest in bits 127:0 of a vector register. -/
def digestOf (v : VReg) : BitVec 128 := v.setWidth 128

/-- The 15 bytes that begin a prefix digest chain (R152). -/
def prefixLabel : List Byte :=
  [0x4B, 0x79, 0x6F, 0x62, 0x79, 0x2D, 0x4B, 0x56, 0x2D, 0x70, 0x72, 0x65, 0x66, 0x69, 0x78]

/-- PXHASH (R335): one step of the chain. -/
def execPxhash (w : A3) (s : State) : Result :=
  issue (reqPx 0xda (checkPxhash w) w [(w.a, w.ea), (w.b, w.eb)] [w.d] s) (fun s =>
    let bs := toBytes 16 (s.srcV w.a).toNat ++ toBytes 64 (s.srcV w.b).toNat
    .retire s { writes := [.v (specIdx w.d) (BitVec.allOnes 1024) (BitVec.ofNat 1024 (fromBytes (shake256 bs 16)))], cls := 14 }) s

/-- PXHASH.ROOT (R335): the digest of a model identifier. -/
def execPxhashRoot (w : A3) (s : State) : Result :=
  issue (reqPx 0xda (checkPxhashRoot w) w [(w.a, w.ea)] [w.d] s) (fun s =>
    let bs := prefixLabel ++ toBytes 32 (s.srcV w.a).toNat
    .retire s { writes := [.v (specIdx w.d) (BitVec.allOnes 1024) (BitVec.ofNat 1024 (fromBytes (shake256 bs 16)))], cls := 14 }) s

/-- The register pair of an answer (R336). -/
def PxAnswer.writes (x : PxAnswer) (d : Spec) : List Write :=
  [.s (specIdx d) (BitVec.ofNat 64 (2 ^ 32 * x.status + x.handle)), .s (specIdx d + 1) (BitVec.ofNat 64 x.set_)]

/-- A READY or INSERTED answer holds later accesses back until it has landed (R334). -/
def PxAnswer.holds (x : PxAnswer) : Bool := x.status == pxReady || x.status == pxInserted

/-- PXLOOK (R336). A READY status is an acquire at memory scope, so later accesses wait for its result (R155, R334). -/
def execPxlook (w : A3) (s : State) : Result :=
  issue (reqPx 0xdb (checkPxlook w) w [(w.a, w.ea)] [w.d, w.d + 1] s) (fun s =>
    match s.lookPrefix (digestOf (s.srcV w.a)) s.core.ctx s.core.entry with
    | (s, x) => .retire s { writes := x.writes w.d, cls := 14, holds := x.holds }) s

/-- PXINS (R336). -/
def execPxins (w : A3) (s : State) : Result :=
  issue (reqPx 0xdc (checkPxins w) w [(w.a, w.ea), (w.b, w.eb), (w.c, w.ec)] [w.d, w.d + 1] s) (fun s =>
    let b := (s.srcS w.b).toNat
    let c := (s.srcS w.c).toNat
    if 2 ^ 32 ≤ b ∨ 2 ^ 9 ≤ c then .trap s { code := 0x02 }
    else if !(s.semOwned (c % 256) s.core.ctx) then .trap s { code := codePermission }
    else
      match s.insertPrefix (digestOf (s.srcV w.a)) s.core.ctx s.core.entry b (c % 256) (nbit c 8) with
      | (s, x) => .retire s { writes := x.writes w.d, cls := 14, holds := x.holds }) s

/-- The status and handle that PXPUB and PXREL write (R337). -/
def pxStatus (d : Spec) (status handle : Nat) : List Write := [.s (specIdx d) (BitVec.ofNat 64 (2 ^ 32 * status + handle))]

/-- The slot of a prefix handle whose generation matches (R153). -/
def State.prefixLive (s : State) (h : Nat) : Bool := (s.prefix_ (h % 65536)).gen == h / 65536 % 65536

/-- The releases of R155: the loads of the core, the elements appended to its write streams and its writes are performed at memory
scope. -/
def State.publishes (s : State) : State := s.performStreams.releaseAt 4

/-- PXPUB (R337): the releases of R155, once results on their way to a write stream have come and no refresh keeps a write from its array
(R13), then the builder publishes. -/
def execPxpub (w : A3) (s : State) : Result :=
  issue (reqPx 0xdd (checkPxpub w) w [(w.a, w.ea)] [w.d] s) (fun s =>
    let h := (s.srcS w.a).toNat % 2 ^ 32
    let slot := h % 65536
    let p := s.prefix_ slot
    if !(s.prefixLive h) then .trap s { code := 0x41 }
    else if p.state ≠ prefixBuilding ∨ p.builder ≠ s.core.entry ∨ p.ctx ≠ s.core.ctx then .trap s { code := codePermission }
    else if s.core.appending || s.publishes.drainWaits then .wait s
    else
      let s := s.publishes
      let s := (s.setPrefix slot { p with state := prefixReady, waiters := 0 }).signalReady p s.core.entry
      .retire s { writes := pxStatus w.d 1 h, cls := 14 }) s

/-- PXREL (R337): it never faults. -/
def execPxrel (w : A3) (s : State) : Result :=
  issue (reqPx 0xde (checkPxrel w) w [(w.a, w.ea)] [w.d] s) (fun s =>
    let h := (s.srcS w.a).toNat % 2 ^ 32
    let slot := h % 65536
    let p := s.prefix_ slot
    if !(s.prefixLive h && s.holdsPrefix slot s.core.entry) then .retire s { writes := pxStatus w.d pxStale h, cls := 14 }
    else if p.state = prefixBuilding ∧ p.builder = s.core.entry then
      .retire (s.abandonPrefix slot s.core.entry) { writes := pxStatus w.d 0 h, cls := 14 }
    else .retire (s.releasePrefix slot s.core.entry) { writes := pxStatus w.d 1 h, cls := 14 }) s

end Sys2Proof.Machine
end

