-- ==== Sys2Proof/Machine/Vector.lean ====
section
/-! DEFINITION. The vector instructions of 14: integer lanes, floating-point lanes, movement, reductions, conversion and
quantisation, and masks (R269-R290). -/

namespace Sys2Proof.Machine

/-! ### Requests, lanes and results -/

/-- The request of an A3 word with a vector or mask destination, or a reduction: the predicate acts per lane (R233). -/
def reqVector (op : Nat) (ok : Bool) (w : A3) (n : Nat) : Req :=
  { op := BitVec.ofNat 8 op, ok := ok, pred := w.pred, perLane := true,
    srcs := [(w.a, w.ea), (w.b, w.eb), (w.c, w.ec)].take n, dsts := [w.d] }

/-- The request of an A3 word of this chapter whose predicate acts whole. -/
def reqWhole (op : Nat) (ok : Bool) (w : A3) (n : Nat) : Req := { reqVector op ok w n with perLane := false }

/-- A function of three lanes on three lists of lanes. -/
def map3 (f : Nat → Nat → Nat → Nat) : List Nat → List Nat → List Nat → List Nat
  | x :: xs, y :: ys, z :: zs => f x y z :: map3 f xs ys zs
  | _, _, _ => []

/-- The vector write of active lanes of width `w`: into a v register, or one vector appended to a stream (R269, R271). -/
def vecWrite (d : Spec) (w : Nat) (active : Nat → Bool) (lanes : List Nat) : Write :=
  if specFile d = 2 then .q (specIdx d) (vecOf w lanes)
  else .v (specIdx d) (laneMask w (1024 / w) active) (vecOf w lanes)

/-- A vector result of a class. -/
def giveV (cls : Nat) (d : Spec) (w : Nat) (pred : BitVec 4) (lanes : List Nat) (s : State) : Issue :=
  .retire s { writes := [vecWrite d w (s.core.laneActive pred w) lanes], cls := cls }

/-- Width of an integer element type (Table 12.4). -/
def intWidth (fn : BitVec 5) : Nat := elemBits fn.toNat

/-- An integer lane instruction (R273), class 3: D[i] := f of the lanes, modulo 2^w. -/
def laneOp (op n : Nat) (ok : Bool) (f : Nat → Nat → Nat → Nat → Nat) (x : A3) (s : State) : Result :=
  issue (reqVector op ok x n) (fun s =>
    let w := intWidth x.fn
    giveV 3 x.d w x.pred (map3 (f w) (s.lanesA x w) (s.lanesV x.b w) (s.lanesV x.c w)) s) s

/-- The write of a mask at width `w`: every bit of an active lane takes the lane's result (R271). -/
def maskWrite (d : Spec) (w n : Nat) (active holds : Nat → Bool) : Write :=
  let wide := fun (p : Nat → Bool) => BitVec.ofNat 128 (packLanes (w / 8) ((List.range n).map fun j => if p j then 2 ^ (w / 8) - 1 else 0))
  .k (specIdx d) (wide active) (wide holds)

/-- A lane condition of Table 13.3 at width `w`. -/
def laneCond (cond w x y : Nat) : Bool :=
  match cond with
  | 0 => x == y
  | 1 => x != y
  | 2 => decide (sext w x < sext w y)
  | 3 => decide (sext w y ≤ sext w x)
  | 4 => decide (x < y)
  | 5 => decide (y ≤ x)
  | 6 => x == 0
  | _ => x != 0

/-! ### Integer lanes (R273, R274) -/

/-- A lane of VADD (R273). -/
def laneVadd (_ x y _ : Nat) : Nat := x + y

/-- A lane of VSUB (R273). -/
def laneVsub (w x y _ : Nat) : Nat := wrap w ((x : Int) - y)

/-- A lane of VMUL (R273). -/
def laneVmul (_ x y _ : Nat) : Nat := x * y

/-- A lane of VMAD (R273). -/
def laneVmad (_ x y z : Nat) : Nat := x * y + z

/-- A lane of VMIN (R273). -/
def laneVmin (w x y _ : Nat) : Nat := if sext w x ≤ sext w y then x else y

/-- A lane of VMAX (R273). -/
def laneVmax (w x y _ : Nat) : Nat := if sext w x ≤ sext w y then y else x

/-- A lane of VAND (R273). -/
def laneVand (_ x y _ : Nat) : Nat := x &&& y

/-- A lane of VOR (R273). -/
def laneVor (_ x y _ : Nat) : Nat := x ||| y

/-- A lane of VXOR (R273). -/
def laneVxor (_ x y _ : Nat) : Nat := x ^^^ y

/-- A lane of VSHL (R273). -/
def laneVshl (w x y _ : Nat) : Nat := if w ≤ y then 0 else x * 2 ^ y

/-- A lane of VSHR (R273). -/
def laneVshr (w x y _ : Nat) : Nat := if w ≤ y then 0 else x / 2 ^ y

/-- A lane of VSRA (R273). -/
def laneVsra (w x y _ : Nat) : Nat := wrap w (sext w x / 2 ^ (if w ≤ y then w else y))

/-- A lane of VABS (R273). -/
def laneVabs (w x _ _ : Nat) : Nat := wrap w (sext w x).natAbs

/-- A lane of VPOPC (R273). -/
def laneVpopc (w x _ _ : Nat) : Nat := popCount w x

/-- A lane of VCLZ (R273). -/
def laneVclz (w x _ _ : Nat) : Nat := leadingZeros w x

/-- VADD (R273): class 3, per lane. -/
def execVadd (x : A3) (s : State) : Result := laneOp 0x60 2 (checkVadd x) laneVadd x s

/-- VSUB (R273): class 3, per lane. -/
def execVsub (x : A3) (s : State) : Result := laneOp 0x61 2 (checkVsub x) laneVsub x s

/-- VMUL (R273): class 3, per lane. -/
def execVmul (x : A3) (s : State) : Result := laneOp 0x62 2 (checkVmul x) laneVmul x s

/-- VMAD (R273): class 3, per lane. -/
def execVmad (x : A3) (s : State) : Result := laneOp 0x63 3 (checkVmad x) laneVmad x s

/-- VMIN (R273): class 3, per lane. -/
def execVmin (x : A3) (s : State) : Result := laneOp 0x64 2 (checkVmin x) laneVmin x s

/-- VMAX (R273): class 3, per lane. -/
def execVmax (x : A3) (s : State) : Result := laneOp 0x65 2 (checkVmax x) laneVmax x s

/-- VAND (R273): class 3, per lane. -/
def execVand (x : A3) (s : State) : Result := laneOp 0x66 2 (checkVand x) laneVand x s

/-- VOR (R273): class 3, per lane. -/
def execVor (x : A3) (s : State) : Result := laneOp 0x67 2 (checkVor x) laneVor x s

/-- VXOR (R273): class 3, per lane. -/
def execVxor (x : A3) (s : State) : Result := laneOp 0x68 2 (checkVxor x) laneVxor x s

/-- VSHL (R273): class 3, per lane. -/
def execVshl (x : A3) (s : State) : Result := laneOp 0x69 2 (checkVshl x) laneVshl x s

/-- VSHR (R273): class 3, per lane. -/
def execVshr (x : A3) (s : State) : Result := laneOp 0x6a 2 (checkVshr x) laneVshr x s

/-- VSRA (R273): class 3, per lane. -/
def execVsra (x : A3) (s : State) : Result := laneOp 0x6b 2 (checkVsra x) laneVsra x s

/-- VABS (R273): class 3, per lane. -/
def execVabs (x : A3) (s : State) : Result := laneOp 0x6e 1 (checkVabs x) laneVabs x s

/-- VPOPC (R273): class 3, per lane. -/
def execVpopc (x : A3) (s : State) : Result := laneOp 0x6f 1 (checkVpopc x) laneVpopc x s

/-- VCLZ (R273): class 3, per lane. -/
def execVclz (x : A3) (s : State) : Result := laneOp 0x70 1 (checkVclz x) laneVclz x s

/-- VSEL (R273): B[i] where the lane's bit of K[a] is 1, else C[i]; class 3. -/
def execVsel (x : A3) (s : State) : Result :=
  issue (reqVector 0x6d (checkVsel x) x 3) (fun s =>
    let w := intWidth x.fn
    let k := s.srcK x.a
    giveV 3 x.d w x.pred
      (map3 (fun i b c => if k.getLsbD (maskBit w i) then b else c) (List.range (1024 / w)) (s.lanesV x.b w) (s.lanesV x.c w)) s) s

/-- VCMP (R274): fn is 8 × W + cond; the results of the active lanes go to a mask, class 3. -/
def execVcmp (x : A3) (s : State) : Result :=
  let cond := fld x.fn.toNat 0 3
  issue (reqVector 0x6c (checkVcmp x) x (if cond < 6 then 2 else 1)) (fun s =>
    let w := 8 * 2 ^ fld x.fn.toNat 3 2
    let a := s.lanesA x w
    let b := s.lanesV x.b w
    .retire s { cls := 3, writes :=
      [maskWrite x.d w (1024 / w) (s.core.laneActive x.pred w) (fun i => laneCond cond w (a.getD i 0) (b.getD i 0))] }) s

/-! ### Floating-point lanes (R275-R279) -/

/-- A floating-point lane instruction: each lane's code and flags; only active lanes set flags (R233, R275). -/
def fpOp (op cls n : Nat) (ok : Bool) (f : FloatFmt → Nat → Nat → Nat → Nat × Sticky) (x : A3) (s : State) : Result :=
  issue (reqVector op ok x n) (fun s =>
    let fm := fnFmt x.fn.toNat
    let w := fm.width
    let a := s.lanesA x w
    let b := s.lanesV x.b w
    let c := s.lanesV x.c w
    let active := s.core.laneActive x.pred w
    let r := (List.range (1024 / w)).map fun i =>
      if active i then f fm (a.getD i 0) (b.getD i 0) (c.getD i 0) else (0, {})
    .retire (s.raiseFlags (stickyAll (r.map (·.2)))) { cls := cls, writes := [vecWrite x.d w active (r.map (·.1))] }) s

/-- A function of one value, rounded once, as a lane operation (R279). -/
def unaryLane (g : Num → Num × Bool) (f : FloatFmt) (x _ _ : Nat) : Nat × Sticky := f.finish (g (f.decode x))

/-- The exponent lanes or the scalar exponent of VEADD (R278). -/
def veaddExp (x : A3) (s : State) (w i : Nat) : Int :=
  if specFile x.b = 0 then sgn (s.srcS x.b) else sext w (lane w (s.srcV x.b).toNat i)

/-- VFADD (R276): the exact sum rounded once, class 4. -/
def execVfadd (x : A3) (s : State) : Result :=
  fpOp 0x78 4 2 (checkVfadd x) (fun f x y _ => f.add x y) x s

/-- VFSUB (R276): the exact difference rounded once, class 4. -/
def execVfsub (x : A3) (s : State) : Result :=
  fpOp 0x79 4 2 (checkVfsub x) (fun f x y _ => f.sub x y) x s

/-- VFMUL (R276): the exact product rounded once, class 4. -/
def execVfmul (x : A3) (s : State) : Result :=
  fpOp 0x7a 4 2 (checkVfmul x) (fun f x y _ => f.mul x y) x s

/-- VFMA (R276): product and sum rounded once, class 4. -/
def execVfma (x : A3) (s : State) : Result :=
  fpOp 0x7b 4 3 (checkVfma x) (fun f x y z => f.fma x y z) x s

/-- VFMIN (R276): lesser value; no flag, class 4. -/
def execVfmin (x : A3) (s : State) : Result :=
  fpOp 0x7c 4 2 (checkVfmin x) (fun f x y _ => (f.minimum x y, {})) x s

/-- VFMAX (R276): greater value; no flag, class 4. -/
def execVfmax (x : A3) (s : State) : Result :=
  fpOp 0x7d 4 2 (checkVfmax x) (fun f x y _ => (f.maximum x y, {})) x s

/-- VFABS (R276): sign cleared; no flag, class 4. -/
def execVfabs (x : A3) (s : State) : Result :=
  fpOp 0x7f 4 1 (checkVfabs x) (fun f x _ _ => (f.absolute x, {})) x s

/-- VFNEG (R276): sign inverted; no flag, class 4. -/
def execVfneg (x : A3) (s : State) : Result :=
  fpOp 0x80 4 1 (checkVfneg x) (fun f x _ _ => (f.negate x, {})) x s

/-- VEXP2 (R279): 2^x, correctly rounded, class 5. -/
def execVexp2 (x : A3) (s : State) : Result :=
  fpOp 0x81 5 1 (checkVexp2 x) (unaryLane Num.exp2) x s

/-- VLOG2 (R279): log2 x, correctly rounded, class 5. -/
def execVlog2 (x : A3) (s : State) : Result :=
  fpOp 0x82 5 1 (checkVlog2 x) (unaryLane Num.log2) x s

/-- VRCP (R279): 1/x, correctly rounded, class 5. -/
def execVrcp (x : A3) (s : State) : Result :=
  fpOp 0x83 5 1 (checkVrcp x) (unaryLane Num.recip) x s

/-- VRSQ (R279): 1/√x, correctly rounded, class 5. -/
def execVrsq (x : A3) (s : State) : Result :=
  fpOp 0x84 5 1 (checkVrsq x) (unaryLane Num.rsqrt) x s

/-- VSQRT (R279): √x, correctly rounded, class 5. -/
def execVsqrt (x : A3) (s : State) : Result :=
  fpOp 0x85 5 1 (checkVsqrt x) (unaryLane Num.sqrt) x s

/-- VFCMP (R277): fn is 8 × F + cond; no flag, class 4. -/
def execVfcmp (x : A3) (s : State) : Result :=
  let cond := fld x.fn.toNat 0 3
  issue (reqVector 0x7e (checkVfcmp x) x (if cond < 6 then 2 else 1)) (fun s =>
    let fm := fnFmt (8 + fld x.fn.toNat 3 2)
    let w := fm.width
    let a := s.lanesA x w
    let b := s.lanesV x.b w
    .retire s { cls := 4, writes :=
      [maskWrite x.d w (1024 / w) (s.core.laneActive x.pred w)
        (fun i => fpCond cond (fm.decode (a.getD i 0)) (fm.decode (b.getD i 0)))] }) s

/-- VEADD (R278): each active lane times 2^n, rounded once, class 4. -/
def execVeadd (x : A3) (s : State) : Result :=
  issue (reqVector 0x86 (checkVeadd x) x 2) (fun s =>
    let fm := fnFmt x.fn.toNat
    let w := fm.width
    let a := s.lanesA x w
    let active := s.core.laneActive x.pred w
    let r := (List.range (1024 / w)).map fun i => if active i then fm.scaled (a.getD i 0) (veaddExp x s w i) else (0, {})
    .retire (s.raiseFlags (stickyAll (r.map (·.2)))) { cls := 4, writes := [vecWrite x.d w active (r.map (·.1))] }) s

/-! ### Moving lanes (R280, R281) -/

/-- VMOV (R280): D[i] := A'[i]; class 3, or 13 from a stream. -/
def execVmov (x : A3) (s : State) : Result :=
  issue (reqVector 0x88 (checkVmov x) x 1) (fun s =>
    giveV (if specFile x.a = 2 then 13 else 3) x.d (intWidth x.fn) x.pred (s.lanesA x (intWidth x.fn)) s) s

/-- VBCAST (R280): every lane takes the low bits of S[a], class 3. -/
def execVbcast (x : A3) (s : State) : Result :=
  issue (reqVector 0x89 (checkVbcast x) x 1) (fun s =>
    let w := intWidth x.fn
    giveV 3 x.d w x.pred ((List.range (1024 / w)).map fun _ => (s.srcS x.a).toNat % 2 ^ w) s) s

/-- VIOTA (R280): D[i] := u(S[a]) + i mod 2^w, class 3. -/
def execViota (x : A3) (s : State) : Result :=
  issue (reqVector 0x8e (checkViota x) x 1) (fun s =>
    let w := intWidth x.fn
    giveV 3 x.d w x.pred ((List.range (1024 / w)).map fun i => ((s.srcS x.a).toNat + i) % 2 ^ w) s) s

/-- VPERM (R280): D[i] := A'[u(B[i]) mod N], class 12. -/
def execVperm (x : A3) (s : State) : Result :=
  issue (reqVector 0x8c (checkVperm x) x 2) (fun s =>
    let w := intWidth x.fn
    let a := s.lanesA x w
    giveV 12 x.d w x.pred ((s.lanesV x.b w).map fun j => a.getD (j % (1024 / w)) 0) s) s

/-- VEXT (R280): S[d] := A'[u(S[b]) mod N], zero-extended, class 12; the predicate acts whole. -/
def execVext (x : A3) (s : State) : Result :=
  issue (reqWhole 0x8a (checkVext x) x 2) (fun s =>
    let w := intWidth x.fn
    .retire s { cls := 12, writes :=
      [.s (specIdx x.d) (BitVec.ofNat 64 ((s.lanesA x w).getD ((s.srcS x.b).toNat % (1024 / w)) 0))] }) s

/-- VINS (R280): lane u(S[b]) mod N of V[d] becomes the low bits of S[a] if that lane is active, class 12. -/
def execVins (x : A3) (s : State) : Result :=
  issue (reqVector 0x8b (checkVins x) x 2) (fun s =>
    let w := intWidth x.fn
    let j := (s.srcS x.b).toNat % (1024 / w)
    .retire s { cls := 12, writes :=
      [vecWrite x.d w (fun i => i == j && s.core.laneActive x.pred w i)
        ((List.range (1024 / w)).map fun _ => (s.srcS x.a).toNat % 2 ^ w)] }) s

/-- VCOMP (R281): the active lanes of A' move to the front in ascending order, the rest of d becomes zero, class 12. -/
def execVcomp (x : A3) (s : State) : Result :=
  issue (reqVector 0x8d (checkVcomp x) x 1) (fun s =>
    let w := intWidth x.fn
    let a := s.lanesA x w
    let kept := ((List.range (1024 / w)).filter (s.core.laneActive x.pred w)).map fun i => a.getD i 0
    .retire s { cls := 12, writes := [vecWrite x.d w (fun _ => true) kept] }) s

/-! ### Reductions (R282-R284) -/

/-- The active lanes of source a, with their indices. -/
def activeLanes (x : A3) (w : Nat) (s : State) : List (Nat × Nat) :=
  let a := s.lanesA x w
  ((List.range (1024 / w)).filter (s.core.laneActive x.pred w)).map fun i => (i, a.getD i 0)

/-- A reduction of integer lanes (R282): an exact fold of the signed values, class 6. -/
def reduceInt (op : Nat) (ok : Bool) (f : Nat → List Int → Int) (x : A3) (s : State) : Result :=
  issue (reqVector op ok x 1) (fun s =>
    let w := intWidth x.fn
    .retire s { cls := 6, writes := [.s (specIdx x.d) (w64 (f w ((activeLanes x w s).map fun l => sext w l.2)))] }) s

/-- VRSUM (R282): the exact sum; 0 of no lane. -/
def execVrsum (x : A3) (s : State) : Result :=
  reduceInt 0xb0 (checkVrsum x) (fun _ xs => xs.foldl (· + ·) 0) x s

/-- VRMAX (R282): the greatest signed lane; -2^(w-1) of no lane. -/
def execVrmax (x : A3) (s : State) : Result :=
  reduceInt 0xb1 (checkVrmax x) (fun w xs => xs.foldl max (-((2 ^ (w - 1) : Nat) : Int))) x s

/-- VRMIN (R282): the least signed lane; 2^(w-1) - 1 of no lane. -/
def execVrmin (x : A3) (s : State) : Result :=
  reduceInt 0xb2 (checkVrmin x) (fun w xs => xs.foldl min (((2 ^ (w - 1) : Nat) : Int) - 1)) x s

/-- One level of the pairwise tree of R283. -/
def treeLevel (f : Nat → Nat → Nat × Sticky) : List (Option Nat) → List (Option Nat) × List Sticky
  | x :: y :: rest =>
    match treeLevel f rest with
    | (ns, fs) =>
      match x, y with
      | none, y => (y :: ns, fs)
      | x, none => (x :: ns, fs)
      | some a, some b => (some (f a b).1 :: ns, (f a b).2 :: fs)
  | rest => (rest, [])

/-- The pairwise tree of R283 over `levels` levels. -/
def tree (f : Nat → Nat → Nat × Sticky) : Nat → List (Option Nat) → Option Nat × List Sticky
  | 0, xs => (xs.headD none, [])
  | n + 1, xs =>
    match treeLevel f xs with
    | (ys, fs) =>
      match tree f n ys with
      | (r, gs) => (r, fs ++ gs)

/-- A reduction of floating-point lanes in FP32 (R283), class 6: the leaf of a lane, the operation, and the result of no
active lane. -/
def reduceFp (op : Nat) (ok : Bool) (leaf : Num → Num) (f : Nat → Nat → Nat × Sticky) (none_ : Nat) (x : A3) (s : State) : Result :=
  issue (reqVector op ok x 1) (fun s =>
    let fm := fnFmt x.fn.toNat
    let w := fm.width
    let a := s.lanesA x w
    let leaves := (List.range (1024 / w)).map fun i =>
      if s.core.laneActive x.pred w i then some (fp32.encode (leaf (fm.decode (a.getD i 0)))).1 else none
    match tree f (if w = 32 then 5 else 6) leaves with
    | (r, fs) => .retire (s.raiseFlags (stickyAll fs)) { cls := 6, writes := [.s (specIdx x.d) (BitVec.ofNat 64 (r.getD none_))] }) s

/-- VRFSUM (R283): the tree of AddFP32; +0.0 of no lane. -/
def execVrfsum (x : A3) (s : State) : Result :=
  reduceFp 0xb3 (checkVrfsum x) id (fun a b => fp32.add a b) 0 x s

/-- VRFMAX (R283): the tree of the greater value; -inf of no lane. -/
def execVrfmax (x : A3) (s : State) : Result :=
  reduceFp 0xb4 (checkVrfmax x) id (fun a b => (fp32.maximum a b, {})) 0xFF800000 x s

/-- VRAMAX (R283): the tree of the greater magnitude; +0.0 of no lane. -/
def execVramax (x : A3) (s : State) : Result :=
  reduceFp 0xb5 (checkVramax x) Num.abs (fun a b => (fp32.maximum a b, {})) 0 x s

/-- Whether a lane holds less than another under the order of VRARG (R284): signed integers; every NaN above every
number, +0 above -0. -/
def argLess (fn x y : Nat) : Bool :=
  if fn < 8 then decide (sext (elemBits fn) x < sext (elemBits fn) y)
  else
    let a := (fnFmt fn).decode x
    let b := (fnFmt fn).decode y
    if b.isNan then !a.isNan else a.lt true b

/-- VRARG (R284): the least index of the active lanes that hold the greatest value; all ones of no lane; class 6. -/
def execVrarg (x : A3) (s : State) : Result :=
  issue (reqVector 0xb6 (checkVrarg x) x 1) (fun s =>
    let best := (activeLanes x (elemBits x.fn.toNat) s).foldl (fun (b : Option (Nat × Nat)) l =>
      match b with
      | none => some l
      | some m => if argLess x.fn.toNat m.2 l.2 then some l else some m) none
    .retire s { cls := 6, writes := [.s (specIdx x.d) (match best with
      | some l => BitVec.ofNat 64 l.1
      | none => BitVec.allOnes 64)] }) s

/-! ### Conversion and quantisation (R285-R289) -/

/-- Fields of ctl (Table 14.6). -/
def cvtSrc (w : SysF) : Nat := fld w.ctl.toNat 4 4
def cvtDst (w : SysF) : Nat := fld w.ctl.toNat 0 4
def cvtPart (w : SysF) : Nat := fld w.ctl.toNat 8 3

/-- The request of a conversion word. -/
def reqCvt (op : Nat) (ok : Bool) (w : SysF) (srcs : List (Spec × Bool)) : Req :=
  { op := BitVec.ofNat 8 op, ok := ok, pred := w.pred, perLane := true, srcs := srcs, dsts := [w.d] }

/-- VCVT (R286): n = 1,024 / wide elements, from or into the slice PART of the wider side; class 7. -/
def execVcvt (w : SysF) (s : State) : Result :=
  issue (reqCvt 0xa0 (checkVcvt w) w [(w.a, w.ea)]) (fun s =>
    let w1 := fmtWidth (cvtSrc w)
    let w2 := fmtWidth (cvtDst w)
    let wide := max w1 w2
    let n := 1024 / wide
    let from_ := if w1 < w2 then cvtPart w * n else 0
    let first := if w2 < w1 then cvtPart w * n else 0
    let src := (s.srcV w.a).toNat
    let active := s.core.laneActive w.pred wide
    let r := (List.range n).map fun i =>
      if active i then encodeElem (cvtDst w) (decodeElem (cvtSrc w) (lane w1 src (from_ + i))) else (0, {})
    .retire (s.raiseFlags (stickyAll (r.map (·.2)))) { cls := 7, writes :=
      [.v (specIdx w.d) (laneMask w2 (1024 / w2) (fun j => decide (first ≤ j ∧ j < first + n) && active (j - first)))
        (vecOf w2 ((List.range first).map (fun _ => 0) ++ r.map (·.1)))] }) s

/-- The registers of a vqnt group (R287). -/
def qntGroup (w : SysF) : List Spec :=
  (List.range (groupRegs (cvtSrc w) (cvtDst w))).map fun i => w.a + BitVec.ofNat 8 i

/-- The elements of a vqnt group in order (R287). -/
def qntElems (w : SysF) (s : State) : List Num :=
  let w1 := fmtWidth (cvtSrc w)
  ((qntGroup w).flatMap fun r => (lanesOf w1 (1024 / w1) (s.srcV r).toNat).map (decodeElem (cvtSrc w))).take
    (blockElems (cvtDst w))

/-- VQNT (R287): the element bytes of the block; class 7. -/
def execVqnt (w : SysF) (s : State) : Result :=
  issue { reqCvt 0xa1 (checkVqnt w) w ((qntGroup w).map fun r => (r, w.ea)) with captures := some 1 } (fun s =>
    match quantiseBlock (cvtDst w = 9) (qntElems w s) with
    | (_, q, f) =>
      .retire (s.raiseFlags { inexact := f.inexact, saturate := f.saturate, scaleUnderflow := f.scaleUnderflow })
        { cls := 7, writes := [.v (specIdx w.d) (BitVec.allOnes 1024) (vecOf (if cvtDst w = 9 then 4 else 8) q)] }) s

/-- VQNT_SC (R287): the scale code of the same block, zero-extended; only SCALE_UNDERFLOW is set. -/
def execVqntSc (w : SysF) (s : State) : Result :=
  issue { reqCvt 0xa1 (checkVqntSc w) w ((qntGroup w).map fun r => (r, w.ea)) with captures := some 1 } (fun s =>
    match quantiseBlock (cvtDst w = 9) (qntElems w s) with
    | (c, _, f) =>
      .retire (s.raiseFlags { scaleUnderflow := f.scaleUnderflow })
        { cls := 7, writes := [.s (specIdx w.d) (BitVec.ofNat 64 c)] }) s

/-- VDQNT (R288): elements PART × n onward of a block, without their scale; exact, so no flag; class 7. -/
def execVdqnt (w : SysF) (s : State) : Result :=
  issue (reqCvt 0xa2 (checkVdqnt w) w [(w.a, w.ea)]) (fun s =>
    let w2 := fmtWidth (cvtDst w)
    let n := 1024 / w2
    let src := (s.srcV w.a).toNat
    let elem := fun i => if cvtSrc w = 9 then e2m1.decode (lane 4 src i) else numOfInt (sext 8 (lane 8 src i))
    giveV 7 w.d w2 w.pred ((List.range n).map fun i => (encodeElem (cvtDst w) (elem (cvtPart w * n + i))).1) s) s

/-- VSCL (R289): each active lane times 2^(c - 127), or the canonical NaN for c = 0xFF; V[d] is read and written; class 7. -/
def execVscl (w : SysF) (s : State) : Result :=
  issue (reqCvt 0xa3 (checkVscl w) w [(w.a, w.ea), (w.d, false)]) (fun s =>
    let fm := (floatFmt? (cvtDst w)).getD fp32
    let c := (s.srcS w.a).toNat % 256
    let active := s.core.laneActive w.pred fm.width
    let r := (lanesOf fm.width (1024 / fm.width) (s.srcV w.d).toNat).map fun x =>
      if c = 0xFF then (fm.nan, ({} : Sticky)) else fm.scaled x ((c : Int) - 127)
    let flags := ((List.range (1024 / fm.width)).filter active).map fun i => (r.getD i (0, {})).2
    .retire (s.raiseFlags (stickyAll flags)) { cls := 7, writes := [vecWrite w.d fm.width active (r.map (·.1))] }) s

/-! ### Masks (R290) -/

/-- The bits of a mask destination that the predicate lets be written (R290). -/
def predBits (p : BitVec 4) (s : State) : KReg :=
  let k := s.core.getK (p.toNat % 8)
  if p.getLsbD 3 then ~~~k else k

/-- A mask result of class 11 on some bits of the destination. -/
def giveK (x : A3) (bits v : KReg) (s : State) : Issue :=
  .retire s { cls := 11, writes := [.k (specIdx x.d) (predBits x.pred s &&& bits) v] }

/-- A scalar result of class 11. -/
def giveKS (x : A3) (v : Nat) (s : State) : Issue :=
  .retire s { cls := 11, writes := [.s (specIdx x.d) (BitVec.ofNat 64 v)] }

/-- The low, and the high, 64 bits of a mask register. -/
def lowHalf : KReg := BitVec.ofNat 128 (2 ^ 64 - 1)
def highHalf : KReg := BitVec.ofNat 128 ((2 ^ 64 - 1) * 2 ^ 64)

/-- KAND (R290). -/
def execKand (x : A3) (s : State) : Result :=
  issue (reqVector 0xa8 (checkKand x) x 2) (fun s => giveK x (BitVec.allOnes 128) (s.srcK x.a &&& s.srcK x.b) s) s

/-- KOR (R290). -/
def execKor (x : A3) (s : State) : Result :=
  issue (reqVector 0xa9 (checkKor x) x 2) (fun s => giveK x (BitVec.allOnes 128) (s.srcK x.a ||| s.srcK x.b) s) s

/-- KXOR (R290). -/
def execKxor (x : A3) (s : State) : Result :=
  issue (reqVector 0xaa (checkKxor x) x 2) (fun s => giveK x (BitVec.allOnes 128) (s.srcK x.a ^^^ s.srcK x.b) s) s

/-- KNOT (R290). -/
def execKnot (x : A3) (s : State) : Result :=
  issue (reqVector 0xab (checkKnot x) x 1) (fun s => giveK x (BitVec.allOnes 128) (~~~(s.srcK x.a)) s) s

/-- KMOV (R290), mask to mask. -/
def execKmov (x : A3) (s : State) : Result :=
  issue (reqVector 0xac (checkKmov x) x 1) (fun s => giveK x (BitVec.allOnes 128) (s.srcK x.a) s) s

/-- KMOV_L64_TO_MASK (R290): bits 63:0 of K[d] take S[a]. -/
def execKmovL64ToMask (x : A3) (s : State) : Result :=
  issue (reqVector 0xac (checkKmovL64ToMask x) x 1) (fun s => giveK x lowHalf ((s.srcS x.a).setWidth 128) s) s

/-- KMOV_H64_TO_MASK (R290): bits 127:64 of K[d] take S[a]. -/
def execKmovH64ToMask (x : A3) (s : State) : Result :=
  issue (reqVector 0xac (checkKmovH64ToMask x) x 1) (fun s =>
    giveK x highHalf (BitVec.ofNat 128 ((s.srcS x.a).toNat * 2 ^ 64)) s) s

/-- KMOV_L64_TO_SCALAR (R290): S[d] takes bits 63:0 of K[a]; the predicate acts whole. -/
def execKmovL64ToScalar (x : A3) (s : State) : Result :=
  issue (reqWhole 0xac (checkKmovL64ToScalar x) x 1) (fun s => giveKS x ((s.srcK x.a).toNat % 2 ^ 64) s) s

/-- KMOV_H64_TO_SCALAR (R290): S[d] takes bits 127:64 of K[a]; the predicate acts whole. -/
def execKmovH64ToScalar (x : A3) (s : State) : Result :=
  issue (reqWhole 0xac (checkKmovH64ToScalar x) x 1) (fun s => giveKS x ((s.srcK x.a).toNat / 2 ^ 64) s) s

/-- The lanes of width `w` whose bit of a mask is set. -/
def setLanes (w : Nat) (k : KReg) : List Nat := (List.range (1024 / w)).filter fun j => k.getLsbD (maskBit w j)

/-- KPOP (R290): the number of lanes whose bit is set; the predicate acts whole. -/
def execKpop (x : A3) (s : State) : Result :=
  issue (reqWhole 0xad (checkKpop x) x 1) (fun s => giveKS x (setLanes (intWidth x.fn) (s.srcK x.a)).length s) s

/-- KFF (R290): the least lane whose bit is set, or N; the predicate acts whole. -/
def execKff (x : A3) (s : State) : Result :=
  issue (reqWhole 0xae (checkKff x) x 1) (fun s =>
    giveKS x ((setLanes (intWidth x.fn) (s.srcK x.a)).headD (1024 / intWidth x.fn)) s) s

end Sys2Proof.Machine
end

