-- ==== Sys2Proof/Machine/Dispatch.lean ====
section
/-! DEFINITION. One arm per constructor of Instr: the one place where an instruction meets its meaning. -/

namespace Sys2Proof.Machine

/-- The meaning of an instruction in a state. -/
def exec (i : Instr) (s : State) : Host.Outcome State Fault Refusal :=
  match i with
  | .bootCtlColdStart key => Sys2Proof.Machine.execBootCtlColdStart key s
  | .bootCtlWarmStart key => Sys2Proof.Machine.execBootCtlWarmStart key s
  | .featCommit value => Sys2Proof.Machine.execFeatCommit value s
  | .mailboxBadCommand cmd => Sys2Proof.Machine.execMailboxBadCommand cmd s
  | .bindContext ctx => Sys2Proof.Machine.execBindContext ctx s
  | .unbindContext ctx => Sys2Proof.Machine.execUnbindContext ctx s
  | .setKey req => Sys2Proof.Machine.execSetKey req s
  | .clearKey slot => Sys2Proof.Machine.execClearKey slot s
  | .tdiExitRun toError => Sys2Proof.Machine.execTdiExitRun toError s
  | .linearWindowRead src off len => Sys2Proof.Machine.execLinearWindowRead src off len s
  | .linearWindowWrite src off data => Sys2Proof.Machine.execLinearWindowWrite src off data s
  | .linearWindowAtomicop src op off size v1 v2 => Sys2Proof.Machine.execLinearWindowAtomicop src op off size v1 v2 s
  | .registerWindowAtomicop src off => Sys2Proof.Machine.execRegisterWindowAtomicop src off s
  | .registerWrite src off size value => Sys2Proof.Machine.execRegisterWrite src off size value s
  | .qcfgWrite queue part value => Sys2Proof.Machine.execQcfgWrite queue part value s
  | .tailWrite queue part value => Sys2Proof.Machine.execTailWrite queue part value s
  | .qreset queue value => Sys2Proof.Machine.execQreset queue value s
  | .ctxRootWrite ctx part value => Sys2Proof.Machine.execCtxRootWrite ctx part value s
  | .ctxInvalidate ctx part value => Sys2Proof.Machine.execCtxInvalidate ctx part value s
  | .ctxResume ctx value => Sys2Proof.Machine.execCtxResume ctx value s
  | .semAssignWrite sem part value => Sys2Proof.Machine.execSemAssignWrite sem part value s
  | .preemption unit => Sys2Proof.Machine.execPreemption unit s
  | .budgetOverrun cls => Sys2Proof.Machine.execBudgetOverrun cls s
  | .pageWalk cache ctx va write => Sys2Proof.Machine.execPageWalk cache ctx va write s
  | .perBankRefresh bank cycles => Sys2Proof.Machine.execPerBankRefresh bank cycles s
  | .streamTransfer q => Sys2Proof.Machine.execStreamTransfer q s
  | .fullEmptyResultFill index => Sys2Proof.Machine.execFullEmptyResultFill index s
  | .add w => Sys2Proof.Machine.execAdd w s
  | .sub w => Sys2Proof.Machine.execSub w s
  | .mul w => Sys2Proof.Machine.execMul w s
  | .mulhi w => Sys2Proof.Machine.execMulhi w s
  | .mulhs w => Sys2Proof.Machine.execMulhs w s
  | .div w => Sys2Proof.Machine.execDiv w s
  | .divs w => Sys2Proof.Machine.execDivs w s
  | .rem w => Sys2Proof.Machine.execRem w s
  | .rems w => Sys2Proof.Machine.execRems w s
  | .and w => Sys2Proof.Machine.execAnd w s
  | .or w => Sys2Proof.Machine.execOr w s
  | .xor w => Sys2Proof.Machine.execXor w s
  | .shl w => Sys2Proof.Machine.execShl w s
  | .shr w => Sys2Proof.Machine.execShr w s
  | .sra w => Sys2Proof.Machine.execSra w s
  | .rot w => Sys2Proof.Machine.execRot w s
  | .clz w => Sys2Proof.Machine.execClz w s
  | .ctz w => Sys2Proof.Machine.execCtz w s
  | .popc w => Sys2Proof.Machine.execPopc w s
  | .bext w => Sys2Proof.Machine.execBext w s
  | .bins w => Sys2Proof.Machine.execBins w s
  | .min w => Sys2Proof.Machine.execMin w s
  | .max w => Sys2Proof.Machine.execMax w s
  | .mins w => Sys2Proof.Machine.execMins w s
  | .maxs w => Sys2Proof.Machine.execMaxs w s
  | .cmp w => Sys2Proof.Machine.execCmp w s
  | .sel w => Sys2Proof.Machine.execSel w s
  | .addi w => Sys2Proof.Machine.execAddi w s
  | .andi w => Sys2Proof.Machine.execAndi w s
  | .ori w => Sys2Proof.Machine.execOri w s
  | .xori w => Sys2Proof.Machine.execXori w s
  | .shli w => Sys2Proof.Machine.execShli w s
  | .shri w => Sys2Proof.Machine.execShri w s
  | .srai w => Sys2Proof.Machine.execSrai w s
  | .ldi w => Sys2Proof.Machine.execLdi w s
  | .ldih w => Sys2Proof.Machine.execLdih w s
  | .lea w => Sys2Proof.Machine.execLea w s
  | .br w => Sys2Proof.Machine.execBr w s
  | .j w => Sys2Proof.Machine.execJ w s
  | .call w => Sys2Proof.Machine.execCall w s
  | .jr w => Sys2Proof.Machine.execJr w s
  | .callr w => Sys2Proof.Machine.execCallr w s
  | .ret w => Sys2Proof.Machine.execRet w s
  | .loopm w => Sys2Proof.Machine.execLoopm w s
  | .ld w => Sys2Proof.Machine.execLd w s
  | .ldx w => Sys2Proof.Machine.execLdx w s
  | .st w => Sys2Proof.Machine.execSt w s
  | .pref w => Sys2Proof.Machine.execPref w s
  | .vld w => Sys2Proof.Machine.execVld w s
  | .vst w => Sys2Proof.Machine.execVst w s
  | .vlds w => Sys2Proof.Machine.execVlds w s
  | .vgath w => Sys2Proof.Machine.execVgath w s
  | .vscat w => Sys2Proof.Machine.execVscat w s
  | .aadd w => Sys2Proof.Machine.execAadd w s
  | .amin w => Sys2Proof.Machine.execAmin w s
  | .amax w => Sys2Proof.Machine.execAmax w s
  | .aand w => Sys2Proof.Machine.execAand w s
  | .aor w => Sys2Proof.Machine.execAor w s
  | .axor w => Sys2Proof.Machine.execAxor w s
  | .axchg w => Sys2Proof.Machine.execAxchg w s
  | .acas w => Sys2Proof.Machine.execAcas w s
  | .afadd w => Sys2Proof.Machine.execAfadd w s
  | .afamax w => Sys2Proof.Machine.execAfamax w s
  | .fence w => Sys2Proof.Machine.execFence w s
  | .xfence w => Sys2Proof.Machine.execXfence w s
  | .mark w => Sys2Proof.Machine.execMark w s
  | .semw w => Sys2Proof.Machine.execSemw w s
  | .sems w => Sys2Proof.Machine.execSems w s
  | .semi w => Sys2Proof.Machine.execSemi w s
  | .semr w => Sys2Proof.Machine.execSemr w s
  | .pbar w => Sys2Proof.Machine.execPbar w s
  | .acqs w => Sys2Proof.Machine.execAcqs w s
  | .rels w => Sys2Proof.Machine.execRels w s
  | .waittAny w => Sys2Proof.Machine.execWaittAny w s
  | .waittAll w => Sys2Proof.Machine.execWaittAll w s
  | .ffrt w => Sys2Proof.Machine.execFfrt w s
  | .vadd w => Sys2Proof.Machine.execVadd w s
  | .vsub w => Sys2Proof.Machine.execVsub w s
  | .vmul w => Sys2Proof.Machine.execVmul w s
  | .vmad w => Sys2Proof.Machine.execVmad w s
  | .vmin w => Sys2Proof.Machine.execVmin w s
  | .vmax w => Sys2Proof.Machine.execVmax w s
  | .vand w => Sys2Proof.Machine.execVand w s
  | .vor w => Sys2Proof.Machine.execVor w s
  | .vxor w => Sys2Proof.Machine.execVxor w s
  | .vshl w => Sys2Proof.Machine.execVshl w s
  | .vshr w => Sys2Proof.Machine.execVshr w s
  | .vsra w => Sys2Proof.Machine.execVsra w s
  | .vcmp w => Sys2Proof.Machine.execVcmp w s
  | .vsel w => Sys2Proof.Machine.execVsel w s
  | .vabs w => Sys2Proof.Machine.execVabs w s
  | .vpopc w => Sys2Proof.Machine.execVpopc w s
  | .vclz w => Sys2Proof.Machine.execVclz w s
  | .vfadd w => Sys2Proof.Machine.execVfadd w s
  | .vfsub w => Sys2Proof.Machine.execVfsub w s
  | .vfmul w => Sys2Proof.Machine.execVfmul w s
  | .vfma w => Sys2Proof.Machine.execVfma w s
  | .vfmin w => Sys2Proof.Machine.execVfmin w s
  | .vfmax w => Sys2Proof.Machine.execVfmax w s
  | .vfcmp w => Sys2Proof.Machine.execVfcmp w s
  | .vfabs w => Sys2Proof.Machine.execVfabs w s
  | .vfneg w => Sys2Proof.Machine.execVfneg w s
  | .vexp2 w => Sys2Proof.Machine.execVexp2 w s
  | .vlog2 w => Sys2Proof.Machine.execVlog2 w s
  | .vrcp w => Sys2Proof.Machine.execVrcp w s
  | .vrsq w => Sys2Proof.Machine.execVrsq w s
  | .vsqrt w => Sys2Proof.Machine.execVsqrt w s
  | .veadd w => Sys2Proof.Machine.execVeadd w s
  | .vmov w => Sys2Proof.Machine.execVmov w s
  | .vbcast w => Sys2Proof.Machine.execVbcast w s
  | .vext w => Sys2Proof.Machine.execVext w s
  | .vins w => Sys2Proof.Machine.execVins w s
  | .vperm w => Sys2Proof.Machine.execVperm w s
  | .vcomp w => Sys2Proof.Machine.execVcomp w s
  | .viota w => Sys2Proof.Machine.execViota w s
  | .vcvt w => Sys2Proof.Machine.execVcvt w s
  | .vqnt w => Sys2Proof.Machine.execVqnt w s
  | .vqntSc w => Sys2Proof.Machine.execVqntSc w s
  | .vdqnt w => Sys2Proof.Machine.execVdqnt w s
  | .vscl w => Sys2Proof.Machine.execVscl w s
  | .kand w => Sys2Proof.Machine.execKand w s
  | .kor w => Sys2Proof.Machine.execKor w s
  | .kxor w => Sys2Proof.Machine.execKxor w s
  | .knot w => Sys2Proof.Machine.execKnot w s
  | .kmov w => Sys2Proof.Machine.execKmov w s
  | .kmovL64ToMask w => Sys2Proof.Machine.execKmovL64ToMask w s
  | .kmovH64ToMask w => Sys2Proof.Machine.execKmovH64ToMask w s
  | .kmovL64ToScalar w => Sys2Proof.Machine.execKmovL64ToScalar w s
  | .kmovH64ToScalar w => Sys2Proof.Machine.execKmovH64ToScalar w s
  | .kpop w => Sys2Proof.Machine.execKpop w s
  | .kff w => Sys2Proof.Machine.execKff w s
  | .vrsum w => Sys2Proof.Machine.execVrsum w s
  | .vrmax w => Sys2Proof.Machine.execVrmax w s
  | .vrmin w => Sys2Proof.Machine.execVrmin w s
  | .vrfsum w => Sys2Proof.Machine.execVrfsum w s
  | .vrfmax w => Sys2Proof.Machine.execVrfmax w s
  | .vramax w => Sys2Proof.Machine.execVramax w s
  | .vrarg w => Sys2Proof.Machine.execVrarg w s
  | .mlds w => Sys2Proof.Machine.execMlds w s
  | .mswap w => Sys2Proof.Machine.execMswap w s
  | .mstrm w => Sys2Proof.Machine.execMstrm w s
  | .mdrn w => Sys2Proof.Machine.execMdrn w s
  | .mzero w => Sys2Proof.Machine.execMzero w s
  | .meadd w => Sys2Proof.Machine.execMeadd w s
  | .mscl w => Sys2Proof.Machine.execMscl w s
  | .mstat w => Sys2Proof.Machine.execMstat w s
  | .mlunge w => Sys2Proof.Machine.execMlunge w s
  | .mwaitd w => Sys2Proof.Machine.execMwaitd w s
  | .mfeed w => Sys2Proof.Machine.execMfeed w s
  | .mdack w => Sys2Proof.Machine.execMdack w s
  | .mstop w => Sys2Proof.Machine.execMstop w s
  | .strb w => Sys2Proof.Machine.execStrb w s
  | .stru w => Sys2Proof.Machine.execStru w s
  | .strq w => Sys2Proof.Machine.execStrq w s
  | .strs w => Sys2Proof.Machine.execStrs w s
  | .bteg w => Sys2Proof.Machine.execBteg w s
  | .tmpli w => Sys2Proof.Machine.execTmpli w s
  | .bcall w => Sys2Proof.Machine.execBcall w s
  | .bstat w => Sys2Proof.Machine.execBstat w s
  | .kvho w => Sys2Proof.Machine.execKvho w s
  | .btinv w => Sys2Proof.Machine.execBtinv w s
  | .expf w => Sys2Proof.Machine.execExpf w s
  | .expq w => Sys2Proof.Machine.execExpq w s
  | .lxjob w => Sys2Proof.Machine.execLxjob w s
  | .pxhash w => Sys2Proof.Machine.execPxhash w s
  | .pxhashRoot w => Sys2Proof.Machine.execPxhashRoot w s
  | .pxlook w => Sys2Proof.Machine.execPxlook w s
  | .pxins w => Sys2Proof.Machine.execPxins w s
  | .pxpub w => Sys2Proof.Machine.execPxpub w s
  | .pxrel w => Sys2Proof.Machine.execPxrel w s
  | .trap w => Sys2Proof.Machine.execTrap w s
  | .reti w => Sys2Proof.Machine.execReti w s
  | .halt w => Sys2Proof.Machine.execHalt w s
  | .cont w => Sys2Proof.Machine.execCont w s
  | .nop w => Sys2Proof.Machine.execNop w s
  | .bkpt w => Sys2Proof.Machine.execBkpt w s
  | .yield w => Sys2Proof.Machine.execYield w s
  | .ckpt w => Sys2Proof.Machine.execCkpt w s
  | .mfc w => Sys2Proof.Machine.execMfc w s
  | .mtc w => Sys2Proof.Machine.execMtc w s
  | .beat w => Sys2Proof.Machine.execBeat w s
  | .spawn w => Sys2Proof.Machine.execSpawn w s
  | .join w => Sys2Proof.Machine.execJoin w s
  | .nopw w => Sys2Proof.Machine.execNopw w s
  | .bset w => Sys2Proof.Machine.execBset w s
  | .bsetAdd w => Sys2Proof.Machine.execBsetAdd w s
  | .loopw w => Sys2Proof.Machine.execLoopw w s
  | .endw w => Sys2Proof.Machine.execEndw w s
  | .jmpw w => Sys2Proof.Machine.execJmpw w s
  | .haltw w => Sys2Proof.Machine.execHaltw w s
  | .semww w => Sys2Proof.Machine.execSemww w s
  | .semsw w => Sys2Proof.Machine.execSemsw w s
  | .markw w => Sys2Proof.Machine.execMarkw w s
  | .resw w => Sys2Proof.Machine.execResw w s
  | .bcast w => Sys2Proof.Machine.execBcast w s
  | .accz w => Sys2Proof.Machine.execAccz w s
  | .dotK4 w => Sys2Proof.Machine.execDotK4 w s
  | .dotK4Cont w => Sys2Proof.Machine.execDotK4Cont w s
  | .dotKv w => Sys2Proof.Machine.execDotKv w s
  | .axpy w => Sys2Proof.Machine.execAxpy w s
  | .cvt w => Sys2Proof.Machine.execCvt w s
  | .drn w => Sys2Proof.Machine.execDrn w s
  | .kvwK w => Sys2Proof.Machine.execKvwK w s
  | .kvwV w => Sys2Proof.Machine.execKvwV w s
  | .rdw w => Sys2Proof.Machine.execRdw w s
  | .wrw w => Sys2Proof.Machine.execWrw w s
  | .spdmSecuredSession up => Sys2Proof.Machine.execSpdmSecuredSession up s
  | .hostLinkTraining lanes rate flit => Sys2Proof.Machine.execHostLinkTraining lanes rate flit s
  | .registerWindowRead src off size => Sys2Proof.Machine.execRegisterWindowRead src off size s
  | .illegalOpcode word => Sys2Proof.Machine.execIllegalOpcode word s
  | .illegalWord word => Sys2Proof.Machine.execIllegalWord word s
  | .powerOn => Sys2Proof.Machine.execPowerOn s
  | .powerLoss => Sys2Proof.Machine.execPowerLoss s
  | .pcieFundamentalReset => Sys2Proof.Machine.execPcieFundamentalReset s
  | .functionLevelReset => Sys2Proof.Machine.execFunctionLevelReset s
  | .bootRomSelfCheck => Sys2Proof.Machine.execBootRomSelfCheck s
  | .readBoardLimits => Sys2Proof.Machine.execReadBoardLimits s
  | .measureImage => Sys2Proof.Machine.execMeasureImage s
  | .trainChannels => Sys2Proof.Machine.execTrainChannels s
  | .bguSelfTest => Sys2Proof.Machine.execBguSelfTest s
  | .clearLoft => Sys2Proof.Machine.execClearLoft s
  | .calibrateLoadModel => Sys2Proof.Machine.execCalibrateLoadModel s
  | .featureNegotiation => Sys2Proof.Machine.execFeatureNegotiation s
  | .stepTimeout => Sys2Proof.Machine.execStepTimeout s
  | .loadImage => Sys2Proof.Machine.execLoadImage s
  | .resync => Sys2Proof.Machine.execResync s
  | .spdmMeasurementReport => Sys2Proof.Machine.execSpdmMeasurementReport s
  | .queueResetDone => Sys2Proof.Machine.execQueueResetDone s
  | .ctxInvalidateDone => Sys2Proof.Machine.execCtxInvalidateDone s
  | .workEntryRead => Sys2Proof.Machine.execWorkEntryRead s
  | .entryReread => Sys2Proof.Machine.execEntryReread s
  | .operatorRecordExpand => Sys2Proof.Machine.execOperatorRecordExpand s
  | .launch => Sys2Proof.Machine.execLaunch s
  | .copy => Sys2Proof.Machine.execCopy s
  | .copyEnd => Sys2Proof.Machine.execCopyEnd s
  | .confCopy => Sys2Proof.Machine.execConfCopy s
  | .confCopyTagCheck => Sys2Proof.Machine.execConfCopyTagCheck s
  | .ingest => Sys2Proof.Machine.execIngest s
  | .ingestEnd => Sys2Proof.Machine.execIngestEnd s
  | .handleSet => Sys2Proof.Machine.execHandleSet s
  | .handleFree => Sys2Proof.Machine.execHandleFree s
  | .launchRetire => Sys2Proof.Machine.execLaunchRetire s
  | .entryCompletion => Sys2Proof.Machine.execEntryCompletion s
  | .continuationPop => Sys2Proof.Machine.execContinuationPop s
  | .engineJobDispatch => Sys2Proof.Machine.execEngineJobDispatch s
  | .engineJobEnd => Sys2Proof.Machine.execEngineJobEnd s
  | .forcedSave => Sys2Proof.Machine.execForcedSave s
  | .deadlineMiss => Sys2Proof.Machine.execDeadlineMiss s
  | .thermalSample => Sys2Proof.Machine.execThermalSample s
  | .modelledPowerSample => Sys2Proof.Machine.execModelledPowerSample s
  | .governorWindowStart => Sys2Proof.Machine.execGovernorWindowStart s
  | .refreshEnd => Sys2Proof.Machine.execRefreshEnd s
  | .ordinaryAccess => Sys2Proof.Machine.execOrdinaryAccess s
  | .reductionBlockConvert => Sys2Proof.Machine.execReductionBlockConvert s
  | .bankJobEnd => Sys2Proof.Machine.execBankJobEnd s
  | .expertFetchComplete => Sys2Proof.Machine.execExpertFetchComplete s
  | .expertTimeout => Sys2Proof.Machine.execExpertTimeout s
  | .matrixRowLand => Sys2Proof.Machine.execMatrixRowLand s
  | .mstrmStampStart => Sys2Proof.Machine.execMstrmStampStart s
  | .lungeOperandDemand => Sys2Proof.Machine.execLungeOperandDemand s
  | .lungeRowDue => Sys2Proof.Machine.execLungeRowDue s
  | .interrupt => Sys2Proof.Machine.execInterrupt s
  | .tdiLock => Sys2Proof.Machine.execTdiLock s
  | .tdiStart => Sys2Proof.Machine.execTdiStart s
  | .instructionFetchFault => Sys2Proof.Machine.execInstructionFetchFault s

end Sys2Proof.Machine
end

