-- ==== Sys2Proof/Machine/Turn.lean ====
section
/-! DEFINITION. What each agent does when its turn comes: a core takes a cause of its boundary or issues the word at the front
of its triple (R163, R168, R176), a port of a bank job runs one word (R121, R124), a beat passes; and which agent moves when
nothing outside says so (DESIGN CHOICE, log 3). -/

namespace Sys2Proof.Machine

/-! ### A core's turn -/

/-- A forced save is due: a pre-emption is requested and the interval has passed (R182). -/
def Core.savesNow (c : Core) (beat : Nat) : Bool := c.preemptReq && decide (c.ckptAt + c.ckptInt ≤ beat)

/-- The take of INTSEM stands at the head of its queue, and the count covers it (R180). -/
def State.interruptDue (s : State) : Bool :=
  match s.core.intTake with
  | none => false
  | some (n, id) => !s.core.tm && ((s.sem n).takes.head?.map (·.id)) == some id && decide (1 ≤ (s.sem n).count)

/-- An annulled or squashed slot: no effect, but a slot of its own (R168, R174, R184). -/
def State.annulledSlot (s : State) : State :=
  let c := s.core
  (s.setCore ((c.goOn.advance none).spend s.beat)).retired (c.ss && !c.tm)

/-- The word at the front of the triple is fetched, decoded and issued, or its slot is annulled (R168, R174). A word in a bank in refresh is
waited for (R13). -/
def issueSlot (s : State) : Result :=
  let c := s.core
  if c.a0 || c.looping.any LoopSt.squashed then .next s.annulledSlot
  else
    match s.fetch with
    | (_, .error _) => exec .instructionFetchFault s
    | (t, .ok w) => if t.unserved then .next s else exec (decodeCore w.toNat) t

/-- The first cause of the boundary that is taken before an instruction: a forced save, then BUDGET_OVERRUN, PREEMPT and
INTERRUPT (R176, R182). -/
def boundaryCause (s : State) : Option Result :=
  let c := s.core
  if c.savesNow s.beat then some (exec .forcedSave s)
  else if c.budgetTrap && !c.tm then some (.next ((s.modCore fun c => { c with budgetTrap := false }).takeTrap { code := 0x30 }))
  else if c.resumed && !c.tm then some (.next ((s.modCore fun c => { c with resumed := false }).takeTrap { code := 0x38 }))
  else if s.interruptDue then some (exec .interrupt s)
  else none

/-- One turn of the core whose turn it is. No boundary follows an empty slot (R365); a stalled instruction takes what it waits for when
its turn comes, once nothing is taken at the boundary before it (R291; DEDUCED, log 53). -/
def coreTurn (s : State) : Result :=
  if !s.core.running then .next s
  else if s.core.hollow then issueSlot (s.modCore fun c => { c with hollow := false })
  else
    match boundaryCause s with
    | some r => r
    | none => issueSlot s

/-! ### A port's turn -/

/-- The port can use its MCS. -/
def Port.wants (p : Port) (j : Job) : Bool := j.phase == .running && !p.halted && p.stopped.isNone && p.onExpert.isNone

/-- A port that had given its MCS up takes it when it is free (R121, R144). -/
def State.takeMcs (s : State) (j : Job) (p : Port) : State :=
  let m := s.mcsAt p.die
  if p.wants j && m.holder.isNone then s.setMcs p.die { m with holder := some j.id } else s

/-- One turn of the port whose turn it is: its next word is fetched and run, or the one that has begun goes on (R124). -/
def portTurn (s : State) : Result :=
  match s.job? s.subj.job, s.bankJob? s.subj.job with
  | some j, some b =>
    match b.port? s.subj.port with
    | none => .next s
    | some p =>
      let s := s.takeMcs j p
      if !(s.portRuns j p) then .next s
      else
        match s.fetchPort j p with
        | (t, .error f) => .next ((WordEnd.suspend t p f.1 f.2).settle b.id)
        | (t, .ok w) =>
          if t.unserved then .next s else exec (decodeBank w.toNat) (t.setPort b.id { p with word := some w, ran := some w })
  | _, _ => .next s

/-! ### A beat passes -/

/-- The array holds the job on this beat: an MDRN is held until its last row has been read (R69, R195). -/
def Job.holdsArray (j : Job) : Bool :=
  j.phase == .running && match j.kind with
    | .mdrn _ => j.until_ == 0
    | _ => true

/-- Core-beats and array beats that an entry is charged for a beat (R69). -/
def State.chargeBeat (s : State) (e : Entry) : Entry :=
  let cores := (s.cores.toList.filter fun c => c.running && c.entry == e.id).length
  let arrays := ((List.range 8).filter fun y => s.jobs.any fun j => j.unit == .array y && j.holdsArray && j.entry == e.id).length
  { e with used := (e.used.add .cores cores).add .matrix arrays }

/-- The entry has an item ready and not dispatched (R62). -/
def State.waits (s : State) (e : Entry) : Bool :=
  (s.ready.any fun r => r.entry == e.id && r.gate.isNone)
    || (s.launches.any fun l => l.entry == e.id && decide (l.next < l.body.count))
    || s.jobs.any fun j => j.entry == e.id && j.phase == .queued && decide (j.ready ≤ s.beat) && s.tookUnit j

/-- A core with the scoreboarded results that exist on this beat (R164). -/
def Core.landLate (c : Core) (beat : Nat) : Core := if c.flight.isEmpty then c else c.landDue beat

/-- One beat passes: arrays go on, meters and waits count, the ballast of the beat settles and counts, scoreboarded results land, and
requests that waited take effect. With all clocks stopped nothing counts (R9, R24, R55, R62, R69, R75, R164). -/
def State.passBeat (s : State) : State :=
  if s.gov.stopped then s
  else
    let t := s.arraysBeat
    let aged := t.entries.map fun e =>
      let e := s.chargeBeat e
      if s.waits e && e.dispatchedAt != some s.beat then { e with wait := e.wait + 1 } else e
    let s := { t with entries := aged }.settleBallast
    let yards := s.yards.map fun (y : Yard) => if y.ballastMw = 0 then y else { y with ballast := (y.ballast + 1) % 2 ^ 64 }
    let cores := s.cores.map fun (c : Core) => c.landLate (s.beat + 1)
    let s := { s with beat := s.beat + 1, round := 0, yards := yards, cores := cores }
    s.settleKeys.settleReads

/-! ### The device's own events that are due (DESIGN CHOICE, log 3) -/

/-- The step of a start that runs now (R27, Table 2.2). -/
def Boot.due (b : Boot) : Option Instr :=
  match b.state with
  | 1 => some .bootRomSelfCheck
  | 2 => some .readBoardLimits
  | 4 => if b.image.isSome then some .measureImage else none
  | 5 => some .trainChannels
  | 6 => some .bguSelfTest
  | 7 => some .clearLoft
  | 8 => some .calibrateLoadModel
  | 9 => if b.commit then some .featureNegotiation else none
  | _ => none

/-- An event on the subject that `set` names. -/
def State.act (s : State) (i : Instr) (set : Subject → Subject := id) : Action := .event i (set s.subj)

/-- Power comes on, a step of a start runs or is late, or a sample or a window of the governor is due (DESIGN CHOICE, log 52). -/
def State.dueStart (s : State) : Option Action :=
  if s.boot.state = 0 then some (s.act .powerOn)
  else if s.stepLate then some (s.act .stepTimeout)
  else
    match s.boot.due with
    | some i => some (s.act i)
    | none =>
      if s.gov.thermalAt ≤ s.beat then some (s.act .thermalSample)
      else if s.gov.sampleAt ≤ s.beat then some (s.act .modelledPowerSample)
      else if s.windowDue then some (s.act .governorWindowStart)
      else none

/-- A missed deadline before the overruns, those in the order of R71. -/
def State.duePolicy (s : State) : Option Action :=
  let on := fun (e : Entry) (i : Instr) => s.act i fun u => { u with entry := e.id }
  match s.entries.find? (·.misses s.beat) with
  | some e => some (on e .deadlineMiss)
  | none => s.entries.findSome? fun e =>
      ([MeterClass.cores, .matrix, .bank, .copy].find? e.overruns).map fun c => on e (.budgetOverrun c)

/-- The core with an index, as the one whose turn it is; it has made no read in this turn. -/
def State.onCore (s : State) (c : Fin 64) : State := { s with subj := { s.subj with core := c }, served := 0 }

/-- A result under full/empty bits has come (R166). -/
def State.dueFill (s : State) : Option Action :=
  (List.finRange 64).findSome? fun c =>
    let t := s.onCore c
    if !t.core.running then none
    else t.core.flight.zipIdx.findSome? fun x =>
      if x.1.arrived s.beat && !(t.core.overtakes x.1 x.2) && (t.sampled x.1).isSome then some (s.act (.fullEmptyResultFill x.2) fun u => { u with core := c }) else none

/-- An event of a matrix array: a landing, a row that is due, a demand, a stamped start. -/
def State.dueArray (s : State) : Option Action :=
  let perYard := (List.finRange 8).findSome? fun y =>
    let on := fun (i : Instr) => some (s.act i fun u => { u with yard := y })
    let a := s.arr y
    if s.landingDue y then on .matrixRowLand
    else
      match a.lunge with
      | none => none
      | some l =>
        if !(s.lungeRuns l) || l.failed then none
        else if decide (l.next < l.limit) && decide (l.due l.next ≤ s.beat) then on .lungeRowDue
        else if decide (l.demandRow < l.limit) && decide (l.due l.demandRow ≤ s.beat + l.look) then on .lungeOperandDemand
        else none
  match perYard with
  | some a => some a
  | none => (s.jobs.find? fun j => (s.stampDue j).isSome).map fun j => s.act .mstrmStampStart fun u => { u with job := j.id }

/-- An event of a memory channel: a pause that ends, a conversion, the end of a bank job, a wait that has lasted too long. -/
def State.dueBank (s : State) : Option Action :=
  match s.pauses.find? (fun x => decide (x.2.2 ≤ s.beat)) with
  | some x => some (s.act .refreshEnd fun u => { u with bgu := x.1 })
  | none => s.bankJobs.findSome? fun b =>
      let on := fun (i : Instr) => some (s.act i fun u => { u with job := b.id })
      if b.ended then none
      else
        match b.ports.find? (fun p => !p.blocks.isEmpty) with
        | some p => some (s.act .reductionBlockConvert fun u => { u with job := b.id, port := p.die })
        | none =>
          if s.bankEnds b then on .bankJobEnd
          else if b.ports.any (s.expertLate b) then on .expertTimeout
          else none

/-- An event of a job: the end of a fetch, or the end of a core's job. -/
def State.dueJob (s : State) : Option Action :=
  match s.experts.find? (fun x => s.fetchClear x.1) with
  | some x => some (s.act .expertFetchComplete fun u => { u with expert := x.1 })
  | none => (s.jobs.find? fun j => j.cont != 0 && j.isOver).map fun j => s.act .engineJobEnd fun u => { u with job := j.id }

/-- The job of an entry's record is over. -/
def State.recordOver (s : State) (e : Entry) : Bool :=
  (s.recordJob? e.id).any Job.isOver

/-- What an entry's record does next (R47). -/
def State.recordDue (s : State) (e : Entry) : Option Instr :=
  match e.op with
  | some (.launch _, .shadow) => some .launch
  | some (.copy _, .shadow) => if s.powerFits e.id || s.asksSlots e then some .copy else none
  | some (.confCopy _, .shadow) => some .confCopy
  | some (.confCopy _, .finishing _ _) => some .confCopyTagCheck
  | some (.ingest r, .shadow) =>
    if !(s.recordOk e (.ingest r)) || !(s.ingestWaits e r) || s.asksSlots e then some .ingest else none
  | some (.handleSet _, .shadow) => some .handleSet
  | some (.handleFree _, .shadow) => some .handleFree
  | some (.launch _, .running) => if e.hwJoin = 0 && !(s.working e.id) then some .launchRetire else none
  | some (.copy _, .running) => if s.recordOver e then some .copyEnd else none
  | some (.ingest _, .running) => if s.recordOver e then some .ingestEnd else none
  | _ => none

/-- An event of the front end: a record, the reading of one, or a completion. -/
def State.dueEntry (s : State) : Option Action :=
  if s.beat < s.firmAt then none else s.entries.findSome? fun e =>
    let on := fun (i : Instr) => some (s.act i fun u => { u with entry := e.id })
    if e.isOver && !(s.working e.id) then on .entryCompletion
    else if e.status.isSome then none
    else
      match s.recordDue e with
      | some i => on i
      | none => if e.expands then on .operatorRecordExpand else none

/-- An event of a queue or a context: a reset or an invalidation that ends, an entry to read. -/
def State.dueQueue (s : State) : Option Action :=
  let perQueue := s.queues.findSome? fun x =>
    let on := fun (i : Instr) => some (s.act i fun u => { u with queue := x.1 })
    if s.resetEnds x.1 then on .queueResetDone
    else if s.beat < s.firmAt then none
    else if s.rereads x.1 then on .entryReread
    else if s.consumes x.1 && x.2.parked.isNone then on .workEntryRead
    else none
  match perQueue with
  | some a => some a
  | none => ((List.range 64).find? s.invalEnds).map fun c => s.act .ctxInvalidateDone fun u => { u with ctx := c }

/-- A pre-emption (R64). -/
def State.duePreemption (s : State) : Option Action :=
  match (List.finRange 64).find? (fun c => s.coreVictim c.val) with
  | some c => some (s.act (.preemption (.core c)))
  | none =>
    match (List.finRange 8).find? (fun y => (s.arr y).lunge.any (s.runVictim y)) with
    | some y => some (s.act (.preemption (.matrix y)))
    | none => (s.jobs.find? s.bankVictim).map fun j => s.act (.preemption (.bank j.id))

/-- The transfer unit of a stream has something to do (R173, R311). -/
def Stream.moves (b : Stream) : Bool :=
  b.fault.isNone && if b.isWrite then !b.buf.isEmpty
    else decide (b.buf.length < Config.streamDepth) && decide (b.pos + 1024 / elemBits b.fmt * b.buf.length < b.total)

/-- A dispatch: a job to its unit, a stream's next vector, or a continuation to an idle core in ascending index (R63). -/
def State.dueDispatch (s : State) : Option Action :=
  match s.jobs.find? (fun j => if (s.cancelled j).isSome then j.pending else s.copyGoesOn j || (s.clearDue j).isSome || s.nextOnUnit j) with
  | some j => some (s.act .engineJobDispatch fun u => { u with job := j.id })
  | none =>
    let stream := (List.finRange 64).findSome? fun c =>
      let x := s.cores[c]
      if !x.running then none
      else ((List.finRange 16).find? fun q => x.q[q].any Stream.moves).map fun q => s.act (.streamTransfer q) fun u => { u with core := c }
    match stream with
    | some a => some a
    | none =>
      if s.boot.state ≠ stReady || s.items.isEmpty || decide (s.beat < s.firmAt) then none
      else ((List.finRange 64).find? fun c => !s.cores[c].running && (s.popChoice c.val).isSome).map fun c =>
        s.act .continuationPop fun u => { u with core := c }

/-- The first event of the device that is due. -/
def State.dueEvent (s : State) : Option Action :=
  s.dueStart <|> s.duePolicy <|> s.dueFill <|> s.dueArray <|> s.dueBank <|> s.dueJob <|> s.dueEntry <|> s.dueQueue
    <|> s.duePreemption <|> s.dueDispatch

/-! ### Turns within a beat (DESIGN CHOICE, log 3) -/

/-- The bank job whose port on MCS[d] has its turn: the holder, or of the running ones that wait for the MCS the one with the
least key. -/
def State.portJob (s : State) (d : Nat) : Option Nat :=
  match (s.mcsAt d).holder with
  | some id => some id
  | none =>
    let waiting := s.jobs.filter fun j => (s.bankJob? j.id).any fun b => (b.port? d).any fun p => p.wants j
    (argMin? (fun a b => keyLess (s.jobKey a) (s.jobKey b)) waiting).map (·.id)

/-- The continuation has been popped on this beat: its first instruction issues on the next (R161). -/
def Core.justPopped (c : Core) (beat : Nat) : Bool := c.slot == 0 && c.ckptAt == beat && c.flight.isEmpty && decide (0 < beat)

/-- Once no event is due, the running cores take their turns in a beat, then the ports of the bank jobs, then one line of
waiting writes enters its array, then the beat passes. -/
def State.nextTurn (s : State) : Action × Nat :=
  match (List.finRange 64).find? (fun c => decide (s.round ≤ c.val) && s.cores[c].running && !(s.cores[c].justPopped s.beat)) with
  | some c => (.core c, c.val + 1)
  | none =>
    match (List.range 48).findSome? (fun d => if s.round ≤ 64 + d then (s.portJob d).map (·, d) else none) with
    | some (j, d) => (.port j d, 65 + d)
    | none => if s.round ≤ 112 && !s.wq.isEmpty then (s.act .ordinaryAccess, 113) else (.tick, 0)

/-- What moves when the agenda is empty. -/
def State.defaultMove (s : State) : Action × State :=
  match s.dueEvent with
  | some a => (a, s)
  | none => (s.nextTurn.1, { s with round := s.nextTurn.2 })

/-! ### One action -/

/-- A device event: it has no word that a core or a port could fetch. -/
def isEvent (i : Instr) : Bool := (encode i).isNone

/-- One action. An instruction runs only where an agent fetches it. -/
def runAction (a : Action) (s : State) : Result :=
  match a with
  | .event i u => if isEvent i then exec i { s with subj := u, served := 0 } else .next s
  | .core c => coreTurn (s.onCore c)
  | .port j d => portTurn { s with subj := { s.subj with job := j, port := d }, served := 0 }
  | .tick => .next { s with served := 0 }.passBeat

/-- The actions that act while all clocks stand: those that begin a cold start, and the loss of power (R24, R25). -/
def wakes (a : Action) : Bool :=
  match a with
  | .event .powerOn _ => true
  | .event .powerLoss _ => true
  | .event .pcieFundamentalReset _ => true
  | .event (.bootCtlColdStart _) _ => true
  | .event (.registerWrite _ off _ _) _ => decide (off / 8 = 2)
  | _ => false

end Sys2Proof.Machine
end

