-- ==== Sys2Proof/Machine/Step.lean ====
section
/-! DEFINITION. One step of the device, and how the host's checks place one instruction where the next step fetches it
(DESIGN CHOICE, log 5). -/

namespace Sys2Proof.Machine

/-- The next action, and the state it acts on: the head of the agenda, or the model's own choice (DESIGN CHOICE, log 3). -/
def State.nextMove (s : State) : Action × State :=
  match s.agenda with
  | a :: rest => (a, { s with agenda := rest })
  | [] => s.defaultMove

/-- One step: the next action. With all clocks stopped the device waits for a cold start (R24; DESIGN CHOICE, log 66). -/
def step (s : State) : Host.Outcome State Fault Refusal :=
  if s.gov.stopped && !(wakes s.nextMove.1) then .fault .clocksStopped else runAction s.nextMove.1 s.nextMove.2

/-! ### Placing one instruction (DESIGN CHOICE, log 5) -/

/-- Where the placed instruction lies: the same virtual and physical address. -/
def fetchAt : Nat := 0x1000

/-- The root table, and the level 1 table, that map the first GiB to itself. -/
def placedRoot : Nat := 0x200000
def placedLevel1 : Nat := 0x400000

/-- A leaf of 1 GiB at frame 0 with every permission and path (Table 5.2). -/
def placedLeaf : Nat := 0x3F03000000000000 + 0x1F

/-- Bytes stored in the arrays. -/
def storeCode (m : Memory) (a : Nat) : List Byte → Memory
  | [] => m
  | b :: bs => storeCode (Memory.write m a b) (a + 1) bs

/-- The word and the two table entries in memory. -/
def placedMemory (m : Memory) (nbytes w : Nat) : Memory :=
  storeCode (storeCode (storeCode m fetchAt (leBytes nbytes w)) placedRoot (leBytes 8 (placedLevel1 + 1))) placedLevel1
    (leBytes 8 placedLeaf)

/-- A READY device in which context 0 is live and maps the first GiB to itself, with the word stored (DESIGN CHOICE, log 5). -/
def State.withCode (s : State) (nbytes w : Nat) : State :=
  { s with
    boot := { s.boot with state := stReady, accFeat := s.boot.accFeat.set 0 Config.devFeat0, committed := true },
    gov := { s.gov with stopped := false },
    mem := placedMemory s.mem nbytes w, wq := [], pauses := [],
    ctxs := (s.ctxs.map fun c => { c with held := [], stageLen := 0 }).set 0
      { s.ctxs[0] with live := true, root := placedRoot, held := [], stageLen := 0 },
    yards := s.yards.set 0 { s.yards[0] with tlb := [] },
    mcs := s.mcs.set 0 { s.mcs[0] with tlb := [] } }

/-- Core 0 runs a continuation of context 0 whose next word is the one placed. -/
def placedCore (c : Core) : Core :=
  let a : W64 := BitVec.ofNat 64 fetchAt
  { c with running := true, ctx := 0, f0 := a, f1 := a + 8, f2 := a + 16, a0 := false, a1 := false, loop := none,
           lattab := 0x0013100646842031, take := none, intTake := none, preemptReq := false, resumed := false, budgetTrap := false }

/-- A bank job of MCS[0] whose next word is the one placed. -/
def placedDesc : BankDesc :=
  { prog := BitVec.ofNat 64 fetchAt, ports := 1, btab := 0, blkFirst := 0, blkCount := 0, arg0 := 0, arg1 := 0, slot := 0, errsem := none }

def placedJob (id : Nat) : Job :=
  { id := id, kind := .bcall placedDesc {}, unit := .mcs 0, core := 0, cont := 0, entry := 0, ctx := 0, wait := none, sig := none,
    tag := none, ready := 0, phase := .running, begun := true }

def placedBank (id : Nat) : BankJob := { id := id, desc := placedDesc, tab := {}, ports := [freshPort placedDesc {} 0] }

/-- A state in which the next step fetches and runs the instruction with these bits: a core word on core 0, a bank-command
word on MCS[0] (DESIGN CHOICE, log 5). -/
def State.withFetchWord (s : State) (nbits w : Nat) : State :=
  if nbits = 48 then
    let t := s.withCode 6 w
    { t with
      jobs := placedJob s.fresh :: s.jobs, bankJobs := placedBank s.fresh :: s.bankJobs, fresh := s.fresh + 1,
      mcs := t.mcs.set 0 { t.mcs[0] with holder := some s.fresh }, agenda := .port s.fresh 0 :: s.agenda }
  else
    { s.withCode 8 w with cores := s.cores.set 0 (placedCore s.cores[0]), agenda := .core 0 :: s.agenda }

end Sys2Proof.Machine
end

