-- ==== Sys2Proof/Safety.lean ====
section
/-! DEFINITION. The terms in which claims are stated: steps that go on, states that steps reach, when an instruction issues
undisturbed, and the canonical form of the sparse maps of State. -/

namespace Sys2Proof.Machine

/-- The step from a state goes on: it neither faults nor is refused. -/
def State.goesOn (s : State) : Prop := ∃ t, step s = .next t

/-- One state leads to another by steps. -/
inductive Reaches : State → State → Prop where
  | here (s : State) : Reaches s s
  | later {s t u : State} (h : step s = .next t) (r : Reaches t u) : Reaches s u

/-- Memory and host memory in canonical form (log 2, log 9), and only bytes of package memory waiting in the write queues (R101). -/
def State.memoryWf (s : State) : Prop :=
  Memory.wf s.mem = true ∧ SMap.wf (0 : Byte) s.env.hostMem = true ∧ ∀ c ∈ s.wq, regionOf c.1 = .package

/-- A trap of the core whose turn it is finds a handler (R175, R179). -/
def State.handled (s : State) : Prop := s.core.tm = false ∧ s.core.tvec &&& ~~~7 ≠ 0

/-- No single-step trap follows the instruction that issues now (R184). -/
def State.unstepped (s : State) : Prop := (s.core.ss && !s.core.tm) = false

/-- The core whose turn it is stands at a boundary, meets nothing there and issues the word at the front of its triple (R168, R176). -/
def State.issues (s : State) : Prop :=
  s.core.running = true ∧ s.core.hollow = false ∧ boundaryCause s = none ∧ s.core.a0 = false ∧ s.core.looping.any LoopSt.squashed = false
    ∧ (s.core.resumed && !s.core.tm) = false

end Sys2Proof.Machine
end

