-- ==== Sys2Proof/Certificates/Slice0/Obligations.lean ====
section
/-! DEFINITION. The statements about this model that the provers are asked to prove, family by family, and the terms of
their own in which they are written (namespace Sys2Proof.Claims). -/

/-! ### Scalar instructions (R247-R252) -/

namespace Sys2Proof.Claims
open Sys2Proof.Machine

/-- An instruction that nothing keeps from its effect retires with this result (R163). -/
def gives (i : Instr) (s : State) (r : Req) (o : Outcome) : Prop :=
  r.ready s = true → exec i s = .next (s.finish r none o)

/-- A scalar A3 instruction that reads `n` sources gives S[d] this value, in this class. -/
def givesScalar (i : Instr) (op cls n : Nat) (ok : Bool) (w : A3) (s : State) (y : W64) : Prop :=
  gives i s (reqScalar op ok w n) { writes := [.s (specIdx w.d) y], cls := cls }

/-- An I32 instruction gives S[d] this value, in class 0. -/
def givesImm (i : Instr) (op : Nat) (ok reads : Bool) (w : I32) (s : State) (y : W64) : Prop :=
  gives i s (reqImm op ok w reads) { writes := [.s (specIdx w.d) y], cls := 0 }

/-- The condition of a code of Table 13.3. -/
def condition (code : Nat) (x y : W64) : Prop :=
  match code with
  | 0 => x = y
  | 1 => x ≠ y
  | 2 => x.toInt < y.toInt
  | 3 => y.toInt ≤ x.toInt
  | 4 => x.toNat < y.toNat
  | 5 => y.toNat ≤ x.toNat
  | 6 => x = 0
  | _ => x ≠ 0

/-- A number of ones. -/
def ones (x : W64) : Nat := ((List.range 64).filter fun i => x.getLsbD i).length

end Sys2Proof.Claims

open Sys2Proof Sys2Proof.Machine Sys2Proof.Claims in
/-- R248, Table 13.1: sums, products, bitwise operations and comparisons. -/
def Obligations.ScalarArithmetic : Prop :=
  ∀ (w : A3) (s : State),
    let x := s.srcS w.a
    let y := s.srcS w.b
    let z := s.srcS w.c
    givesScalar (.add w) 0x01 0 2 (checkAdd w) w s (x + y)
    ∧ givesScalar (.sub w) 0x02 0 2 (checkSub w) w s (x - y)
    ∧ givesScalar (.mul w) 0x03 1 2 (checkMul w) w s (x * y)
    ∧ givesScalar (.mulhi w) 0x04 1 2 (checkMulhi w) w s ((x.setWidth 128 * y.setWidth 128).extractLsb' 64 64)
    ∧ givesScalar (.mulhs w) 0x05 1 2 (checkMulhs w) w s ((x.signExtend 128 * y.signExtend 128).extractLsb' 64 64)
    ∧ givesScalar (.and w) 0x0A 0 2 (checkAnd w) w s (x &&& y)
    ∧ givesScalar (.or w) 0x0B 0 2 (checkOr w) w s (x ||| y)
    ∧ givesScalar (.xor w) 0x0C 0 2 (checkXor w) w s (x ^^^ y)
    ∧ givesScalar (.min w) 0x16 0 2 (checkMin w) w s (if y < x then y else x)
    ∧ givesScalar (.max w) 0x17 0 2 (checkMax w) w s (if x < y then y else x)
    ∧ givesScalar (.mins w) 0x18 0 2 (checkMins w) w s (if y.slt x then y else x)
    ∧ givesScalar (.maxs w) 0x19 0 2 (checkMaxs w) w s (if x.slt y then y else x)
    ∧ (∀ r : W64, (condition w.fn.toNat x y → r = 1) → (¬ condition w.fn.toNat x y → r = 0) →
        givesScalar (.cmp w) 0x1A 0 (if w.fn.toNat < 6 then 2 else 1) (checkCmp w) w s r)
    ∧ givesScalar (.sel w) 0x1B 0 3 (checkSel w) w s (if x = 0 then z else y)

open Sys2Proof Sys2Proof.Machine Sys2Proof.Claims in
/-- R249: the results of the divisions. Division by zero and the quotient that does not fit raise nothing. -/
def Obligations.Division : Prop :=
  ∀ (w : A3) (s : State),
    let x := s.srcS w.a
    let y := s.srcS w.b
    givesScalar (.div w) 0x06 2 2 (checkDiv w) w s (if y = 0 then 0xFFFFFFFFFFFFFFFF else x / y)
    ∧ givesScalar (.rem w) 0x08 2 2 (checkRem w) w s (if y = 0 then x else x % y)
    ∧ givesScalar (.divs w) 0x07 2 2 (checkDivs w) w s
        (if y = 0 then 0xFFFFFFFFFFFFFFFF
         else if x.toInt = -2 ^ 63 ∧ y.toInt = -1 then 0x8000000000000000
         else BitVec.ofInt 64 (x.toInt.tdiv y.toInt))
    ∧ givesScalar (.rems w) 0x09 2 2 (checkRems w) w s
        (if y = 0 then x
         else if x.toInt = -2 ^ 63 ∧ y.toInt = -1 then 0
         else BitVec.ofInt 64 (x.toInt - y.toInt * x.toInt.tdiv y.toInt))

open Sys2Proof Sys2Proof.Machine Sys2Proof.Claims in
/-- R250: shifts by any 64-bit amount, bit by bit, and rotations. -/
def Obligations.Shifts : Prop :=
  ∀ (w : A3) (s : State),
    let x := s.srcS w.a
    let n := (s.srcS w.b).toNat
    (∀ r : W64, (∀ i, i < 64 → r.getLsbD i = (decide (n ≤ i) && x.getLsbD (i - n))) →
      givesScalar (.shl w) 0x0D 0 2 (checkShl w) w s r)
    ∧ (∀ r : W64, (∀ i, i < 64 → r.getLsbD i = x.getLsbD (i + n)) → givesScalar (.shr w) 0x0E 0 2 (checkShr w) w s r)
    ∧ (∀ r : W64, (∀ i, i < 64 → r.getLsbD i = if i + n < 64 then x.getLsbD (i + n) else x.getLsbD 63) →
        givesScalar (.sra w) 0x0F 0 2 (checkSra w) w s r)
    ∧ (∀ r : W64, (∀ i, i < 64 → r.getLsbD ((i + n) % 64) = x.getLsbD i) → givesScalar (.rot w) 0x10 0 2 (checkRot w) w s r)

open Sys2Proof Sys2Proof.Machine Sys2Proof.Claims in
/-- R251: bit fields under a control word, POS in bits 5:0 and LEN in bits 14:8, at most 64. -/
def Obligations.BitFields : Prop :=
  ∀ (w : A3) (s : State),
    let x := s.srcS w.a
    let y := s.srcS w.b
    let pos := fun (c : W64) => (c.extractLsb' 0 6).toNat
    let len := fun (c : W64) => min (c.extractLsb' 8 7).toNat 64
    (∀ r : W64, (∀ i, i < 64 → r.getLsbD i = (decide (i < len y) && x.getLsbD (i + pos y))) →
      givesScalar (.bext w) 0x14 0 2 (checkBext w) w s r)
    ∧ (∀ r : W64,
        (∀ i, i < 64 → r.getLsbD i =
          let c := s.srcS w.c
          if pos c ≤ i ∧ i < pos c + len c then y.getLsbD (i - pos c) else x.getLsbD i) →
        givesScalar (.bins w) 0x15 0 3 (checkBins w) w s r)

open Sys2Proof Sys2Proof.Machine Sys2Proof.Claims in
/-- R248: leading zeros, trailing zeros and ones are counted; a source of 0 has 64 zeros. -/
def Obligations.BitCounts : Prop :=
  ∀ (w : A3) (s : State),
    let x := s.srcS w.a
    (∀ n, n ≤ 64 → (∀ i, i < 64 → 64 - n ≤ i → x.getLsbD i = false) → (n < 64 → x.getLsbD (63 - n) = true) →
      givesScalar (.clz w) 0x11 0 1 (checkClz w) w s (BitVec.ofNat 64 n))
    ∧ (∀ n, n ≤ 64 → (∀ i, i < n → x.getLsbD i = false) → (n < 64 → x.getLsbD n = true) →
        givesScalar (.ctz w) 0x12 0 1 (checkCtz w) w s (BitVec.ofNat 64 n))
    ∧ givesScalar (.popc w) 0x13 0 1 (checkPopc w) w s (BitVec.ofNat 64 (ones x))

open Sys2Proof Sys2Proof.Machine Sys2Proof.Claims in
/-- R252, Table 13.2: the immediate forms. -/
def Obligations.Immediates : Prop :=
  ∀ (w : I32) (s : State),
    let x := s.srcS w.a
    let m := w.imm.signExtend 64
    let n := w.imm.toNat
    givesImm (.addi w) 0x20 (checkAddi w) true w s (x + m)
    ∧ givesImm (.andi w) 0x21 (checkAndi w) true w s (x &&& m)
    ∧ givesImm (.ori w) 0x22 (checkOri w) true w s (x ||| m)
    ∧ givesImm (.xori w) 0x23 (checkXori w) true w s (x ^^^ m)
    ∧ givesImm (.shli w) 0x24 (checkShli w) true w s (x <<< n)
    ∧ givesImm (.shri w) 0x25 (checkShri w) true w s (x >>> n)
    ∧ givesImm (.srai w) 0x26 (checkSrai w) true w s (x.sshiftRight n)
    ∧ givesImm (.ldi w) 0x27 (checkLdi w) false w s m
    ∧ givesImm (.ldih w) 0x28 (checkLdih w) true w s (w.imm ++ x.setWidth 32)
    ∧ givesImm (.lea w) 0x29 (checkLea w) false w s (s.core.f0 + m)
    ∧ (63 < n → checkShli w = false ∧ checkShri w = false ∧ checkSrai w = false)

/-! ### Slots, results and control flow (R163-R168, R253-R257) -/

namespace Sys2Proof.Claims
open Sys2Proof.Machine

/-- A branch that nothing keeps from its effect retires with this branch and this result. -/
def branches (i : Instr) (s : State) (r : Req) (b : Branch) (o : Outcome) : Prop :=
  r.ready s = true → exec i s = .next (s.finish r (some b) o)

/-- The core after `k` further slots that start nothing, slot `n` of them on beat `g n`. -/
def afterSlots (c : Core) (g : Nat → Nat) : Nat → Core
  | 0 => c
  | k + 1 => (afterSlots c g k).spend (g (k + 1))

/-- The sequencer after `k` slots; none when the loop has ended. -/
def loopAfter (l : LoopSt) : Nat → Option LoopSt
  | 0 => some l
  | k + 1 => (loopAfter l k).bind LoopSt.next

/-- A write of an s, v or k register that is no constant. -/
def writesRegister : Write → Prop
  | .s i _ => 0 < i ∧ i < 64
  | .v i _ _ => i < 32
  | .k i _ _ => 0 < i ∧ i < 8
  | .q _ _ => False

/-- The register of a write reads in `c` as it does in `c₀`. -/
def readsAs (c c₀ : Core) : Write → Prop
  | .s i _ => c.getS i = c₀.getS i
  | .v i _ _ => c.getV i = c₀.getV i
  | .k i _ _ => c.getK i = c₀.getK i
  | .q _ _ => True

/-- The register of a write holds in `c` what the write gives: a scalar its value, a vector or mask register the bits under the write's
mask, over what `c₀` holds in the others. -/
def holdsOver (c c₀ : Core) : Write → Prop
  | .s i x => c.getS i = x
  | .v i m x => ∀ b, b < 1024 → (c.getV i).getLsbD b = if m.getLsbD b then x.getLsbD b else (c₀.getV i).getLsbD b
  | .k i m x => ∀ b, b < 128 → (c.getK i).getLsbD b = if m.getLsbD b then x.getLsbD b else (c₀.getK i).getLsbD b
  | .q _ _ => True

/-- Writes of different registers: those of one result, two for a 16-byte load. -/
def oneResult (ws : List Write) : Prop := (∀ w ∈ ws, writesRegister w) ∧ ws.Pairwise fun w v => w.spec ≠ v.spec

/-- No result in flight, and no result of the outcome, is written to the register. -/
def untouched (c : Core) (o : Outcome) (r : Spec) : Prop :=
  (∀ f ∈ c.flight, ∀ w ∈ f.writes, w.spec ≠ r) ∧ ∀ w ∈ o.writes, w.spec ≠ r

end Sys2Proof.Claims

open Sys2Proof Sys2Proof.Machine Sys2Proof.Claims in
/-- R163, R164: until its declared landing slot the registers of a slot-timed result (s, v or k registers, the two of a 16-byte load
together) read as before and no reader stalls; from then on they read the result if the unit has it by then, and otherwise a reader
stalls until it exists. That a result exists from the beat of issue plus the latency of Table 12.7 (or the end of a refresh, log 54),
that a slot takes at least one beat, and that a mask register is awaited as the others, is the model's deduction (log 20). -/
def Obligations.ResultLandsInItsSlot : Prop :=
  ∀ (s : State) (r : Req) (b : Option Branch) (cls first k : Nat) (ws : List Write) (g : Nat → Nat),
    oneResult ws → s.core.fullEmpty cls = false → s.unstepped → g 0 = s.beat →
    (∀ f ∈ s.core.flight, ∀ w ∈ f.writes, ∀ x ∈ ws, w.spec ≠ x.spec) →
    let c := afterSlots (s.finish r b { writes := ws, cls := cls, notBefore := first }).core g k
    let due := max (s.beat + unitLatency cls) first
    1 ≤ s.core.latency cls ∧ s.core.latency cls ≤ 14
    ∧ ∀ x ∈ ws,
      (k + 1 < s.core.latency cls → readsAs c s.core x ∧ c.awaits x.spec = false)
      ∧ (s.core.latency cls ≤ k + 1 → due ≤ g k + 1 → holdsOver c s.core x ∧ c.awaits x.spec = false)
      ∧ (s.core.latency cls ≤ k + 1 → (∀ j, j ≤ k → g j + 1 < due) →
          readsAs c s.core x ∧ c.awaits x.spec = true
          ∧ ∀ beat, due ≤ beat → holdsOver (c.landLate beat) s.core x ∧ (c.landLate beat).awaits x.spec = false)

open Sys2Proof Sys2Proof.Machine Sys2Proof.Claims in
/-- R160: s0 reads zero and a write to it is discarded; k0 reads all ones and a write to it is discarded. -/
def Obligations.HardWiredRegisters : Prop :=
  ∀ (c : Core) (ws : List Write) (i : Nat) (x : W64) (m y : KReg),
    (c.applyAll ws).getS 0 = 0 ∧ (c.applyAll ws).getK 0 = BitVec.allOnes 128
    ∧ c.putS 0 x = c ∧ c.putK 0 m y = c
    ∧ (0 < i → i < 64 → (c.putS i x).getS i = x)
    ∧ (0 < i → i < 8 → (c.putK i m y).getK i = (c.getK i &&& ~~~m) ||| (y &&& m))

open Sys2Proof Sys2Proof.Machine Sys2Proof.Claims in
/-- R166: a full/empty result leaves its destinations (s and v registers, the two of a 16-byte load together) empty from issue, and
FULL_EMPTY_RESULT_FILL writes and fills them; once a load has been performed, so have the loads before it (R103). A mask register has no
full/empty bit, and one whose result works under R166 is awaited until it arrives (log 20). The result of an MSTAT or an MWAITD, which
its unit gives when it lands, is that of O37. -/
def Obligations.FullEmptyFill : Prop :=
  (∀ (s : State) (r : Req) (b : Option Branch) (cls : Nat) (ws : List Write),
    oneResult ws → s.core.fullEmpty cls = true → s.unstepped → s.core.flight = [] →
    let t := (s.finish r b { writes := ws, cls := cls }).core
    ∀ x ∈ ws, readsAs t s.core x
      ∧ match x with
        | .k _ _ _ => t.maskPending x.spec = true ∧ t.awaits x.spec = true
        | _ => t.isFull x.spec = false)
  ∧ (∀ (s : State) (n : Nat) (f : InFlight),
      s.core.running = true → s.core.flight[n]? = some f → f.land = .arrival → f.due ≤ s.beat → s.core.overtakes f n = false → f.op ≠ 0xC7 → f.op ≠ 0xC9 →
      oneResult f.writes →
      ∃ t, exec (.fullEmptyResultFill n) s = .next t ∧ (∀ x ∈ f.writes, holdsOver t.core s.core x ∧ t.core.isFull x.spec = true)
        ∧ (f.redo = none → t.core.flight = s.core.flight.eraseIdx n)
        ∧ (f.redo ≠ none → ∀ i g, s.core.flight[i]? = some g →
            (i < n → t.core.flight[i]? = some { g with redo := none }) ∧ (n < i → t.core.flight[i - 1]? = some g)))

open Sys2Proof Sys2Proof.Machine Sys2Proof.Claims in
/-- R168: one slot moves the triple on, a taken branch puts its target at the end of it, null annuls both delay slots, and an
annulled slot has no effect but its own passing. -/
def Obligations.TripleMovesOn : Prop :=
  ∀ (s : State) (r : Req) (o : Outcome), s.unstepped → o.stepped.getD false = false → s.core.looping = none →
    (∀ t, t = (s.finish r none o).core →
      t.f0 = s.core.f1 ∧ t.f1 = s.core.f2 ∧ t.f2 = s.core.f2 + 8 ∧ t.a0 = s.core.a1 ∧ t.a1 = false)
    ∧ (∀ b : Branch,
        let t := (s.finish r (some b) o).core
        let annuls := (b.null = 1 ∧ b.taken = false) ∨ (b.null = 2 ∧ b.taken = true)
        t.f0 = s.core.f1 ∧ t.f1 = s.core.f2 ∧ t.f2 = (if b.taken then b.target else s.core.f2 + 8)
        ∧ (annuls → t.a0 = true ∧ t.a1 = true) ∧ (¬ annuls → t.a0 = s.core.a1 ∧ t.a1 = false))
    ∧ (s.core.a0 = true → ∃ t, issueSlot s = .next t ∧ t.mem = s.mem ∧ t.wq = s.wq ∧ t.jobs = s.jobs ∧ t.core.status = s.core.status
        ∧ t.core.f0 = s.core.f1 ∧ t.core.f1 = s.core.f2 ∧ t.core.f2 = s.core.f2 + 8 ∧ t.core.a0 = s.core.a1 ∧ t.core.a1 = false
        ∧ t.core.slot = s.core.slot + 1 ∧ ∀ i, untouched s.core {} (BitVec.ofNat 8 i) → t.core.getS i = s.core.getS i)

open Sys2Proof Sys2Proof.Machine Sys2Proof.Claims in
/-- R253, R235: br under its condition, j and call always, to the word's own address plus 8 × disp28; call links address + 24
as a class 0 result. R254: jumps to an address in a register; a target with bits 2:0 nonzero raises MISALIGNED at the jump. -/
def Obligations.BranchesAndJumps : Prop :=
  (∀ (w : BrF) (s : State),
    let to_ := s.core.f0 + 8 * w.disp.signExtend 64
    (∀ taken : Bool, (taken = true ↔ condition w.cond.toNat (s.srcS w.a) (s.srcS w.b)) →
      branches (.br w) s (reqBr w s) { taken := taken, target := to_, null := w.null.toNat } {})
    ∧ branches (.j w) s (reqJump 0x31 (checkJ w) w [] s) { taken := true, target := to_, null := w.null.toNat } {}
    ∧ branches (.call w) s (reqJump 0x32 (checkCall w) w [0x3F] s) { taken := true, target := to_, null := w.null.toNat }
        { writes := [.s 63 (s.core.f0 + 24)], cls := 0 })
  ∧ (∀ (w : A3) (s : State),
      let link : Outcome := { writes := [.s 63 (s.core.f0 + 24)], cls := 0 }
      let jumps := fun (i : Instr) (r : Req) (x : W64) (o : Outcome) =>
        (x.extractLsb' 0 3 = 0 → branches i s r { taken := true, target := x, null := w.fn.toNat } o)
        ∧ (x.extractLsb' 0 3 ≠ 0 → r.ready s = true → exec i s = .next (s.takeTrap { code := 0x04, fva := x }))
      jumps (.jr w) (reqRegJump 0x33 (checkJr w) w [(w.a, w.ea)] [] s) (s.srcS w.a) {}
      ∧ jumps (.callr w) (reqRegJump 0x34 (checkCallr w) w [(w.a, w.ea)] [0x3F] s) (s.srcS w.a) link
      ∧ jumps (.ret w) (reqRegJump 0x35 (checkRet w) w [(0x3F, false)] [] s) (s.core.getS 63) {})

open Sys2Proof Sys2Proof.Machine Sys2Proof.Claims in
/-- R256, R257: where a LOOPM goes, and where it is refused; the slots of a loop in order, step k and word m; which of them are
squashed; its end; and the triple that runs ahead of it. That the triple holds the loop's next words and, past its end, the words after the
body, is the model's deduction (log 19). -/
def Obligations.Loops : Prop :=
  (∀ (w : LoopF) (s : State), (reqLoopm w s).ready s = true →
    let trips := (s.srcS w.a).toNat
    let body := w.ii.toNat * w.sc.toNat
    let straight := s.core.f1 = s.core.f0 + 8 ∧ s.core.f2 = s.core.f0 + 16
    (s.core.tm = false → straight → trips ≤ 2 ^ 32 - w.sc.toNat → s.unstepped →
      ∃ t : State, exec (.loopm w) s = .next t ∧ t.core.slot = s.core.slot + 1 ∧ t.mem = s.mem ∧ t.wq = s.wq ∧ t.jobs = s.jobs
        ∧ (trips = 0 → t.core.f0 = s.core.f0 + 8 + BitVec.ofNat 64 (8 * body) ∧ t.core.loop = s.core.loop)
        ∧ (0 < trips → t.core.f0 = s.core.f0 + 8 ∧ t.core.loop =
            some { k := 0, m := 0, trips := trips, ii := w.ii.toNat, sc := w.sc.toNat, base := s.core.f0 + 8 }))
    ∧ (s.core.tm = true ∨ ¬ straight ∨ 2 ^ 32 - w.sc.toNat < trips → exec (.loopm w) s = .next (s.takeTrap { code := 0x02 })))
  ∧ (∀ (l : LoopSt), 0 < l.ii → 0 < l.sc → 0 < l.trips → l.k = 0 → l.m = 0 →
    let body := l.ii * l.sc
    (∀ n, n < (l.trips + l.sc - 1) * body → loopAfter l n = some { l with k := n / body, m := n % body })
    ∧ loopAfter l ((l.trips + l.sc - 1) * body) = none
    ∧ (∀ n, n < (l.trips + l.sc - 1) * body → ∀ x, loopAfter l n = some x →
        x.addr 0 = l.base + BitVec.ofNat 64 (8 * (n % body)) ∧ (∀ y a, x.next = some y → y.addr a = x.addr (a + 1))
        ∧ (x.squashed = true ↔ (n / body < n % body / l.ii ∨ l.trips ≤ n / body - n % body / l.ii)))
    ∧ (∀ (s : State) (r : Req) (o : Outcome), s.unstepped → o.stepped.getD false = false → s.core.looping = some l →
        let t := (s.finish r none o).core
        t.loop = l.next ∧ t.f0 = s.core.f1 ∧ t.f1 = s.core.f2 ∧ t.f2 = l.addr 3))
/-! ### Loads, stores, atomics and ordering (R97, R98, R104-R115, R291-R297, R306) -/

namespace Sys2Proof.Claims
open Sys2Proof.Machine

/-- The register writes that these bytes of memory give, by bytes of the destination: bit `i` of `x` for every `i` below `n`. -/
def bitsRead (t : State) (size n : Nat) (pas : List Nat) (i : Nat) : Bool :=
  decide (i < n) && (t.readPhys size (pas.getD (i / 8) 0)).getLsbD (i % 8)

/-- Two states differ at most in memory and the write queues before it, in what counts the columns that are read and when their banks
serve them (R12, R13, R73), and in which loads in flight a trap would perform anew (R98, R103). -/
def settled (t u : State) : Prop :=
  u = { t with mem := u.mem, wq := u.wq, mcs := u.mcs, eccCount := u.eccCount, served := u.served, readBeat := u.readBeat,
               readChannels := u.readChannels, cores := u.cores }
  ∧ (∀ d : Fin 48, u.mcs[d] = { t.mcs[d] with correctedEcc := u.mcs[d].correctedEcc })
  ∧ (∀ c, c ≠ t.subj.core → u.cores[c] = t.cores[c])
  ∧ u.core = { t.core with flight := u.core.flight }
  ∧ u.core.flight.map (fun f => { f with redo := none }) = t.core.flight.map (fun f => { f with redo := none })

/-- And what a reader at the coherence point gets is the same in both. -/
def quiet (t u : State) : Prop := settled t u ∧ ∀ a, u.readByte a = t.readByte a

/-- Every load in flight has been performed: no trap performs one anew (R98, R103). -/
def loadsDone (u : State) : Prop := ∀ f ∈ u.core.flight, f.redo = none

/-- A load whose accesses may be made waits while earlier writes that it orders before it cannot enter their arrays; otherwise it
retires with these writes, in the class of what it reads (R240), which exist on no beat before a refresh of what it or its walks read has
ended (R13; log 54). -/
def loadsAs (i : Instr) (s t : State) (r : Req) (waits : Bool) (pas : List Nat) (ws : List Write) : Prop :=
  (waits = true → r.ready s = true → exec i s = .next t)
  ∧ (waits = false → r.ready s = true → t.eccBad pas = false → ∃ u redo, quiet t u ∧ exec i s =
      .next (u.finish r none { writes := ws, cls := accessClass t.yardIdx.val pas, redo := redo, notBefore := max t.served (t.servedAt pas) }))

/-- An access that may not be made traps precisely with its fault (R97, R98). -/
def faultsPrecisely (i : Instr) (s : State) (r : Req) (res : State × Except (BitVec 8 × Nat) (List (List Nat))) : Prop :=
  r.ready s = true → ∀ t f, res = (t, .error f) →
    exec i s = .next (t.takeTrap { code := f.1, path := 0, fva := BitVec.ofNat 64 f.2 })

/-- Memory after elements have been stored, each a list of addresses and a number, the later ones over the earlier ones: no byte
outside has changed, and each byte holds what was stored to it last. -/
def stored (t u : State) (es : List (List Nat × Nat)) : Prop :=
  settled t u
  ∧ (∀ a, (∀ e ∈ es, a ∉ e.1) → u.readByte a = t.readByte a)
  ∧ ∀ k e j a, es[k]? = some e → e.1[j]? = some a → (∀ e' ∈ es.drop (k + 1), a ∉ e'.1) → a ∉ e.1.drop (j + 1) →
      (regionOf a = .package ∨ regionOf a = .loft) → t.heldAt a = false → u.readByte a = BitVec.ofNat 8 (e.2 / 256 ^ j)

/-- No address of a register page. -/
def plainPages (pas : List Nat) : Prop := ∀ a ∈ pas, regionOf a ≠ .queuePage ∧ regionOf a ≠ .contextPage

/-- A release at memory scope or beyond: the writes before it are in the arrays, whatever it stores itself (R104, R106). -/
def releasesFirst (w : MemF) (t u : State) (own : List Nat) : Prop :=
  (w.order = 2 ∨ w.order = 3) → 4 ≤ w.scope.toNat → ∀ a, a ∉ own → u.arrayByte a = t.readByte a

/-- The `k`-th active lane of width `w`, counted from 0. -/
def activeLane (s : State) (p : BitVec 4) (w k i : Nat) : Prop :=
  ((List.range (1024 / w)).filter (s.core.laneActive p w))[k]? = some i

/-- What a vector load of lanes of `n` bytes leaves: every active lane takes its bytes, no other bit is written. -/
def lanesLoaded (s t : State) (p : BitVec 4) (n : Nat) (pas : List (List Nat)) (m x : VReg) : Prop :=
  (∀ b, b < 1024 → m.getLsbD b = s.core.laneActive p (8 * n) (b / (8 * n)))
  ∧ ∀ k i, activeLane s p (8 * n) k i → ∀ b, b < 8 * n →
      x.getLsbD (8 * n * i + b) = (t.readPhys n ((pas.getD k []).getD (b / 8) 0)).getLsbD (b % 8)

/-- The elements of a vector store in ascending order of the active lanes. -/
def laneElements (s : State) (p : BitVec 4) (w : Nat) (v : VReg) (pas : List (List Nat)) (es : List (List Nat × Nat)) : Prop :=
  es.length = pas.length ∧ ∀ k i, activeLane s p w k i → es[k]? = (pas[k]?).map fun a => (a, (v.extractLsb' (w * i) w).toNat)

/-- Elements stored one after the other, each as a scalar store of its bytes (R98, R292): the state that the last one leaves. -/
def storedInTurn (n : Nat) (v : State) : List (List Nat × Nat) → State → Prop
  | [], u => u = v
  | e :: es, u => ∃ m o, storeAt v true e.1 n e.2 = .retire m o ∧ storedInTurn n m es u

/-- A vector store whose accesses may be made: it waits for the writes that it orders, and then stores its elements, on register pages too
each with the effect of a scalar store; where an element faults or waits (at the aperture, R306), no element is stored. -/
def vectorStored (i : Instr) (s t : State) (r : Req) (waits : Bool) (n : Nat) (pas : List (List Nat)) (es : List (List Nat × Nat)) :
    Prop :=
  (waits = true → exec i s = .next t)
  ∧ (waits = false →
    (plainPages pas.flatten → (∀ a ∈ pas.flatten, t.heldAt a = false) →
      ∃ u, exec i s = .next (u.finish r none {}) ∧ stored t u es)
    ∧ ∃ v, quiet t v
      ∧ (∀ u, storedInTurn n v es u → ∃ z, quiet u z ∧ exec i s = .next (z.finish r none {}))
      ∧ (∀ front e back m, es = front ++ e :: back → storedInTurn n v front m →
          (∀ x f, storeAt m true e.1 n e.2 = .trap x f → exec i s = .next (t.takeTrap f))
          ∧ ∀ x, storeAt m true e.1 n e.2 = .wait x → exec i s = .next t))

/-- The request of a VLD or VST. -/
def reqVmem (op : Nat) (ok : Bool) (w : MemF) (s : State) (store : Bool) : Req :=
  { op := BitVec.ofNat 8 op, ok := ok && s.atom16Ok w, pred := w.pred, perLane := true,
    srcs := if store then [(w.base, w.eb), (w.d, false)] else [(w.base, w.eb)], dsts := if store then [] else [w.d], touches := true }

/-- The request of a VLDS or VGATH. -/
def reqLanes (op : Nat) (ok : Bool) (x : A3) : Req :=
  { op := BitVec.ofNat 8 op, ok := ok, pred := x.pred, perLane := true, srcs := [(x.a, x.ea), (x.b, x.eb)], dsts := [x.d], touches := true }

/-- The request of a VSCAT. -/
def reqVscat (x : A3) : Req :=
  { op := 0x48, ok := checkVscat x, pred := x.pred, perLane := true, srcs := [(x.a, x.ea), (x.b, x.eb), (x.d, false)],
    touches := true }

/-- An atomic at one location: it reads the old value and stores the new one in one step, and d, or d and d + 1 for 16 bytes, receives the
old value bit by bit (R295), a 4-byte one with zeros above it (the model's deduction, log 22); the loads before it have been performed
(R103). -/
def atomic (i : Instr) (op : Nat) (ok cas : Bool) (w : MemF) (s : State) (new : Nat → Nat → Nat → Nat) : Prop :=
  let r := reqAtomic op ok cas w s
  let n := atomicBytes w
  let span : Span := { va := (s.srcS w.base + w.off.signExtend 64).toNat, len := n, align := n }
  faultsPrecisely i s r (reach s (s.coreAccess .atomic) [span])
  ∧ ∀ t pas, r.ready s = true → s.memoryWf → reach s (s.coreAccess .atomic) [span] = (t, .ok [pas]) →
      let waits := t.orderWaits w (strongly t (s.coreAccess .atomic) [span])
      let old := fromBytes (pas.map t.readByte)
      (waits = true → exec i s = .next t)
      ∧ (waits = false → ∀ v : BitVec 128,
          (∀ i, i < 128 → v.getLsbD i = (decide (i < 8 * n) && (t.readByte (pas.getD (i / 8) 0)).getLsbD (i % 8))) →
          let low := Write.s (specIdx w.d) (v.setWidth 64)
          ∃ u, exec i s = .next (u.finish r none
            { writes := if n = 16 then [low, .s (specIdx w.d + 1) (v.extractLsb' 64 64)] else [low],
              cls := accessClass t.yardIdx.val pas, notBefore := max t.served (t.servedAt pas) })
          ∧ stored (t.logHeld pas 0 t.subj.core.val t.core.entry) u
              [(pas, new old (atomicOperand w s w.d) (atomicOperand w s (casNew w)))]
          ∧ loadsDone u ∧ releasesFirst w t u pas)

end Sys2Proof.Claims

open Sys2Proof Sys2Proof.Machine Sys2Proof.Claims in
/-- R292: scalar loads of 1, 2, 4, 8 and 16 bytes, zero-extended by LD and sign-extended by LDX; an access that may not be made
traps; an uncorrectable byte ends the entry (R134); PREF does nothing, and never traps on an empty base (log 70). -/
def Obligations.ScalarLoads : Prop :=
  ∀ (w : MemF) (s : State),
    let n := scalarBytes w
    let span : Span := { va := (s.srcS w.base + w.off.signExtend 64).toNat, len := n, align := atomAlign w }
    let res := reach s (s.coreAccess .read) [span]
    let rd := reqLoad 0x40 (checkLd w) w s
    let rx := reqLoad 0x41 (checkLdx w) w s
    faultsPrecisely (.ld w) s rd res ∧ faultsPrecisely (.ldx w) s rx res
    ∧ (∀ t pas, res = (t, .ok [pas]) →
        let waits := t.orderWaits w (strongly t (s.coreAccess .read) [span])
        (∀ v : BitVec 128, (∀ i, i < 128 → v.getLsbD i = bitsRead t n (8 * n) pas i) →
          let lo := v.setWidth 64
          let pair := [Write.s (specIdx w.d) lo, .s (specIdx w.d + 1) (v.extractLsb' 64 64)]
          loadsAs (.ld w) s t rd waits pas (if n = 16 then pair else [.s (specIdx w.d) lo])
          ∧ loadsAs (.ldx w) s t rx waits pas
              (if n = 16 then pair else [.s (specIdx w.d) ((v.setWidth (8 * n)).signExtend 64)]))
        ∧ (t.eccBad pas = true → waits = false → ∀ i r, (i = .ld w ∧ r = rd) ∨ (i = .ldx w ∧ r = rx) → r.ready s = true →
            ∃ u, quiet t u ∧ exec i s = .next ((u.takeTrap { code := 0x21 }).failEntry t.core.entry 0x21)))
    ∧ (∀ r : Req, r = { op := 0x43, ok := checkPref w, pred := w.pred, srcs := [(w.base, false)] } → gives (.pref w) s r {})

open Sys2Proof Sys2Proof.Machine Sys2Proof.Claims in
/-- R292: a scalar store writes the low bytes of d, or of d and d + 1, at the addresses its checks give, and no other byte. A store
to TAIL of a mapped queue page, to RESUME of a context page and to the rest of a register page has the effect of the page (R43,
R88). -/
def Obligations.ScalarStores : Prop :=
  ∀ (w : MemF) (s : State), (reqStore w s).ready s = true → s.memoryWf →
    let n := scalarBytes w
    let span : Span := { va := (s.srcS w.base + w.off.signExtend 64).toNat, len := n, align := atomAlign w }
    let res := reachStore s (s.coreAccess .write) [span]
    let x := (s.srcS w.d).toNat + (if n = 16 then 2 ^ 64 * (s.srcS (w.d + 1)).toNat else 0)
    faultsPrecisely (.st w) s (reqStore w s) res
    ∧ ∀ t pas, res = (t, .ok [pas]) →
        let waits := t.orderWaits w (strongly t (s.coreAccess .write) [span])
        (waits = true → exec (.st w) s = .next t)
        ∧ (waits = false →
          (plainPages pas → ∃ u, exec (.st w) s = .next (u.finish (reqStore w s) none {})
            ∧ stored (t.logHeld pas 0 t.subj.core.val t.core.entry) u [(pas, x)] ∧ releasesFirst w t u pas)
          ∧ (∀ pa rest, pas = pa :: rest →
              let off := pa % 4096
              let retires := fun (f : State → State) =>
                ∃ v u, quiet t v ∧ quiet (f v) u ∧ exec (.st w) s = .next (u.finish (reqStore w s) none {})
              (regionOf pa = .queuePage → off = 0x18 → (n = 4 ∨ n = 8) → retires fun v => v.writeTail (pageIndex pa) x)
              ∧ (regionOf pa = .queuePage → ¬(0x800 ≤ off ∧ off < 0x840) → ¬(off = 0x18 ∧ (n = 4 ∨ n = 8)) → retires id)
              ∧ (regionOf pa = .contextPage → off = 0x38 → n = 8 → x % 2 = 1 → retires fun v => v.resumeCtx (pageIndex pa))
              ∧ (regionOf pa = .contextPage → ¬(off = 0x38 ∧ n = 8 ∧ x % 2 = 1) → retires id)))

open Sys2Proof Sys2Proof.Machine Sys2Proof.Claims in
/-- R306: a plain aligned 8-byte store to the aperture starts a copy on the channel that its address names, of the template and INDEX
that its data name. A full channel makes it wait, and a field that Table 15.3 refuses, or a context without a template table,
raises RESERVED_FIELD; a clause of a semaphore that the context does not own raises PERMISSION. One with an order or an atomicity
starts nothing (the model's reading, log 70). -/
def Obligations.ApertureStores : Prop :=
  ∀ (w : MemF) (s t : State) (pas : List Nat) (pa : Nat), (reqStore w s).ready s = true → w.atom ≠ 2 → w.size = 3 →
    let va := (s.srcS w.base + w.off.signExtend 64).toNat
    let span : Span := { va := va, len := 8, align := atomAlign w }
    reachStore s (s.coreAccess .write) [span] = (t, .ok [pas]) → pas.head? = some pa →
    regionOf pa = .queuePage → 0x800 ≤ pa % 4096 → pa % 4096 < 0x840 →
    t.orderWaits w (strongly t (s.coreAccess .write) [span]) = false →
    let x := s.srcS w.d
    let u := JobUnit.bte t.yardIdx.val ((pa % 4096 - 0x800) / 8)
    let wait := x.extractLsb' 32 8
    let sig := x.extractLsb' 24 8
    let waits := x.getLsbD 18
    let signals := x.getLsbD 17
    let malformed := x.extractLsb' 19 5 ≠ 0 ∨ (wait ≠ 0 ∧ waits = false) ∨ (sig ≠ 0 ∧ signals = false)
    let owned := fun (n : BitVec 8) => t.semOwned n.toNat t.core.ctx = true
    let foreign := (waits = true ∧ ¬ owned wait) ∨ (signals = true ∧ ¬ owned sig)
    let traps := fun (code : BitVec 8) => ∃ v, quiet t v ∧ exec (.st w) s = .next (v.takeTrap { code := code })
    let retires := fun (f : State → State) =>
      ∃ v z, quiet t v ∧ quiet (f v) z ∧ exec (.st w) s = .next (z.finish (reqStore w s) none {})
    (w.order ≠ 0 ∨ w.atom ≠ 0 → retires id)
    ∧ (w.order = 0 → w.atom = 0 →
      ((t.ctxAt t.core.ctx).tmpltab = none ∨ malformed → traps 0x02)
      ∧ ∀ table, (t.ctxAt t.core.ctx).tmpltab = some table → ¬ malformed →
          (foreign → traps 0x06)
          ∧ (¬ foreign → Config.unitQueue ≤ t.unitLoad u → ∃ v, quiet t v ∧ exec (.st w) s = .next v)
          ∧ (¬ foreign → t.unitLoad u < Config.unitQueue → retires fun v =>
              v.newJob (.copy table (x.extractLsb' 0 10).toNat (x.extractLsb' 40 24).toNat) u
                (if waits then some wait.toNat else none) (if signals then some sig.toNat else none)
                (if x.getLsbD 16 then some (x.extractLsb' 10 6).toNat else none) none))

open Sys2Proof Sys2Proof.Machine Sys2Proof.Claims in
/-- R293, R294: vector loads. Each active lane takes the bytes at its own address, no other bit of the register is written, and one
lane that may not make its access keeps every lane from it. -/
def Obligations.VectorLoads : Prop :=
  (∀ (w : MemF) (s : State),
    let n := 2 ^ w.size.toNat
    let va := s.srcS w.base + w.off.signExtend 64
    let r := reqVmem 0x44 (checkVld w) w s false
    let spans := { va := va.toNat, len := 0, align := atomAlign w } ::
      ((List.range (1024 / (8 * n))).filter (s.core.laneActive w.pred (8 * n))).map fun i =>
        ({ va := (va + BitVec.ofNat 64 (i * n)).toNat, len := n } : Span)
    faultsPrecisely (.vld w) s r (reach s (s.coreAccess .read) spans)
    ∧ ∀ t none_ pas, reach s (s.coreAccess .read) spans = (t, .ok (none_ :: pas)) → w.size.toNat < 3 →
        ∃ m x, lanesLoaded s t w.pred n pas m x
          ∧ loadsAs (.vld w) s t r (t.orderWaits w (strongly t (s.coreAccess .read) spans)) pas.flatten [.v (specIdx w.d) m x])
  ∧ ∀ (x : A3) (s : State),
      let width := elemBits x.fn.toNat
      let n := width / 8
      let active := (List.range (1024 / width)).filter (s.core.laneActive x.pred width)
      let strided := active.map fun i => ({ va := (s.srcS x.a + BitVec.ofNat 64 i * s.srcS x.b).toNat, len := n } : Span)
      let indexed := active.map fun i =>
        ({ va := (s.srcS x.a + ((s.srcV x.b).extractLsb' (width * i) width).setWidth 64 * BitVec.ofNat 64 n).toNat, len := n } : Span)
      let loads := fun (i : Instr) (r : Req) (spans : List Span) =>
        let access : Access := { s.coreAccess .read with lanes := true }
        faultsPrecisely i s r (reach s access spans)
        ∧ ∀ t pas, reach s access spans = (t, .ok pas) →
            ∃ m y, lanesLoaded s t x.pred n pas m y
              ∧ loadsAs i s t r (strongly t access spans && t.drainWaits) pas.flatten [.v (specIdx x.d) m y]
      (checkVlds x = true → loads (.vlds x) (reqLanes 0x46 (checkVlds x) x) strided)
      ∧ (checkVgath x = true → loads (.vgath x) (reqLanes 0x47 (checkVgath x) x) indexed)

open Sys2Proof Sys2Proof.Machine Sys2Proof.Claims in
/-- R293, R294, R98: vector stores. The active lanes are stored in ascending order, each at its own address, and no other byte is;
one lane that may not make its access, or faults or waits at the aperture, keeps every lane from it. On register pages each lane, one after
the other, has the effect of a scalar store. -/
def Obligations.VectorStores : Prop :=
  ∀ (s : State), s.memoryWf →
    (∀ (w : MemF), w.size.toNat < 3 →
      let n := 2 ^ w.size.toNat
      let va := s.srcS w.base + w.off.signExtend 64
      let r := reqVmem 0x45 (checkVst w) w s true
      let spans := { va := va.toNat, len := 0, align := atomAlign w } ::
        ((List.range (1024 / (8 * n))).filter (s.core.laneActive w.pred (8 * n))).map fun i =>
          ({ va := (va + BitVec.ofNat 64 (i * n)).toNat, len := n } : Span)
      faultsPrecisely (.vst w) s r (reachStore s (s.coreAccess .write) spans)
      ∧ ∀ t none_ pas es, r.ready s = true → reachStore s (s.coreAccess .write) spans = (t, .ok (none_ :: pas)) →
          laneElements s w.pred (8 * n) (s.srcV w.d) pas es →
          vectorStored (.vst w) s t r (t.orderWaits w (strongly t (s.coreAccess .write) spans)) n pas es
          ∧ (t.orderWaits w (strongly t (s.coreAccess .write) spans) = false → plainPages pas.flatten →
              (∀ a ∈ pas.flatten, t.heldAt a = false) →
              ∃ u, exec (.vst w) s = .next (u.finish r none {}) ∧ releasesFirst w t u pas.flatten))
    ∧ ∀ (x : A3), checkVscat x = true →
        let width := elemBits x.fn.toNat
        let n := width / 8
        let spans := ((List.range (1024 / width)).filter (s.core.laneActive x.pred width)).map fun i =>
          ({ va := (s.srcS x.a + ((s.srcV x.b).extractLsb' (width * i) width).setWidth 64 * BitVec.ofNat 64 n).toNat, len := n } : Span)
        let access : Access := { s.coreAccess .write with lanes := true }
        faultsPrecisely (.vscat x) s (reqVscat x) (reachStore s access spans)
        ∧ ∀ t pas es, (reqVscat x).ready s = true → reachStore s access spans = (t, .ok pas) →
            laneElements s x.pred width (s.srcV x.d) pas es →
            vectorStored (.vscat x) s t (reqVscat x) (strongly t access spans && t.drainWaits) n pas es

open Sys2Proof Sys2Proof.Machine Sys2Proof.Claims in
/-- R295, R296: the atomics, with m the old value, v the operand and n ACAS's new value as unsigned numbers of 32, 64 or 128 bits. S[d]
takes the bits of the old value (S[d + 1] those of its high half); that a 4-byte one is zero-extended is log 22 (DEDUCED). -/
def Obligations.Atomics : Prop :=
  ∀ (w : MemF) (s : State),
    let bits := 8 * atomicBytes w
    let signed := fun (x : Nat) => (BitVec.ofNat bits x).toInt
    let number := fun (x : Nat) => fp32.decode x
    atomic (.aadd w) 0x49 (checkAadd w) false w s (fun m v _ => (m + v) % 2 ^ bits)
    ∧ atomic (.amin w) 0x4A (checkAmin w) false w s (fun m v _ => if signed v < signed m then v else m)
    ∧ atomic (.amax w) 0x4B (checkAmax w) false w s (fun m v _ => if signed m < signed v then v else m)
    ∧ atomic (.aand w) 0x4C (checkAand w) false w s (fun m v _ => m &&& v)
    ∧ atomic (.aor w) 0x4D (checkAor w) false w s (fun m v _ => m ||| v)
    ∧ atomic (.axor w) 0x4E (checkAxor w) false w s (fun m v _ => m ^^^ v)
    ∧ atomic (.axchg w) 0x4F (checkAxchg w) false w s (fun _ v _ => v)
    ∧ atomic (.acas w) 0x50 (checkAcas w) true w s (fun m v n => if m = v then n else m)
    ∧ atomic (.afadd w) 0x51 (checkAfadd w) false w s (fun m v _ => (fp32.add m v).1)
    ∧ atomic (.afamax w) 0x52 (checkAfamax w) false w s (fun m v _ =>
        if number m = .nan ∨ number v = .nan then 0x7FC00000
        else if (number m).lt true (number v).abs = true then v % 2 ^ 31 else m)

open Sys2Proof Sys2Proof.Machine Sys2Proof.Claims in
/-- R103, R104, R107, R111: FENCE, XFENCE and MARK have the loads before them performed at every scope but the core's, and at memory
scope and beyond bring the waiting writes into the arrays, waiting while a refresh keeps one from them (R13); FENCE at core scope
does nothing. XFENCE performs what had been appended to write streams where its first path is STREAM, once results on their way to them
have come, and drops what read streams had prefetched where its second path is. What a reader at the coherence point gets never changes. -/
def Obligations.Ordering : Prop :=
  ∀ (w : SysF) (s : State),
    let scope := (w.ctl.extractLsb' 0 4).toNat
    let first := w.ctl.extractLsb' 4 3
    let second := w.ctl.extractLsb' 7 3
    let rf : Req := { op := 0x53, ok := checkFence w, pred := w.pred }
    let rx : Req := { op := 0x54, ok := checkXfence w, pred := w.pred }
    let rm : Req := { op := 0x55, ok := checkMark w, pred := w.pred }
    let keptBack := fun (t : State) => ∃ c ∈ t.wq, t.beat < t.refreshEnd c.1
    let ordered := fun (from_ u : State) (n : Nat) =>
      quiet from_ u ∧ (from_.memoryWf → u.memoryWf) ∧ (1 ≤ n → loadsDone u) ∧ (n = 0 → u = from_)
      ∧ (4 ≤ n → u.wq = [] ∧ ∀ a, u.arrayByte a = from_.readByte a)
      ∧ (n < 4 → u.wq = from_.wq ∧ u.mem = from_.mem)
    let performed := if first = 1 then s.performStreams else s
    let appending := first = 1 ∧ ∃ f ∈ s.core.flight, (∃ i, i < 16 ∧ f.dest = BitVec.ofNat 8 (0x80 + i)) ∧ (f.land = .arrival ∨ f.passed s.core.slot = true)
    (¬(4 ≤ scope ∧ keptBack s) → rf.ready s = true → ∃ u, exec (.fence w) s = .next (u.finish rf none {}) ∧ ordered s u scope)
    ∧ (¬ appending → ¬(4 ≤ scope ∧ keptBack performed) → rx.ready s = true → ∃ u v, ordered performed u scope ∧ exec (.xfence w) s = .next (v.finish rx none {})
        ∧ (second ≠ 1 → v = u)
        ∧ (second = 1 → (∃ c : Core, v = u.setCore c ∧ c = { u.core with q := c.q })
            ∧ ∀ i, v.core.getQ i = (u.core.getQ i).map fun b => if b.isWrite then b else { b with buf := [] }))
    ∧ (4 ≤ scope → keptBack s → rf.ready s = true → exec (.fence w) s = .next s)
    ∧ (appending → rx.ready s = true → exec (.xfence w) s = .next s)
    ∧ (¬ appending → 4 ≤ scope → keptBack performed → rx.ready s = true → exec (.xfence w) s = .next performed)
    ∧ (first = 1 → ∀ i b, performed.core.getQ i = some b → b.isWrite = true → b.fault = none → b.buf = [])
    ∧ (rm.ready s = true → ∃ u, exec (.mark w) s = .next (u.finish rm none {}) ∧ ordered s u 1)

namespace Sys2Proof.Claims
open Sys2Proof.Machine

/-- The frame that a page-table entry names (Table 5.2). -/
def frameOf (e : Nat) : Nat := e / 4096 % 2 ^ 36 * 4096

/-- Where the entry for an address lies in the table of a level, level 0 being the root (R81). -/
def entryIn (table va level : Nat) : Nat := table + 8 * (va / 2 ^ (39 - 9 * level) % (if level = 0 then 2 ^ 18 else 512))

/-- The table that a walk from a root reaches at a level (R81). -/
def tableAt (s : State) (root va : Nat) : Nat → Nat
  | 0 => root
  | n + 1 => frameOf (s.readNum (entryIn (tableAt s root va n) va n) 8)

/-- The well-formed leaf to which the tables lead an address (R81, R83, Table 5.2). -/
def leadsTo (s : State) (root va : Nat) (l : Leaf) : Prop :=
  ∃ n, 1 ≤ n ∧ n ≤ 3 ∧
    let place := fun (i : Nat) => entryIn (tableAt s root va i) va i
    let e := s.readNum (place n) 8
    let page := 2 ^ (39 - 9 * n)
    (∀ i, i ≤ n → regionOf (tableAt s root va i) = .package)
    ∧ (∀ i, i < n → s.readNum (place i) 8 = 1 + tableAt s root va (i + 1))
    ∧ l.word = e ∧ l.entryAt = place n ∧ l.va = va / l.size * l.size
    ∧ e.testBit 0 = true ∧ e.testBit 4 = true ∧ e / 2 ^ 62 = 0 ∧ e / 2 ^ 50 % 64 = 0 ∧ e / 128 % 8 < 2
    ∧ (e.testBit 10 = false → l.size = page ∧ l.pa = frameOf e ∧ frameOf e % page = 0)
    ∧ (e.testBit 10 = true → n ≠ 2 ∧ l.size = 16 * page ∧ l.pa % (16 * page) = 0
        ∧ ∀ i, i < 16 → let x := s.readNum (place n / 128 * 128 + 8 * i) 8
            frameOf x = l.pa + i * page ∧ ∀ b, b < 12 ∨ 50 ≤ b → x.testBit b = e.testBit b)
    ∧ regionOf l.pa ≠ .nowhere ∧ regionOf (l.pa + l.size - 1) = regionOf l.pa

/-- The permissions that an access needs of a leaf, and whose staging region or register page it must not reach (R82, R86). -/
def allowedBy (s : State) (a : Access) (word size frame pa : Nat) : Prop :=
  (a.need = .read ∨ a.need = .atomic → word.testBit 1 = true) ∧ (a.need = .write ∨ a.need = .atomic → word.testBit 2 = true)
  ∧ (a.need = .fetch → word.testBit 3 = true) ∧ (a.checkPath = true → word.testBit (56 + a.path) = true)
  ∧ ¬(regionOf frame = .package ∧ ∃ i, i < 64 ∧ i ≠ a.ctx ∧ (s.ctxAt i).live = true ∧ (s.ctxAt i).stageLen ≠ 0
      ∧ (s.ctxAt i).stageBase < frame + size ∧ frame < (s.ctxAt i).stageBase + (s.ctxAt i).stageLen)
  ∧ (regionOf pa = .queuePage → (s.queue (pageIndex pa)).ctx = a.ctx) ∧ (regionOf pa = .contextPage → pageIndex pa = a.ctx)

/-- What the memory type, the region and the compression kind ask of an access (R88, R89, R91, R227). -/
def typeFits (s : State) (a : Access) (word size va pa : Nat) : Prop :=
  let type := word / 32 % 4
  (2 ≤ type → (a.path = 0 ∨ a.path = 2) ∧ a.need ≠ .fetch)
  ∧ (regionOf pa = .queuePage ∨ regionOf pa = .contextPage → type = 2 ∧ a.need ≠ .atomic)
  ∧ (regionOf pa = .loft → type < 2)
  ∧ (a.path = 1 ∨ a.path = 3 → regionOf pa = if a.ordinary then .package else .loft)
  ∧ (word / 128 % 8 = 1 → a.path = 5 ∧ size = 2 ^ 16 ∧ type = 0 ∧ regionOf pa = .package
      ∧ (s.ctxAt a.ctx).compBase ≤ va ∧ va < (s.ctxAt a.ctx).compBase + 2 ^ 36)

/-- What an access gets through a leaf: its physical address, or the first of the faults it meets (R97). -/
def judged (s : State) (a : Access) (va word size frame base : Nat) (r : Except (BitVec 8) (Nat × Tlb)) : Prop :=
  let pa := frame + (va - base)
  (¬ allowedBy s a word size frame pa → r = .error 0x06)
  ∧ (allowedBy s a word size frame pa → ¬ typeFits s a word size va pa → r = .error 0x07)
  ∧ (allowedBy s a word size frame pa → typeFits s a word size va pa → ∃ z, r = .ok (pa, z))

end Sys2Proof.Claims

open Sys2Proof Sys2Proof.Machine Sys2Proof.Claims in
/-- R79-R84, R86, R88, R89, R91, R96-R98: the tables of a context lead an address to its leaf, and a cached leaf serves in its place; the leaf
gives the access its physical address, or the first of TRANSLATION, PERMISSION and MEMTYPE. Checking accesses changes nothing but
translation caches, the ACCESSED and DIRTY bits of page-table entries, and what counts the columns that walks fetch (R12, R13, R73); it gives one address to each byte of each access; no entry becomes
DIRTY but by an access that writes and may be made; of the faults of one access it answers TRANSLATION before PERMISSION before MEMTYPE
before MISALIGNED, each at its lowest address; of the faults of several lanes it answers one at the lowest address. (What firmware may reach
is log 60, which register pages log 84. The model's deductions: a table pointer outside package memory is a TRANSLATION fault, log 21; lanes
are answered one by one, log 58; DIRTY is set only with a write that is made, log 76. A large leaf whose frame leaves its region is
malformed: log 88.) -/
def Obligations.CheckedAccesses : Prop :=
  (∀ (pa : Nat), (regionOf pa = .package ↔ pa < 384000000000) ∧ (regionOf pa = .loft ↔ 0x800000000000 ≤ pa ∧ pa < 0x800008000000)
      ∧ (regionOf pa = .queuePage ↔ 0xC00000000000 ≤ pa ∧ pa < 0xC00000400000)
      ∧ (regionOf pa = .contextPage ↔ 0xC00000400000 ≤ pa ∧ pa < 0xC00000440000))
  -- the walk, and what the cache keeps of it
  ∧ (∀ (s : State) (ctx va : Nat) (l : Leaf), walk s ctx va = some l ↔ leadsTo s (s.ctxAt ctx).root va l)
  ∧ (∀ (s : State) (c : CacheId) (ctx va : Nat) (write : Bool),
      ((∀ l, ¬ leadsTo s (s.ctxAt ctx).root va l) → ∃ t, walkInto s c ctx va write = (t, none) ∧ ∀ c', t.tlb c' = s.tlb c')
      ∧ ∀ l, leadsTo s (s.ctxAt ctx).root va l → ∃ t z, walkInto s c ctx va write = (t, some z)
          ∧ z.ctx = ctx ∧ z.va = l.va ∧ z.size = l.size ∧ z.pa = l.pa ∧ z.entryAt = l.entryAt
          ∧ (∀ b, b < 64 → (z.leaf.getLsbD b = true ↔ l.word.testBit b = true ∨ b = 48 ∨ b = 49 ∧ write = true ∧ l.word.testBit 2 = true))
          ∧ t.tlb c = (z :: (s.tlb c).filter fun x => !(x.hits ctx va)).take (match c with | .yard _ => 512 | .mcs _ => 256)
          ∧ ∀ c', c' ≠ c → t.tlb c' = s.tlb c')
  ∧ (∀ (z : Tlb) (ctx va : Nat), z.hits ctx va = true ↔ (z.ctx = ctx ∨ z.leaf.getLsbD 11 = true) ∧ z.va ≤ va ∧ va < z.va + z.size)
  -- one address of an access
  ∧ (∀ (s t : State) (a : Access) (va : Nat) (r : Except (BitVec 8) (Nat × Tlb)), translate s a va = (t, r) →
      (2 ^ 57 ≤ va → r = .error 0x05)
      ∧ (va < 2 ^ 57 →
          let stale := fun (z : Tlb) => a.need.writes = true ∧ z.leaf.getLsbD 49 = false
          let cached := (s.tlb a.cache).filter fun z => z.hits a.ctx va
          (∀ z rest, cached = z :: rest → ¬ stale z → judged s a va z.leaf.toNat z.size z.pa z.va r)
          ∧ (cached = [] ∨ (∃ z rest, cached = z :: rest ∧ stale z) →
              ((∀ l, ¬ leadsTo s (s.ctxAt a.ctx).root va l) → r = .error 0x05)
              ∧ ∀ l, leadsTo s (s.ctxAt a.ctx).root va l → judged s a va l.word l.size l.pa l.va r)))
  -- an access that stays in one page
  ∧ (∀ (s t : State) (a : Access) (va n : Nat) (pas : List (List Nat)), 0 < n → va % 4096 + n ≤ 4096 →
      reach s a [{ va := va, len := n }] = (t, .ok pas) →
      ∃ u pa z, translate s a va = (u, .ok (pa, z)) ∧ pas = [(List.range n).map (pa + ·)])
  ∧ (∀ (s t : State) (a : Access) (va n : Nat) (code : BitVec 8) (at_ : Nat), 0 < n → va % 4096 + n ≤ 4096 →
      reach s a [{ va := va, len := n }] = (t, .error (code, at_)) → at_ = va
      ∧ ∃ u, translate s a va = (u, .error code) ∨ (code = 0x04 ∧ ∃ pa z, translate s a va = (u, .ok (pa, z)) ∧ z.leaf.getLsbD 6 = true ∧ va % n ≠ 0))
  -- every access
  ∧ ∀ (s t : State) (a : Access) (spans : List Span) (res : Except (BitVec 8 × Nat) (List (List Nat))),
    s.memoryWf → reach s a spans = (t, res) →
    t.memoryWf
    ∧ t = { s with mem := t.mem, wq := t.wq, yards := t.yards, mcs := t.mcs, eccCount := t.eccCount, served := t.served,
                   readBeat := t.readBeat, readChannels := t.readChannels }
    ∧ (∀ y : Fin 8, t.yards[y] = { s.yards[y] with tlb := t.yards[y].tlb })
    ∧ (∀ d : Fin 48, t.mcs[d] = { s.mcs[d] with tlb := t.mcs[d].tlb, correctedEcc := t.mcs[d].correctedEcc })
    ∧ (∀ pa, ∃ marks : Byte, marks &&& 0xFC = 0 ∧ t.readByte pa = s.readByte pa ||| marks)
    ∧ ((a.need = .read ∨ a.need = .fetch ∨ a.probe = true ∨ (∃ e, res = .error e)) →
        ∀ pa, ∃ accessed : Byte, accessed &&& 0xFE = 0 ∧ t.readByte pa = s.readByte pa ||| accessed)
    ∧ (∀ pas, res = .ok pas → pas.length = spans.length ∧ ∀ (k : Nat) (x : Span) (y : List Nat), spans[k]? = some x → pas[k]? = some y → y.length = x.len)
    ∧ (∀ code va, res = .error (code, va) →
        code = codeTranslation ∨ code = codePermission ∨ code = codeMemtype ∨ (code = codeMisaligned ∧ ∃ x ∈ spans, x.va = va))
    ∧ (∀ (ps : List Part) (code : BitVec 8) (va : Nat), partsFault ps = some (code, va) →
        (∃ p ∈ ps, p.va = va ∧ p.res = .error code)
        ∧ (∀ p ∈ ps, p.res = .error code → va ≤ p.va)
        ∧ (code ≠ codeTranslation → ∀ p ∈ ps, p.res ≠ .error codeTranslation)
        ∧ (code = codeMemtype → ∀ p ∈ ps, p.res ≠ .error codePermission))
    ∧ ∀ (fs : List (BitVec 8 × Nat)) (f : BitVec 8 × Nat), lowestFault fs = some f → f ∈ fs ∧ ∀ g ∈ fs, f.2 ≤ g.2

/-! ### Semaphores, barriers, stages, tags and spawning (R172, R185, R298-R305) -/

namespace Sys2Proof.Claims
open Sys2Proof.Machine

/-- An instruction that stalls and issues again changes nothing. -/
def stalls (i : Instr) (s : State) (r : Req) : Prop := r.ready s = true → exec i s = .next s

/-- An instruction that traps precisely (R175). -/
def trapsWith (i : Instr) (s : State) (r : Req) (t : Trap) : Prop := r.ready s = true → exec i s = .next (s.takeTrap t)

/-- Two states differ only in the semaphore file and in the records and numbers that grants touch. -/
def semsOnly (s t : State) : Prop := t = { s with sems := t.sems, ready := t.ready, fresh := t.fresh }

/-- Semaphore `n` counts `c` and its queue is empty, and every other semaphore is as before. -/
def semNow (s t : State) (n c : Nat) : Prop :=
  (t.sem n).count = c ∧ (t.sem n).takes = [] ∧ ∀ m, m ≠ n → t.sem m = s.sem m

/-- The trap by which a wait on tags delivers a deferred fault (Table 9.3, R185). -/
def delivery (d : Deferred) : Trap :=
  { code := d.code, deferred := true, path := d.path, fva := d.va, jobkind := true, jobref := d.tag.getD 0 }

/-- Some waiting write is kept from its array by a refresh of its bank (R13). -/
def keptBack (s : State) : Prop := ∃ c ∈ s.wq, s.beat < s.refreshEnd c.1

/-- A take that a core serves itself: a semw's and an interrupt's (R180, R291). -/
def coresOwn (t : Take) : Prop := ∃ c, t.who = .core c ∨ t.who = .interrupt c

/-- The request of a stage or barrier word without sources. -/
def reqBare (op : Nat) (ok : Bool) (w : SysF) : Req := { op := BitVec.ofNat 8 op, ok := ok, pred := w.pred }

end Sys2Proof.Claims

open Sys2Proof Sys2Proof.Machine Sys2Proof.Claims in
/-- R299: grants are made from the head of a semaphore's queue while the counter covers them, so that the units granted leave the
counter and the first take left is one that the counter does not cover, or one of a core, whose grant is one step with its semw
(R291) or with its interrupt (R180). -/
def Obligations.GrantsInQueueOrder : Prop :=
  ∀ (x : Sem), ∃ k, k ≤ x.takes.length
    ∧ x.grant.takes = x.takes.drop k ∧ x.grant.granted = x.granted ++ (x.takes.take k).map (·.id)
    ∧ x.grant.count + ((x.takes.take k).map (·.units)).sum = x.count
    ∧ (∀ t ∈ x.takes.take k, ¬ coresOwn t)
    ∧ (∀ t, x.grant.takes.head? = some t → coresOwn t ∨ x.grant.count < t.units)
    ∧ x.grant.assigned = x.assigned ∧ x.grant.ctx = x.ctx

open Sys2Proof Sys2Proof.Machine Sys2Proof.Claims in
/-- R291, R298, R299: SEMW takes its units at once when nothing is queued before it and the counter covers them, and otherwise places its
take and stalls until the take heads the queue and the counter covers it; SEMS adds its units as a release (R113), or changes nothing
and raises SEM_OVERFLOW; SEMI sets the counter and SEMR, once no job of
the continuation names the semaphore, clears it; one that is not assigned to the core's context raises PERMISSION. -/
def Obligations.Semaphores : Prop :=
  ∀ (w : SysF) (s : State), s.core.deferred = [] →
    let n := (w.ctl.extractLsb' 0 8).toNat
    let c := w.imm.toNat % 65536
    let x := s.sem n
    let owned := x.assigned = true ∧ x.ctx = s.core.ctx
    let rt := reqBare 0x56 (checkSemw w) w
    let rs := reqBare 0x57 (checkSems w) w
    let ri := reqBare 0x58 (checkSemi w) w
    let rr := reqBare 0x59 (checkSemr w) w
    let sets := fun (i : Instr) (r : Req) (from_ : State) (c : Nat) => r.ready s = true →
      ∃ u : State, exec i s = .next (u.finish r none {}) ∧ semsOnly from_ u ∧ semNow s u n c
    let named := ∃ j ∈ s.jobs, j.cont = s.core.cont ∧ (j.wait = some n ∨ j.sig = some n)
    (¬ owned → s.core.take = none → trapsWith (.semw w) s rt { code := 0x06 })
    ∧ (¬ owned → trapsWith (.sems w) s rs { code := 0x06 } ∧ trapsWith (.semi w) s ri { code := 0x06 }
        ∧ trapsWith (.semr w) s rr { code := 0x06 })
    ∧ (owned → x.takes = [] →
        (s.core.take = none → c ≤ x.count → sets (.semw w) rt s (x.count - c))
        ∧ (s.core.take = none → x.count < c → rt.ready s = true → ∃ (u : State) (id : Nat), exec (.semw w) s = .next u
            ∧ u.core = { s.core with take := some (n, id) } ∧ u.sem n = { x with takes := [{ id := id, units := c, who := .core s.subj.core.val }] })
        ∧ (x.count + c ≤ 0xFFFF → ¬ keptBack s → ∃ v, quiet s v ∧ v.wq = [] ∧ loadsDone v ∧ sets (.sems w) rs v (x.count + c))
        ∧ sets (.semi w) ri s c
        ∧ (¬ named → sets (.semr w) rr s 0))
    ∧ (owned → ∀ id, s.core.take = some (n, id) →
        (∀ t, x.takes.head? = some t → t.id = id → t.units ≤ x.count → rt.ready s = true →
          ∃ u : State, exec (.semw w) s = .next (u.finish rt none {}) ∧ u.core = { s.core with take := none }
            ∧ u.sem n = ({ x with count := x.count - t.units, takes := x.takes.tail } : Sem).grant ∧ ∀ m, m ≠ n → u.sem m = s.sem m)
        ∧ ((∀ t, x.takes.head? = some t → t.id = id → x.count < t.units) → stalls (.semw w) s rt))
    ∧ (owned → (0xFFFF < x.count + c → trapsWith (.sems w) s rs { code := 0x08 })
        ∧ (x.count + c ≤ 0xFFFF → keptBack s → stalls (.sems w) s rs)
        ∧ (named → stalls (.semr w) s rr))

open Sys2Proof Sys2Proof.Machine Sys2Proof.Claims in
/-- R300: a core outside the pen traps with PEN_NOT_MEMBER; an arrival that does not complete the generation stalls and is counted once; the
last arrival completes the generation and retires, and so does a core whose generation has completed. An arrival follows the core's
earlier loads (R113). -/
def Obligations.PenBarrier : Prop :=
  ∀ (w : SysF) (s : State),
    let p := (w.ctl.extractLsb' 0 8).toNat
    let me := s.subj.core.val
    let r : Req := reqBare 0x5A (checkPbar w) w
    let here := s.core.pbarGen.find? (fun x => x.1 == s.core.f0 && x.2.1 == p)
    let members := (s.pen p).captured.getD (s.pen p).bitmap
    let arrived := (s.pen p).arr ||| BitVec.ofNat 64 (2 ^ me)
    (here = none →
      (s.inPen p = false → trapsWith (.pbar w) s r { code := 0x09 })
      ∧ (s.inPen p = true → (s.pen p).arr.getLsbD me = true → stalls (.pbar w) s r)
      ∧ (s.inPen p = true → (s.pen p).arr.getLsbD me = false → arrived ≠ members → r.ready s = true →
          ∃ v t : State, quiet s v ∧ loadsDone v ∧ exec (.pbar w) s = .next t
            ∧ t.pen p = { s.pen p with arr := arrived, captured := some members }
            ∧ t.core = { v.core with pbarGen := s.core.pbarGen ++ [(s.core.f0, p, (s.pen p).gen)] } ∧ ∀ q, q ≠ p → t.pen q = s.pen q)
      ∧ (s.inPen p = true → (s.pen p).arr.getLsbD me = false → arrived = members → r.ready s = true →
          ∃ v u : State, quiet s v ∧ loadsDone v ∧ exec (.pbar w) s = .next (u.finish r none {}) ∧ u = { v with pens := u.pens }
            ∧ u.pen p = { s.pen p with arr := 0, captured := none, gen := (s.pen p).gen + 1 } ∧ ∀ q, q ≠ p → u.pen q = s.pen q))
    ∧ (∀ x, here = some x →
        (x.2.2 = (s.pen p).gen → stalls (.pbar w) s r)
        ∧ (x.2.2 ≠ (s.pen p).gen → r.ready s = true →
            exec (.pbar w) s = .next ((s.modCore fun c => { c with pbarGen := c.pbarGen.filter (· ≠ x) }).finish r none {})))

open Sys2Proof Sys2Proof.Machine Sys2Proof.Claims in
/-- R172, R301: ACQS waits until the stage has the asked fullness, belongs to this core and to its context or to no live one; RELS
hands a stage of this core on with its data, and raises STAGE_OWNER for another's. Only that stage of the yard changes. -/
def Obligations.Stages : Prop :=
  ∀ (w : SysF) (s : State),
    let k := (w.ctl.extractLsb' 0 3).toNat
    let full := w.ctl.getLsbD 3
    let y := s.yardIdx
    let g := s.stage k
    let ra : Req := reqBare 0x5B (checkAcqs w) w
    let rr : Req := { op := 0x5C, ok := checkRels w, pred := w.pred, srcs := [(w.a, w.ea)] }
    let mine := g.owner = s.subj.core.val % 8
    let left := fun (i : Instr) (r : Req) (g' : Stage) => r.ready s = true →
      ∃ u : State, exec i s = .next (u.finish r none {}) ∧ u = { s with yards := u.yards }
        ∧ (∀ z : Fin 8, z ≠ y → u.yards[z] = s.yards[z]) ∧ u.yards[y] = { s.yards[y] with stages := u.yards[y].stages }
        ∧ u.stage k = g' ∧ ∀ j, j ≠ k → u.stage j = s.stage j
    let may := g.full = full ∧ mine ∧ (g.ctx = s.core.ctx ∨ (s.ctxAt g.ctx).live = false)
    (may → left (.acqs w) ra { g with ctx := s.core.ctx })
    ∧ (¬ may → stalls (.acqs w) s ra)
    ∧ (mine ∧ g.ctx = s.core.ctx → left (.rels w) rr
        { full := full, owner := (w.ctl.extractLsb' 4 3).toNat, ctx := s.core.ctx, data := (s.srcS w.a).setWidth 32 })
    ∧ (¬(mine ∧ g.ctx = s.core.ctx) → trapsWith (.rels w) s rr { code := 0x0A })

open Sys2Proof Sys2Proof.Machine Sys2Proof.Claims in
/-- R304, R305: waits on copy tags and the first tag that is set; with a deferred fault of a masked tag, of several the one of the
oldest job, a wait delivers it as a trap instead (R185). -/
def Obligations.CopyTags : Prop :=
  ∀ (w : SysF) (s : State),
    let m := s.srcS w.a
    let tags := s.core.tagmap
    let rany := reqWaitt (checkWaittAny w) w
    let rall := reqWaitt (checkWaittAll w) w
    let rf : Req := { op := 0x5E, ok := checkFfrt w, pred := w.pred, srcs := [(w.a, w.ea)], dsts := [w.d] }
    let masked := fun (d : Deferred) => ∃ t, d.tag = some t ∧ m.getLsbD t = true
    ((∀ d ∈ s.core.deferred, ¬ masked d) →
      (m = 0 → trapsWith (.waittAny w) s rany { code := 0x02 })
      ∧ (tags &&& m ≠ 0 → gives (.waittAny w) s rany {})
      ∧ (m ≠ 0 → tags &&& m = 0 → stalls (.waittAny w) s rany)
      ∧ (tags &&& m = m → gives (.waittAll w) s rall {})
      ∧ (tags &&& m ≠ m → stalls (.waittAll w) s rall))
    ∧ (∀ d ∈ s.core.deferred, masked d → (∀ e ∈ s.core.deferred, e ≠ d → masked e → d.job < e.job) → ∀ i r,
        (i = .waittAny w ∧ r = rany) ∨ (i = .waittAll w ∧ r = rall) → r.ready s = true →
        ∃ u : State, exec i s = .next (u.takeTrap (delivery d))
          ∧ u.core.deferred = s.core.deferred.filter (· ≠ d)
          ∧ u.core.mpcsave = BitVec.ofNat 64 (d.mpc % 2 ^ 48 + 2 ^ 48 * (d.unitIndex % 4096) + 2 ^ 60 * (d.unitKind % 16)))
    ∧ (∀ k, k ≤ 64 → (∀ i, i < k → (tags &&& m).getLsbD i = false) → (k < 64 → (tags &&& m).getLsbD k = true) →
        gives (.ffrt w) s rf { writes := [.s (specIdx w.d) (BitVec.ofNat 64 k)] })

open Sys2Proof Sys2Proof.Machine Sys2Proof.Claims in
/-- R302: a child enters the dispatch queues with the code, frame and join block of its sources, the parent's entry, context and
launch, and with fn = 0 the parent's pens, and the entry's hardware join counts one more; a misplaced address or a wrong code header
raises RESERVED_FIELD; full queues make it wait, and so does a refresh of a bank that holds the header (R13; log 54). -/
def Obligations.Spawning : Prop :=
  ∀ (w : A3) (s : State),
    let r : Req := { op := 0xEB, ok := checkSpawn w, pred := w.pred, srcs := [(w.a, w.ea), (w.b, w.eb), (w.c, w.ec)],
                     touches := true }
    let placed := fun (n : Nat) (x : W64) => x.toNat % n = 0 ∧ x.toNat < 2 ^ 57
    let ok := placed 8 (s.srcS w.a) ∧ placed 64 (s.srcS w.b) ∧ placed 64 (s.srcS w.c)
    (¬ ok → trapsWith (.spawn w) s r { code := 0x02 })
    ∧ ∀ t h, ok → readHeader s s.core.ctx (.yard s.yardIdx) (s.srcS w.a) = (t, h) → r.ready s = true →
        (∀ f, h = .error f → exec (.spawn w) s = .next (t.takeTrap { code := f.1, path := 0, fva := BitVec.ofNat 64 f.2 }))
        ∧ (h = .ok none → exec (.spawn w) s = .next (t.takeTrap { code := 0x02 }))
        ∧ (∀ x, h = .ok (some x) → t.queuesFull = true → exec (.spawn w) s = .next t)
        ∧ (∀ x, h = .ok (some x) → t.queuesFull = false → t.unserved = true → exec (.spawn w) s = .next s)
        ∧ (∀ x, h = .ok (some x) → t.queuesFull = false → t.unserved = false →
            ∃ (u : State) (child : ContRec), exec (.spawn w) s = .next (u.finish r none {}) ∧ u.ready = t.ready ++ [child]
              ∧ child.code = s.srcS w.a ∧ child.frame = s.srcS w.b ∧ child.joinblk = s.srcS w.c
              ∧ child.entry = s.core.entry ∧ child.ctx = s.core.ctx ∧ child.launch = s.core.launch ∧ child.ready = s.beat
              ∧ child.gate = none ∧ child.saved = none
              ∧ (w.fn = 0 → child.penset = s.core.penset ∧ child.pencnt = s.core.pencnt)
              ∧ (w.fn ≠ 0 → child.penset = 0 ∧ child.pencnt = 0)
              ∧ u.entries = t.entries.map (fun e => if e.id = s.core.entry then { e with hwJoin := e.hwJoin + 1 } else e)
              ∧ ∃ v, quiet t v ∧ v.wq = [] ∧ loadsDone v ∧ u = { v with ready := u.ready, entries := u.entries, fresh := u.fresh })

/-! ### Vector instructions (R231, R233, R269-R290) -/

namespace Sys2Proof.Claims
open Sys2Proof.Machine

/-- Lane `j` of a register at width `w` (R160). -/
def laneAt (w : Nat) (x : VReg) (j : Nat) : BitVec w := x.extractLsb' (w * j) w

/-- The lane of source a that lane `i` sees under modA (R231, Table 12.3). -/
def seen (m : BitVec 12) (i : Nat) : Nat :=
  let size := 2 ^ (m.extractLsb' 6 4).toNat
  let dist := (m.extractLsb' 0 6).toNat
  let p := i % size
  let o := i - p
  if m.extractLsb' 10 2 = 0 then i
  else if m.extractLsb' 10 2 = 1 then o + (p + dist) % size
  else if m.extractLsb' 10 2 = 2 then o + (p ^^^ dist)
  else o + dist

/-- A'[i] of an A3 word at width `w`. -/
def srcA (s : State) (x : A3) (w i : Nat) : BitVec w := laneAt w (s.srcV x.a) (seen x.modA i)

/-- Mask bit `j` under a predicate: XOR NEG (R233). -/
def predBit (s : State) (p : BitVec 4) (j : Nat) : Bool := (s.core.getK (p.extractLsb' 0 3).toNat).getLsbD j ^^ p.getLsbD 3

/-- Lane `i` at width `w` is active: mask bit (w/8) × i (R271). -/
def active (s : State) (p : BitVec 4) (w i : Nat) : Prop := predBit s p (w / 8 * i) = true

/-- The one vector write of lanes of width `w`: each active lane takes its value, no other bit is written (R269, R271). -/
def laneWrite (s : State) (d : Spec) (p : BitVec 4) (w : Nat) (f : Nat → BitVec w) (x : Write) : Prop :=
  ∃ m y, x = (if specFile d = 2 then .q (specIdx d) y else .v (specIdx d) m y)
    ∧ (∀ b, b < 1024 → (m.getLsbD b = true ↔ active s p w (b / w)))
    ∧ ∀ i, i < 1024 / w → active s p w i → laneAt w y i = f i

/-- A vector A3 instruction gives these lanes, in this class, and sets no flag. -/
def givesLanes (i : Instr) (op cls n : Nat) (ok : Bool) (x : A3) (s : State) (w : Nat) (f : Nat → BitVec w) : Prop :=
  (reqVector op ok x n).ready s = true → ∃ y, laneWrite s x.d x.pred w f y
    ∧ exec i s = .next (s.finish (reqVector op ok x n) none { writes := [y], cls := cls })

/-- Sticky flags: a bit of STATUS is set exactly when some lane for which `p` holds sets it. -/
def flagsOf (n : Nat) (p : Nat → Prop) (f : Nat → Sticky) (fl : W64) : Prop :=
  ∀ b, fl.getLsbD b = true ↔ ∃ i, i < n ∧ p i ∧ (f i).bits.getLsbD b = true

/-- The state in which a core has set flags. -/
def flagged (s : State) (fl : W64) : State := s.modCore fun c => { c with status := c.status ||| fl }

/-- A floating-point A3 instruction gives these lanes and sets the flags of the active ones (R233, R275). -/
def givesFloats (i : Instr) (op cls n : Nat) (ok : Bool) (x : A3) (s : State) (w : Nat) (f : Nat → Nat × Sticky) : Prop :=
  (reqVector op ok x n).ready s = true → ∃ y fl, laneWrite s x.d x.pred w (fun i => BitVec.ofNat w (f i).1) y
    ∧ flagsOf (1024 / w) (active s x.pred w) (fun i => (f i).2) fl
    ∧ exec i s = .next ((flagged s fl).finish (reqVector op ok x n) none { writes := [y], cls := cls })

/-- A mask result at width `w`: all w/8 bits of an active lane take the lane's result (R271). -/
def maskWrites (s : State) (d : Spec) (p : BitVec 4) (w : Nat) (holds : Nat → Prop) (x : Write) : Prop :=
  ∃ m y, x = .k (specIdx d) m y
    ∧ ∀ b, b < 128 → (m.getLsbD b = true ↔ active s p w (b / (w / 8)))
        ∧ (active s p w (b / (w / 8)) → (y.getLsbD b = true ↔ holds (b / (w / 8))))

/-- A compare into a mask gives these results. -/
def givesMask (i : Instr) (op cls n : Nat) (ok : Bool) (x : A3) (s : State) (w : Nat) (holds : Nat → Prop) : Prop :=
  (reqVector op ok x n).ready s = true → ∃ y, maskWrites s x.d x.pred w holds y
    ∧ exec i s = .next (s.finish (reqVector op ok x n) none { writes := [y], cls := cls })

/-- A condition of Table 13.3 on lanes. -/
def laneCondition (code : Nat) {w : Nat} (x y : BitVec w) : Prop :=
  match code with
  | 0 => x = y
  | 1 => x ≠ y
  | 2 => x.toInt < y.toInt
  | 3 => y.toInt ≤ x.toInt
  | 4 => x.toNat < y.toNat
  | 5 => y.toNat ≤ x.toNat
  | 6 => x = 0
  | _ => x ≠ 0

/-- A condition of Table 14.3 on values. -/
def floatCondition (code : Nat) (x y : Machine.Num) : Prop :=
  match code with
  | 0 => x.eq y = true
  | 1 => x.eq y = false
  | 2 => x.lt false y = true
  | 3 => x ≠ .nan ∧ y ≠ .nan ∧ x.lt false y = false
  | 6 => ∃ g e, x = .fin g 0 e
  | _ => ¬ ∃ g e, x = .fin g 0 e

/-- A scalar result of a vector instruction. -/
def givesReduced (i : Instr) (r : Req) (cls : Nat) (d : Spec) (s : State) (y : W64) : Prop :=
  gives i s r { writes := [.s (specIdx d) y], cls := cls }

/-- The node of a reduction tree: level `l`, place `i` (R283). -/
def node (f : Nat → Nat → Nat × Sticky) (leaf : Nat → Option Nat) : Nat → Nat → Option Nat
  | 0, i => leaf i
  | l + 1, i =>
    match node f leaf l (2 * i), node f leaf l (2 * i + 1) with
    | none, y => y
    | x, none => x
    | some x, some y => some (f x y).1

/-- A node of the tree below level `l`, place `i`, sets STATUS bit `b`. -/
def nodeFlag (f : Nat → Nat → Nat × Sticky) (leaf : Nat → Option Nat) (b : Nat) : Nat → Nat → Prop
  | 0, _ => False
  | l + 1, i => nodeFlag f leaf b l (2 * i) ∨ nodeFlag f leaf b l (2 * i + 1)
      ∨ ∃ x y, node f leaf l (2 * i) = some x ∧ node f leaf l (2 * i + 1) = some y ∧ (f x y).2.bits.getLsbD b = true

/-- A reduction by the pairwise tree (R283): the leaf of an active lane, the operation, and the result of no active lane. -/
def givesTree (i : Instr) (op : Nat) (ok : Bool) (x : A3) (s : State) (leaf : Machine.Num → Machine.Num) (f : Nat → Nat → Nat × Sticky) (absent : Nat) : Prop :=
  let fm := fnFmt x.fn.toNat
  let w := fm.width
  let top := if w = 32 then 5 else 6
  let r := reqVector op ok x 1
  ∀ leaves : Nat → Option Nat,
    (∀ j, j < 1024 / w → (active s x.pred w j → leaves j = some (fp32.encode (leaf (fm.decode (srcA s x w j).toNat))).1)
      ∧ (¬ active s x.pred w j → leaves j = none)) →
    r.ready s = true → ∃ fl : W64, (∀ b, fl.getLsbD b = true ↔ nodeFlag f leaves b top 0)
      ∧ exec i s = .next ((flagged s fl).finish r none
          { writes := [.s (specIdx x.d) (BitVec.ofNat 64 ((node f leaves top 0).getD absent))], cls := 6 })

/-- One order of VRARG (R284): signed integers; floating-point numbers with every NaN above them and +0 above -0. -/
def below (fn : Nat) (x y : Nat) : Prop :=
  if fn < 8 then (BitVec.ofNat (elemBits fn) x).toInt < (BitVec.ofNat (elemBits fn) y).toInt
  else
    let a := (fnFmt fn).decode x
    let b := (fnFmt fn).decode y
    (b = .nan ∧ a ≠ .nan) ∨ (b ≠ .nan ∧ a.lt true b = true)

/-- The bits of a mask destination that the predicate and the entry let be written take their results (R290). -/
def givesBits (i : Instr) (op n : Nat) (ok : Bool) (x : A3) (s : State) (part : Nat → Prop) (f : Nat → Bool) : Prop :=
  (reqVector op ok x n).ready s = true → ∃ m y,
    (∀ b, b < 128 → (m.getLsbD b = true ↔ predBit s x.pred b = true ∧ part b) ∧ (part b → y.getLsbD b = f b))
    ∧ exec i s = .next (s.finish (reqVector op ok x n) none { writes := [.k (specIdx x.d) m y], cls := 11 })

/-- n × 2^k as a multiple of 2^lo. -/
def inUnits (n : Nat) (k lo : Int) : Nat := n * 2 ^ (k - lo).toNat

/-- m × 2^e is at most n × 2^k. -/
def atMost (m : Nat) (e : Int) (n : Nat) (k : Int) : Prop := inUnits m e (min e k) ≤ inUnits n k (min e k)

/-- The magnitude of a code without its sign, as m × 2^e; the code after the largest finite one stands for the next number. -/
def magnitude (f : FloatFmt) (c : Nat) : Nat × Int :=
  if c < 2 ^ f.p then (c, 1 - (f.bias : Int) - f.p) else (2 ^ f.p + c % 2 ^ f.p, ((c / 2 ^ f.p : Nat) : Int) - f.bias - f.p)

/-- A code is that of the number nearest to an exact one: the exact one is on its side of the middle between it and every other number
of the format. Twice the middle is n × 2^lo; `above` says that twice the exact one is at most that, `under` that it is at least that. -/
def nearest (f : FloatFmt) (c : Nat) (above under : Nat → Int → Prop) : Prop :=
  c ≤ f.maxCode + 1 ∧ ∀ c', c' ≤ f.maxCode + 1 →
    let y := magnitude f c
    let z := magnitude f c'
    let lo := min y.2 z.2
    let n := inUnits y.1 y.2 lo + inUnits z.1 z.2 lo
    (c < c' → above n lo) ∧ (c' < c → under n lo)

/-- The rounding of m × 2^e (R210, R212): the nearest number of the format, of two equally near the one whose code is even, and the flags
that it sets. -/
def roundsRight (f : FloatFmt) (neg : Bool) (m : Nat) (e : Int) : Prop :=
  ∃ c, (f.round neg m e).1 = f.signed neg c
    ∧ nearest f c (fun n lo => atMost (2 * m) e n lo ∧ (atMost n lo (2 * m) e → c % 2 = 0))
        (fun n lo => atMost n lo (2 * m) e ∧ (atMost (2 * m) e n lo → c % 2 = 0))
    ∧ (let fl := (f.round neg m e).2
       let y := magnitude f c
       (fl.overflow = true ↔ c = f.maxCode + 1)
       ∧ (fl.inexact = true ↔ c = f.maxCode + 1 ∨ ¬(atMost m e y.1 y.2 ∧ atMost y.1 y.2 m e))
       ∧ (fl.underflow = true ↔ fl.inexact = true ∧ ¬ atMost 1 (1 - (f.bias : Int)) m e)
       ∧ fl.invalid = false ∧ fl.saturate = false)

/-- The encoding of m × 2^e in a format without an infinity for what is too large (R210, R214, Table 11.5): the nearest number, or the largest
one where the rounded value, or for E2M1 the value itself, lies above it; and the flags. -/
def saturatesRight (f : FloatFmt) (neg : Bool) (m : Nat) (e : Int) : Prop :=
  ∃ c, nearest f c (fun n lo => atMost (2 * m) e n lo ∧ (atMost n lo (2 * m) e → c % 2 = 0))
        (fun n lo => atMost n lo (2 * m) e ∧ (atMost (2 * m) e n lo → c % 2 = 0))
    ∧ let tooBig := f.maxCode < c ∨ (f = e2m1 ∧ ¬ atMost m e 6 0)
      let y := magnitude f c
      (tooBig → f.encode (.fin neg m e) = (f.signed neg f.maxCode, { saturate := true, inexact := true }))
      ∧ (¬ tooBig → ∃ inexact underflow, f.encode (.fin neg m e) = (f.signed neg c, { inexact := inexact, underflow := underflow })
          ∧ (inexact = true ↔ ¬(atMost m e y.1 y.2 ∧ atMost y.1 y.2 m e))
          ∧ (underflow = true ↔ inexact = true ∧ ¬ atMost 1 (1 - (f.bias : Int)) m e))

/-- n is the integer nearest to m × 2^e, the even one of two (R216). -/
def nearestInteger (n m : Nat) (e : Int) : Prop :=
  atMost (2 * m) e (2 * n + 1) 0 ∧ (atMost (2 * n + 1) 0 (2 * m) e → n % 2 = 0)
  ∧ (n ≠ 0 → atMost (2 * n - 1) 0 (2 * m) e ∧ (atMost (2 * m) e (2 * n - 1) 0 → n % 2 = 0))

/-- A format of Table 11.1: fraction and exponent bits, bias, and whether its all-ones exponent holds infinities and NaNs, one NaN, or
numbers. -/
def layoutOf (f : FloatFmt) (p eb bias special : Nat) : Prop :=
  ∀ c, c < 2 ^ (1 + eb + p) →
    let neg := decide (c / 2 ^ (eb + p) = 1)
    let ex : Nat := c / 2 ^ p % 2 ^ eb
    let fr : Nat := c % 2 ^ p
    let top := ex = 2 ^ eb - 1
    (special = 2 → top → f.decode c = if fr = 0 then .inf neg else .nan)
    ∧ (special = 1 → top → fr = 2 ^ p - 1 → f.decode c = .nan)
    ∧ (¬(special = 2 ∧ top) → ¬(special = 1 ∧ top ∧ fr = 2 ^ p - 1) →
        f.decode c = if ex = 0 then .fin neg fr (1 - (bias : Int) - p) else .fin neg (2 ^ p + fr) ((ex : Int) - bias - p))

/-- The scale exponent of a block before it is clamped (R219): 128 with an infinity, else that of the largest magnitude. -/
def blockExponent (e2m1Rule : Bool) (xs : List Machine.Num) (e : Int) : Prop :=
  ((∃ g, .inf g ∈ xs) → e = 128)
  ∧ ((∀ g, .inf g ∉ xs) →
      if e2m1Rule then (∀ g m k, .fin g m k ∈ xs → ¬ atMost 1 (e + 3) m k) ∧ ∃ g m k, .fin g m k ∈ xs ∧ atMost 1 (e + 2) m k
      else (∀ g m k, .fin g m k ∈ xs → atMost m k 127 e) ∧ ∃ g m k, .fin g m k ∈ xs ∧ ¬ atMost m k 127 (e - 1))

/-- M × 2^E is 2^x within one part in 2^100, x being m × 2^e with a sign: both raised to the power 2^d that makes x × 2^d whole. -/
def powerOfTwo (neg : Bool) (m : Nat) (e : Int) (M : Nat) (E : Int) : Prop :=
  let k : Nat := 2 ^ (-e).toNat
  let x : Int := (if neg then -1 else 1) * (m * 2 ^ e.toNat : Nat)
  atMost ((M * (2 ^ 100 - 1)) ^ k) ((E - 100) * k) 1 x ∧ atMost 1 x ((M * (2 ^ 100 + 1)) ^ k) ((E - 100) * k)

/-- M × 2^E with a sign is the logarithm of m × 2^e to base 2 within 2^-100: both sides are powers of 2 and of the operand, to the power
that makes the exponents whole. -/
def logarithm (neg : Bool) (M : Nat) (E : Int) (m : Nat) (e : Int) : Prop :=
  let unit : Nat := 2 ^ (-E).toNat
  let k : Nat := 2 ^ 100 * unit
  let x : Int := (if neg then -1 else 1) * (M * 2 ^ (E + 100 + (-E).toNat).toNat : Nat)
  atMost 1 (x - unit) (m ^ k) (e * k) ∧ atMost (m ^ k) (e * k) 1 (x + unit)

/-- The value of a lane multiplied by a power of two and rounded once (R278). -/
def scaledLane (f : FloatFmt) (x : Nat) (n : Int) : Nat × Sticky := f.encode ((f.decode x).scale n)

end Sys2Proof.Claims

open Sys2Proof Sys2Proof.Machine Sys2Proof.Claims in
/-- R273, Table 14.1: the integer lane instructions, lane by lane at the width of fn. -/
def Obligations.VectorIntegers : Prop :=
  ∀ (x : A3) (s : State) (w : Nat), w = elemBits x.fn.toNat → (w = 8 ∨ w = 16 ∨ w = 32) →
    let a := srcA s x w
    let b := laneAt w (s.srcV x.b)
    let c := laneAt w (s.srcV x.c)
    let lanes := fun (i : Instr) (op n : Nat) (ok : Bool) (f : Nat → BitVec w) => givesLanes i op 3 n ok x s w f
    lanes (.vadd x) 0x60 2 (checkVadd x) (fun i => a i + b i)
    ∧ lanes (.vsub x) 0x61 2 (checkVsub x) (fun i => a i - b i)
    ∧ lanes (.vmul x) 0x62 2 (checkVmul x) (fun i => a i * b i)
    ∧ lanes (.vmad x) 0x63 3 (checkVmad x) (fun i => a i * b i + c i)
    ∧ lanes (.vmin x) 0x64 2 (checkVmin x) (fun i => if (b i).slt (a i) then b i else a i)
    ∧ lanes (.vmax x) 0x65 2 (checkVmax x) (fun i => if (a i).slt (b i) then b i else a i)
    ∧ lanes (.vand x) 0x66 2 (checkVand x) (fun i => a i &&& b i)
    ∧ lanes (.vor x) 0x67 2 (checkVor x) (fun i => a i ||| b i)
    ∧ lanes (.vxor x) 0x68 2 (checkVxor x) (fun i => a i ^^^ b i)
    ∧ lanes (.vshl x) 0x69 2 (checkVshl x) (fun i => a i <<< (b i).toNat)
    ∧ lanes (.vshr x) 0x6A 2 (checkVshr x) (fun i => a i >>> (b i).toNat)
    ∧ lanes (.vsra x) 0x6B 2 (checkVsra x) (fun i => (a i).sshiftRight (b i).toNat)
    ∧ lanes (.vsel x) 0x6D 3 (checkVsel x) (fun i => if (s.srcK x.a).getLsbD (w / 8 * i) then b i else c i)
    ∧ lanes (.vabs x) 0x6E 1 (checkVabs x) (fun i => if (a i).msb then - a i else a i)
    ∧ lanes (.vpopc x) 0x6F 1 (checkVpopc x) (fun i => BitVec.ofNat w ((List.range w).filter fun k => (a i).getLsbD k).length)
    ∧ lanes (.vclz x) 0x70 1 (checkVclz x)
        (fun i => BitVec.ofNat w ((List.range (w + 1)).filter fun n => n ≠ 0 && decide ((a i) >>> (w - n) = 0)).length)

open Sys2Proof Sys2Proof.Machine Sys2Proof.Claims in
/-- R274, R277: compares into a mask, integer and floating-point, with no flag; .z and .nz read no second source. -/
def Obligations.VectorCompares : Prop :=
  ∀ (x : A3) (s : State),
    let code := (x.fn.extractLsb' 0 3).toNat
    let kind := (x.fn.extractLsb' 3 2).toNat
    let n := if code < 6 then 2 else 1
    (∀ w : Nat, w = 8 * 2 ^ kind → kind < 3 →
      givesMask (.vcmp x) 0x6C 3 n (checkVcmp x) x s w (fun i => laneCondition code (srcA s x w i) (laneAt w (s.srcV x.b) i)))
    ∧ ∀ (fm : FloatFmt) (w : Nat), (kind = 0 ∧ fm = fp32 ∨ kind = 1 ∧ fm = bf16 ∨ kind = 2 ∧ fm = fp16) → w = fm.width →
        givesMask (.vfcmp x) 0x7E 4 n (checkVfcmp x) x s w
          (fun i => floatCondition code (fm.decode (srcA s x w i).toNat) (fm.decode (laneAt w (s.srcV x.b) i).toNat))

open Sys2Proof Sys2Proof.Machine Sys2Proof.Claims in
/-- R280, R281, Table 14.5: the movement instructions; indices are reduced modulo the lane count. -/
def Obligations.VectorMoves : Prop :=
  ∀ (x : A3) (s : State) (w : Nat), w = elemBits x.fn.toNat → (w = 8 ∨ w = 16 ∨ w = 32) →
    let n := 1024 / w
    let a := srcA s x w
    let whole := reqWhole 0x8A (checkVext x) x 2
    givesLanes (.vmov x) 0x88 (if specFile x.a = 2 then 13 else 3) 1 (checkVmov x) x s w a
    ∧ givesLanes (.vbcast x) 0x89 3 1 (checkVbcast x) x s w (fun _ => (s.srcS x.a).setWidth w)
    ∧ givesLanes (.viota x) 0x8E 3 1 (checkViota x) x s w (fun i => (s.srcS x.a).setWidth w + BitVec.ofNat w i)
    ∧ givesLanes (.vperm x) 0x8C 12 2 (checkVperm x) x s w (fun i => a ((laneAt w (s.srcV x.b) i).toNat % n))
    ∧ gives (.vext x) s whole { writes := [.s (specIdx x.d) ((a ((s.srcS x.b).toNat % n)).setWidth 64)], cls := 12 }
    ∧ ((reqVector 0x8B (checkVins x) x 2).ready s = true → ∃ m y,
        exec (.vins x) s = .next (s.finish (reqVector 0x8B (checkVins x) x 2) none { writes := [.v (specIdx x.d) m y], cls := 12 })
        ∧ ∀ j, j = (s.srcS x.b).toNat % n →
            (∀ b, b < 1024 → (m.getLsbD b = true ↔ b / w = j ∧ active s x.pred w j))
            ∧ (active s x.pred w j → laneAt w y j = (s.srcS x.a).setWidth w))
    ∧ ((reqVector 0x8D (checkVcomp x) x 1).ready s = true → ∃ m y,
        exec (.vcomp x) s = .next (s.finish (reqVector 0x8D (checkVcomp x) x 1) none
          { writes := [if specFile x.d = 2 then .q (specIdx x.d) y else .v (specIdx x.d) m y], cls := 12 })
        ∧ m = BitVec.allOnes 1024
        ∧ ∀ p : Nat → Bool, (∀ i, p i = true ↔ active s x.pred w i) →
            let moved := (List.range n).filter p
            (∀ k i, moved[k]? = some i → laneAt w y k = a i) ∧ ∀ k, k < n → moved.length ≤ k → laneAt w y k = 0)

open Sys2Proof Sys2Proof.Machine Sys2Proof.Claims in
/-- R275, R276, R278: the floating-point lane instructions. Each result is formed exactly and rounded once, the flags are those of
the active lanes, and minimum, maximum, absolute value and negation set none. -/
def Obligations.VectorFloats : Prop :=
  ∀ (x : A3) (s : State) (fm : FloatFmt) (w : Nat),
    (x.fn.toNat = 8 ∧ fm = fp32 ∨ x.fn.toNat = 9 ∧ fm = bf16 ∨ x.fn.toNat = 10 ∧ fm = fp16) → w = fm.width →
    let a := fun i => (srcA s x w i).toNat
    let b := fun i => (laneAt w (s.srcV x.b) i).toNat
    let c := fun i => (laneAt w (s.srcV x.c) i).toNat
    let v := fm.decode
    let sign := 2 ^ (w - 1)
    let quiet := fun (y : Nat) => (y, ({} : Sticky))
    let isNan := fun (y : Nat) => v y = .nan
    let floats := fun (i : Instr) (op n : Nat) (ok : Bool) (f : Nat → Nat × Sticky) => givesFloats i op 4 n ok x s w f
    floats (.vfadd x) 0x78 2 (checkVfadd x) (fun i => fm.finish ((v (a i)).add (v (b i))))
    ∧ floats (.vfsub x) 0x79 2 (checkVfsub x) (fun i => fm.finish ((v (a i)).add (v (b i)).neg))
    ∧ floats (.vfmul x) 0x7A 2 (checkVfmul x) (fun i => fm.finish ((v (a i)).mul (v (b i))))
    ∧ floats (.vfma x) 0x7B 3 (checkVfma x) (fun i => fm.fma (a i) (b i) (c i))
    ∧ (∀ f : Nat → Nat, (∀ i, (isNan (a i) ∨ isNan (b i) → f i = fm.nan)
          ∧ (¬(isNan (a i) ∨ isNan (b i)) → f i = if (v (b i)).lt true (v (a i)) then b i else a i)) →
        floats (.vfmin x) 0x7C 2 (checkVfmin x) (fun i => quiet (f i)))
    ∧ (∀ f : Nat → Nat, (∀ i, (isNan (a i) ∨ isNan (b i) → f i = fm.nan)
          ∧ (¬(isNan (a i) ∨ isNan (b i)) → f i = if (v (a i)).lt true (v (b i)) then b i else a i)) →
        floats (.vfmax x) 0x7D 2 (checkVfmax x) (fun i => quiet (f i)))
    ∧ (∀ f : Nat → Nat, (∀ i, (isNan (a i) → f i = fm.nan) ∧ (¬ isNan (a i) → f i = a i % sign)) →
        floats (.vfabs x) 0x7F 1 (checkVfabs x) (fun i => quiet (f i)))
    ∧ (∀ f : Nat → Nat, (∀ i, (isNan (a i) → f i = fm.nan) ∧ (¬ isNan (a i) → f i = (a i + sign) % (2 * sign))) →
        floats (.vfneg x) 0x80 1 (checkVfneg x) (fun i => quiet (f i)))
    ∧ floats (.veadd x) 0x86 2 (checkVeadd x)
        (fun i => scaledLane fm (a i) (if specFile x.b = 0 then (s.srcS x.b).toInt else (laneAt w (s.srcV x.b) i).toInt))

open Sys2Proof Sys2Proof.Machine Sys2Proof.Claims in
/-- R279, R210, R212, Table 14.4: the transcendentals give each active lane one rounding of their function, in class 5, with the special
operands of the table. A reciprocal, a square root and its reciprocal are the numbers of the format nearest to the exact ones. Powers
and logarithms are one rounding of a value that differs from the exact one by less than one part in 2^100, and by less than 2^-100. A
rounding gives the nearest number, and the flags. -/
def Obligations.Transcendentals : Prop :=
  (∀ (x : A3) (s : State) (fm : FloatFmt) (w : Nat),
    (x.fn.toNat = 8 ∧ fm = fp32 ∨ x.fn.toNat = 9 ∧ fm = bf16 ∨ x.fn.toNat = 10 ∧ fm = fp16) → w = fm.width →
    let lane := fun (g : Machine.Num → Machine.Num × Bool) (i : Nat) => fm.finish (g (fm.decode (srcA s x w i).toNat))
    givesFloats (.vexp2 x) 0x81 5 1 (checkVexp2 x) x s w (lane Machine.Num.exp2)
    ∧ givesFloats (.vlog2 x) 0x82 5 1 (checkVlog2 x) x s w (lane Machine.Num.log2)
    ∧ givesFloats (.vrcp x) 0x83 5 1 (checkVrcp x) x s w (lane Machine.Num.recip)
    ∧ givesFloats (.vrsq x) 0x84 5 1 (checkVrsq x) x s w (lane Machine.Num.rsqrt)
    ∧ givesFloats (.vsqrt x) 0x85 5 1 (checkVsqrt x) x s w (lane Machine.Num.sqrt))
  ∧ (∀ (g : Bool) (m : Nat) (e : Int), 0 < m →
      let below := Machine.Num.fin true m e
      let zero := Machine.Num.fin g 0 e
      let bad := (Machine.Num.nan, true)
      below.log2 = bad ∧ below.rsqrt = bad ∧ below.sqrt = bad
      ∧ (Machine.Num.inf true).log2 = bad ∧ (Machine.Num.inf true).rsqrt = bad ∧ (Machine.Num.inf true).sqrt = bad
      ∧ (∀ f : FloatFmt, f.finish (Machine.Num.inf true).exp2 = (f.signed false 0, {}) ∧ f.finish (Machine.Num.inf g).recip = (f.signed g 0, {})
          ∧ f.finish (Machine.Num.inf false).rsqrt = (f.signed false 0, {}) ∧ f.finish zero.sqrt = (f.signed g 0, {}))
      ∧ (Machine.Num.inf false).exp2 = (.inf false, false) ∧ (Machine.Num.inf false).log2 = (.inf false, false) ∧ (Machine.Num.inf false).sqrt = (.inf false, false)
      ∧ zero.exp2 = (.fin false 1 0, false) ∧ zero.log2 = (.inf true, false) ∧ zero.recip = (.inf g, false) ∧ zero.rsqrt = (.inf g, false))
  ∧ (∀ k : Int, -1000 ≤ k → k ≤ 1000 → (Machine.Num.fin false 1 k).log2 = (.fin (decide (k < 0)) k.natAbs 0, false)
      ∧ (Machine.Num.fin (decide (k < 0)) k.natAbs 0).exp2 = (.fin false 1 k, false))
  ∧ (∀ fm : FloatFmt, fm = fp32 ∨ fm = bf16 ∨ fm = fp16 →
      (∀ neg m e, 0 < m → roundsRight fm neg m e)
      ∧ ∀ (x : Nat) (neg : Bool) (m : Nat) (e : Int), fm.decode x = .fin neg m e → 0 < m →
        let v := fm.decode x
        (∃ c, (fm.finish v.recip).1 = fm.signed neg c
          ∧ nearest fm c (fun n lo => atMost 2 0 (n * m) (lo + e)) (fun n lo => atMost (n * m) (lo + e) 2 0))
        ∧ (neg = false → ∃ c, (fm.finish v.sqrt).1 = c
          ∧ nearest fm c (fun n lo => atMost (4 * m) e (n ^ 2) (2 * lo)) (fun n lo => atMost (n ^ 2) (2 * lo) (4 * m) e))
        ∧ (neg = false → ∃ c, (fm.finish v.rsqrt).1 = c
          ∧ nearest fm c (fun n lo => atMost 4 0 (n ^ 2 * m) (2 * lo + e)) (fun n lo => atMost (n ^ 2 * m) (2 * lo + e) 4 0))
        ∧ (topExp m e ≤ 13 → ∃ M E, v.exp2 = (.fin false M E, false) ∧ powerOfTwo neg m e M E)
        ∧ (13 < topExp m e → fm.finish v.exp2 = if neg then (0, { inexact := true, underflow := true })
            else (fm.signed false (fm.maxCode + 1), { inexact := true, overflow := true }))
        ∧ (neg = false → ∃ g M E, v.log2 = (.fin g M E, false) ∧ logarithm g M E m e))

open Sys2Proof Sys2Proof.Machine Sys2Proof.Claims in
/-- R282, R283, R284: reductions. The predicate selects the lanes, S[d] is always written, in class 6, and has its own value when no
lane is active. -/
def Obligations.Reductions : Prop :=
  ∀ (x : A3) (s : State) (w : Nat),
    (∀ on : List Nat, w = elemBits x.fn.toNat → (w = 8 ∨ w = 16 ∨ w = 32) →
      (∀ p : Nat → Bool, (∀ i, p i = true ↔ active s x.pred w i) → on = (List.range (1024 / w)).filter p) →
      let a := fun i => (srcA s x w i).toInt
      let result := fun (i : Instr) (op : Nat) (ok : Bool) (n : Int) => givesReduced i (reqVector op ok x 1) 6 x.d s (BitVec.ofInt 64 n)
      result (.vrsum x) 0xB0 (checkVrsum x) (on.map a).sum
      ∧ (∀ n : Int, (on = [] → n = -(2 ^ (w - 1))) → (on ≠ [] → (∃ i ∈ on, a i = n) ∧ ∀ i ∈ on, a i ≤ n) →
          result (.vrmax x) 0xB1 (checkVrmax x) n)
      ∧ (∀ n : Int, (on = [] → n = 2 ^ (w - 1) - 1) → (on ≠ [] → (∃ i ∈ on, a i = n) ∧ ∀ i ∈ on, n ≤ a i) →
          result (.vrmin x) 0xB2 (checkVrmin x) n))
    ∧ givesTree (.vrfsum x) 0xB3 (checkVrfsum x) x s id (fun y z => fp32.add y z) 0
    ∧ givesTree (.vrfmax x) 0xB4 (checkVrfmax x) x s id (fun y z => (fp32.maximum y z, {})) 0xFF800000
    ∧ givesTree (.vramax x) 0xB5 (checkVramax x) x s Machine.Num.abs (fun y z => (fp32.maximum y z, {})) 0
    ∧ (w = elemBits x.fn.toNat → (x.fn.toNat = 1 ∨ x.fn.toNat = 2 ∨ x.fn.toNat = 3 ∨ x.fn.toNat = 8 ∨ x.fn.toNat = 9 ∨ x.fn.toNat = 10) →
        let a := fun i => (srcA s x w i).toNat
        let result := fun (y : W64) => givesReduced (.vrarg x) (reqVector 0xB6 (checkVrarg x) x 1) 6 x.d s y
        ((∀ i, i < 1024 / w → ¬ active s x.pred w i) → result (BitVec.allOnes 64))
        ∧ ∀ i, i < 1024 / w → active s x.pred w i →
            (∀ j, j < 1024 / w → active s x.pred w j → ¬ below x.fn.toNat (a i) (a j)) →
            (∀ j, j < i → active s x.pred w j → below x.fn.toNat (a j) (a i)) → result (BitVec.ofNat 64 i))

open Sys2Proof Sys2Proof.Machine Sys2Proof.Claims in
/-- R210-R214, R216, R218, R219, R222, R286-R289: conversion between scalar formats over one slice of the wider side, quantisation of a
register group into a block's elements or its scale code, decoding of a block's elements, and the scaling of a vector in place; the value of
every code, the code and the flags of every value, and one block quantised from its values. -/
def Obligations.Conversions : Prop :=
  ∀ (w : SysF) (s : State),
    let src := (w.ctl.extractLsb' 4 4).toNat
    let dst := (w.ctl.extractLsb' 0 4).toNat
    let part := (w.ctl.extractLsb' 8 3).toNat
    let w1 := fmtWidth src
    let w2 := fmtWidth dst
    let wide := max w1 w2
    let n := 1024 / wide
    let ones := fun (m : VReg) (width : Nat) (p : Nat → Prop) => ∀ b, b < 1024 → (m.getLsbD b = true ↔ p (b / width))
    let rc := reqCvt 0xA0 (checkVcvt w) w [(w.a, w.ea)]
    let group := (List.range (groupRegs src dst)).map fun i => w.a + BitVec.ofNat 8 i
    let elems := (List.range (blockElems dst)).map fun k =>
      decodeElem src ((s.srcV (w.a + BitVec.ofNat 8 (k / (1024 / w1)))).extractLsb' (w1 * (k % (1024 / w1))) w1).toNat
    let rq : Req := { reqCvt 0xA1 (checkVqnt w) w (group.map fun r => (r, w.ea)) with captures := some 1 }
    let rs : Req := { reqCvt 0xA1 (checkVqntSc w) w (group.map fun r => (r, w.ea)) with captures := some 1 }
    let rd := reqCvt 0xA2 (checkVdqnt w) w [(w.a, w.ea)]
    let rl := reqCvt 0xA3 (checkVscl w) w [(w.a, w.ea), (w.d, false)]
    (rc.ready s = true → ∃ m y fl,
      let first := if w2 < w1 then part * n else 0
      let from_ := if w1 < w2 then part * n else 0
      let r := fun i => encodeElem dst (decodeElem src ((s.srcV w.a).extractLsb' (w1 * (from_ + i)) w1).toNat)
      ones m w2 (fun j => first ≤ j ∧ j < first + n ∧ active s w.pred wide (j - first))
      ∧ (∀ i, i < n → active s w.pred wide i → y.extractLsb' (w2 * (first + i)) w2 = BitVec.ofNat w2 (r i).1)
      ∧ flagsOf n (active s w.pred wide) (fun i => (r i).2) fl
      ∧ exec (.vcvt w) s = .next ((flagged s fl).finish rc none { writes := [.v (specIdx w.d) m y], cls := 7 }))
    ∧ (∀ code q f, quantiseBlock (dst = 9) elems = (code, q, f) →
        let v := if dst = 9 then 4 else 8
        let three : Sticky := { inexact := f.inexact, saturate := f.saturate, scaleUnderflow := f.scaleUnderflow }
        let one : Sticky := { scaleUnderflow := f.scaleUnderflow }
        (rq.ready s = true → ∃ y : VReg, (∀ i, i < blockElems dst → y.extractLsb' (v * i) v = BitVec.ofNat v (q.getD i 0))
            ∧ exec (.vqnt w) s = .next ((flagged s three.bits).finish rq none
                { writes := [.v (specIdx w.d) (BitVec.allOnes 1024) y], cls := 7 }))
        ∧ (rs.ready s = true → exec (.vqntSc w) s = .next ((flagged s one.bits).finish rs none
            { writes := [.s (specIdx w.d) (BitVec.ofNat 64 code)], cls := 7 })))
    ∧ (rd.ready s = true → ∃ m y, ones m w2 (active s w.pred w2)
        ∧ (∀ i, i < 1024 / w2 → active s w.pred w2 i →
            let k := part * (1024 / w2) + i
            let v : Machine.Num := if src = 9 then e2m1.decode ((s.srcV w.a).extractLsb' (4 * k) 4).toNat
              else numOfInt ((s.srcV w.a).extractLsb' (8 * k) 8).toInt
            laneAt w2 y i = BitVec.ofNat w2 (encodeElem dst v).1)
        ∧ exec (.vdqnt w) s = .next (s.finish rd none { writes := [.v (specIdx w.d) m y], cls := 7 }))
    ∧ (∀ (fm : FloatFmt) (v : Nat), (dst = 1 ∧ fm = fp32 ∨ dst = 2 ∧ fm = bf16 ∨ dst = 3 ∧ fm = fp16) → v = fm.width → rl.ready s = true →
        ∃ m y fl,
          let c := ((s.srcS w.a).extractLsb' 0 8).toNat
          let r := fun i => if c = 0xFF then (fm.nan, {}) else scaledLane fm (laneAt v (s.srcV w.d) i).toNat ((c : Int) - 127)
          ones m v (active s w.pred v) ∧ (∀ i, i < 1024 / v → active s w.pred v i → laneAt v y i = BitVec.ofNat v (r i).1)
          ∧ flagsOf (1024 / v) (active s w.pred v) (fun i => (r i).2) fl
          ∧ exec (.vscl w) s = .next ((flagged s fl).finish rl none { writes := [.v (specIdx w.d) m y], cls := 7 }))
    -- the formats, and what a value becomes in each of them
    ∧ layoutOf fp32 23 8 127 2 ∧ layoutOf bf16 7 8 127 2 ∧ layoutOf fp16 10 5 15 2 ∧ layoutOf e4m3 3 4 7 1 ∧ layoutOf e5m2 2 5 15 2 ∧ layoutOf e2m1 1 2 1 0
    ∧ (∀ c f, (c, f) ∈ [(1, fp32), (2, bf16), (3, fp16), (4, e4m3), (5, e5m2), (6, e2m1)] →
        (∀ x, decodeElem c x = f.decode x) ∧ ∀ v, encodeElem c v = f.encode v)
    ∧ (∀ c v, (c, v) ∈ [(7, 8), (8, 32)] → (∀ x, x < 2 ^ v → decodeElem c x = numOfInt (if 2 ^ (v - 1) ≤ x then (x : Int) - 2 ^ v else x))
        ∧ ∀ y, encodeElem c y = encodeInt v y)
    ∧ (∀ f : FloatFmt, f = fp32 ∨ f = bf16 ∨ f = fp16 → f.encode .nan = (f.nan, {}) ∧ (∀ g, f.encode (.inf g) = (f.signed g (f.maxCode + 1), {}))
        ∧ (∀ g e, f.encode (.fin g 0 e) = (f.signed g 0, {})) ∧ ∀ neg m e, 0 < m → f.encode (.fin neg m e) = f.round neg m e ∧ roundsRight f neg m e)
    ∧ (fp32.nan = 0x7FC00000 ∧ bf16.nan = 0x7FC0 ∧ fp16.nan = 0x7E00)
    ∧ (∀ f : FloatFmt, f = e4m3 ∨ f = e5m2 ∨ f = e2m1 → (∀ g e, f.encode (.fin g 0 e) = (f.signed g 0, {})) ∧ ∀ neg m e, 0 < m → saturatesRight f neg m e)
    ∧ (e4m3.encode .nan = (0x7F, {}) ∧ e5m2.encode .nan = (0x7E, {}) ∧ e2m1.encode .nan = (0, { invalid := true }))
    ∧ (∀ g, e4m3.encode (.inf g) = (e4m3.signed g 0x7E, { saturate := true }) ∧ e5m2.encode (.inf g) = (e5m2.signed g 0x7C, {})
        ∧ e2m1.encode (.inf g) = (e2m1.signed g 7, { saturate := true }))
    ∧ (∀ v, v = 8 ∨ v = 32 → encodeInt v .nan = (0, { invalid := true })
        ∧ encodeInt v (.inf true) = (2 ^ (v - 1), { saturate := true }) ∧ encodeInt v (.inf false) = (2 ^ (v - 1) - 1, { saturate := true })
        ∧ ∀ neg n m e, nearestInteger n m e →
            let i : Int := if neg then -n else n
            (-(2 ^ (v - 1) : Nat) ≤ i → i < (2 ^ (v - 1) : Nat) → ∃ inexact, encodeInt v (.fin neg m e) = ((i % (2 ^ v : Nat)).toNat, { inexact := inexact })
              ∧ (inexact = true ↔ ¬(atMost n 0 m e ∧ atMost m e n 0)))
            ∧ (i < -(2 ^ (v - 1) : Nat) → encodeInt v (.fin neg m e) = (2 ^ (v - 1), { saturate := true, inexact := true }))
            ∧ ((2 ^ (v - 1) : Nat) ≤ i → encodeInt v (.fin neg m e) = (2 ^ (v - 1) - 1, { saturate := true, inexact := true })))
    -- one block from its values
    ∧ (∀ (rule : Bool) (xs : List Machine.Num),
        let zeros := xs.map fun _ => 0
        (.nan ∈ xs → quantiseBlock rule xs = (0xFF, zeros, {}))
        ∧ (.nan ∉ xs → (∀ x ∈ xs, x.isZero = true) → quantiseBlock rule xs = (0, zeros, {}))
        ∧ (.nan ∉ xs → (∃ x ∈ xs, x.isZero = false) → ∀ e, blockExponent rule xs e →
            let c : Int := if 127 < e then 127 else if e < -127 then -127 else e
            let scaled : Machine.Num → Machine.Num := fun x => match x with
              | .fin g m k => .fin g m (k - c)
              | y => y
            let q := fun (x : Machine.Num) => if rule then e2m1.encode (scaled x)
              else if (encodeInt 8 (scaled x)).1 = 0x80 then (0x81, { saturate := true, inexact := decide (∀ g, x ≠ .inf g) }) else encodeInt 8 (scaled x)
            ∃ f, quantiseBlock rule xs = ((c + 127).toNat, xs.map fun x => (q x).1, f)
              ∧ (f.scaleUnderflow = true ↔ e < -127) ∧ (f.inexact = true ↔ ∃ x ∈ xs, (q x).2.inexact = true)
              ∧ (f.saturate = true ↔ ∃ x ∈ xs, (q x).2.saturate = true)))
    ∧ (∀ (scale x : Nat), blockValue true 0xFF x = .nan ∧ blockValue false 0xFF x = .nan
        ∧ (scale < 0xFF → (x < 16 → ∀ g m e, e2m1.decode x = .fin g m e → blockValue true scale x = .fin g m (e + scale - 127))
            ∧ (x < 256 → let i : Int := if 128 ≤ x then (x : Int) - 256 else x
                blockValue false scale x = .fin (decide (i < 0)) i.natAbs ((scale : Int) - 127))))

open Sys2Proof Sys2Proof.Machine Sys2Proof.Claims in
/-- R290, Table 14.8: the mask instructions, with mask destinations written bit by bit under the predicate. -/
def Obligations.Masks : Prop :=
  ∀ (x : A3) (s : State),
    let a := fun b => (s.srcK x.a).getLsbD b
    let k := fun b => (s.srcK x.b).getLsbD b
    let all := fun (_ : Nat) => True
    let scalar := fun (i : Instr) (op : Nat) (ok : Bool) (y : W64) => givesReduced i (reqWhole op ok x 1) 11 x.d s y
    givesBits (.kand x) 0xA8 2 (checkKand x) x s all (fun b => a b && k b)
    ∧ givesBits (.kor x) 0xA9 2 (checkKor x) x s all (fun b => a b || k b)
    ∧ givesBits (.kxor x) 0xAA 2 (checkKxor x) x s all (fun b => a b ^^ k b)
    ∧ givesBits (.knot x) 0xAB 1 (checkKnot x) x s all (fun b => !(a b))
    ∧ givesBits (.kmov x) 0xAC 1 (checkKmov x) x s all a
    ∧ givesBits (.kmovL64ToMask x) 0xAC 1 (checkKmovL64ToMask x) x s (· < 64) (fun b => (s.srcS x.a).getLsbD b)
    ∧ givesBits (.kmovH64ToMask x) 0xAC 1 (checkKmovH64ToMask x) x s (64 ≤ ·) (fun b => (s.srcS x.a).getLsbD (b - 64))
    ∧ scalar (.kmovL64ToScalar x) 0xAC (checkKmovL64ToScalar x) ((s.srcK x.a).extractLsb' 0 64)
    ∧ scalar (.kmovH64ToScalar x) 0xAC (checkKmovH64ToScalar x) ((s.srcK x.a).extractLsb' 64 64)
    ∧ ∀ w, w = elemBits x.fn.toNat → (w = 8 ∨ w = 16 ∨ w = 32) →
        let on := (List.range (1024 / w)).filter fun j => a (w / 8 * j)
        scalar (.kpop x) 0xAD (checkKpop x) (BitVec.ofNat 64 on.length)
        ∧ (∀ j, (j < 1024 / w → a (w / 8 * j) = true) → j ≤ 1024 / w → (∀ i, i < j → a (w / 8 * i) = false) →
            scalar (.kff x) 0xAE (checkKff x) (BitVec.ofNat 64 j))

/-! ### Engine jobs, the matrix array, streams, experts and the prefix index (R173, R187-R209, R304, R315-R337) -/

namespace Sys2Proof.Claims
open Sys2Proof.Machine

/-- A clause of a descriptor word: none where it is 0 (R236). -/
def named {w : Nat} (x : BitVec w) (y : Option Nat) : Prop := (x = 0 → y = none) ∧ (x ≠ 0 → y = some x.toNat)

/-- The semaphores that a word's clauses name belong to the core's context (R298). -/
def clausesMine (w : EngF) (s : State) : Prop :=
  ∀ n : BitVec 8, n ≠ 0 → (n = w.waitsem ∨ n = w.sigsem) → (s.sem n.toNat).assigned = true ∧ (s.sem n.toNat).ctx = s.core.ctx

/-- The state after a job of the core has entered a queue: it is the last job, it carries the continuation, its entry and its
clauses, begins two beats later at the earliest, and its tag bit is cleared. -/
def jobAdded (w : EngF) (t u : State) (kind : JobKind) (unit : JobUnit) (err : Option Nat) : Prop :=
  ∃ j, u.jobs = t.jobs ++ [j] ∧ j.kind = kind ∧ j.unit = unit ∧ j.err = err ∧ j.core = t.subj.core.val ∧ j.cont = t.core.cont
    ∧ j.entry = t.core.entry ∧ j.ctx = t.core.ctx ∧ j.phase = .queued ∧ j.begun = false ∧ j.mpc = 0 ∧ j.ready = t.beat + 2
    ∧ named w.waitsem j.wait ∧ named w.sigsem j.sig ∧ named w.tag j.tag ∧ (w.waitsem ≠ 0 → j.take.isSome = true)
    ∧ (∀ k, k < 64 → u.core.tagmap.getLsbD k = (t.core.tagmap.getLsbD k && decide (j.tag ≠ some k)))
    ∧ u.core.s = t.core.s ∧ u.core.v = t.core.v ∧ u.core.k = t.core.k ∧ u.core.status = t.core.status ∧ u.mem = t.mem ∧ u.wq = t.wq

/-- A descriptor whose access may not be made faults precisely, and one whose columns hold an uncorrectable error ends the entry
(R134, R315). -/
def descriptorStops (i : Instr) (s : State) (r : Req) (va align : Nat) : Prop :=
  ∀ t f, r.ready s = true → readCore s { va := va, len := 64, align := align } = (t, .error f) →
    (f.1 ≠ 0x21 → exec i s = .next (t.takeTrap { code := f.1, path := 0, fva := BitVec.ofNat 64 f.2 }))
    ∧ (f.1 = 0x21 → exec i s = .next ((t.takeTrap { code := 0x21 }).failEntry t.core.entry 0x21))

/-- A matrix instruction puts its job into the array's queue: its clauses are the context's, its descriptor is within its limits
and names ranges that translate, and the queue has room. What is wrong is raised precisely instead; a full queue makes it wait, and so
does a refresh of a bank that it reads (R13, R315; log 54). -/
def matrixJob (i : Instr) (op : Nat) (ok : Bool) (w : EngF) (s : State) (limits : State → MatDesc → Prop)
    (ranges : State → MatDesc → List (Access × Nat)) (early : State → MatDesc → Option Trap) (kind : State → MatDesc → JobKind)
    (stamp : List (Spec × Bool)) : Prop :=
  let r := reqDesc op ok w ((w.desc, w.e) :: stamp)
  let unit := JobUnit.array s.yardIdx.val
  (¬ clausesMine w s → trapsWith i s r { code := 0x06 })
  ∧ (clausesMine w s → descriptorStops i s r (s.srcS w.desc).toNat 64)
  ∧ ∀ t bs d whole, clausesMine w s → readDesc s (s.srcS w.desc).toNat = (t, .ok bs) → parseMat bs = (d, whole) → r.ready s = true →
      (¬(whole = true ∧ limits t d) → exec i s = .next (t.takeTrap { code := 0x02 }))
      ∧ (whole = true → limits t d → ∀ x, early t d = some x → exec i s = .next (t.takeTrap x))
      ∧ (whole = true → limits t d → early t d = none → ∀ u, checkRanges t (ranges t d) = (u, none) →
          (u.unitLoad unit < Config.unitQueue → u.unserved = false →
            ∃ v : State, exec i s = .next (v.finish r none {}) ∧ jobAdded w u v (kind u d) unit none)
          ∧ (u.unitLoad unit < Config.unitQueue → u.unserved = true → exec i s = .next s)
          ∧ (Config.unitQueue ≤ u.unitLoad unit → exec i s = .next u))

/-- ADDR and STRIDE are multiples of 64 (R317). -/
def aligned64 (d : MatDesc) : Prop := d.addr.toNat % 64 = 0 ∧ d.stride % 64 = 0

/-- NROWS and ACCBASE name rows that exist (R317). -/
def rowsExist (d : MatDesc) : Prop := 1 ≤ d.rows ∧ d.rows ≤ 1024 ∧ d.accBase + d.rows ≤ 1024

/-- FORMAT is one of a plane or a streamed row. -/
def planeFormat (d : MatDesc) : Prop := 9 ≤ d.format ∧ d.format ≤ 13

/-- The stamp of a word: none, or its base and offset (R236). -/
def stampNow (w : EngF) (t : State) : Option Nat := if w.stampEn then some ((t.srcS w.d).toNat + w.stampOff.toNat) else none

/-- The fault of a q source at issue (R320, R322). -/
def qFault (need : Stream → MatDesc → Nat) (t : State) (d : MatDesc) : Option Trap :=
  if d.flags.getLsbD 3 then
    match vget none t.core.q d.qreg with
    | none => some { code := 0x0B }
    | some b => if b.isWrite then some { code := 0x0B } else if b.total < b.pos + need b d then some { code := 0x02 } else none
  else none

/-- The first byte of ADDR on the MATRIX path, unless the rows come from a q register. -/
def addrRange (need : Need) (q : Bool) (t : State) (d : MatDesc) : List (Access × Nat) :=
  if q && d.flags.getLsbD 3 then [] else [({ ctx := t.core.ctx, path := 3, need := need, cache := .yard t.yardIdx }, d.addr.toNat)]

/-- The first byte of a range of a plane, as the memory that holds it is read (R318). -/
def planeRange (t : State) (va : W64) : Access × Nat :=
  (planeAccess t t.core.ctx t.yardIdx va.toNat, va.toNat)

/-- A run of the core's entry on its yard's array. -/
def runHere (s : State) (l : Lunge) : Prop := s.yards[s.yardIdx].arr.lunge = some l ∧ l.entry = s.core.entry

/-- A job that has not ended of a run of the core's entry on its yard's array. -/
def runJob (s : State) (j : Job) : Prop :=
  j.unit = .array s.yardIdx.val ∧ j.entry = s.core.entry ∧ j.open_ = true ∧ ∃ d b look, j.kind = .mlunge d b look

/-- The request of a prefix-index instruction. -/
def reqIndex (op : Nat) (ok : Bool) (w : A3) (n : Nat) (dsts : List Spec) (s : State) : Req :=
  { op := BitVec.ofNat 8 op, ok := ok, feature := s.accepts 2, pred := w.pred, srcs := [(w.a, w.ea), (w.b, w.eb), (w.c, w.ec)].take n,
    dsts := dsts }

/-- A status in bits 63:32 and a handle in bits 31:0 (R336, R337). -/
def statusHandle (status handle : Nat) : W64 := BitVec.ofNat 64 (2 ^ 32 * status + handle)

/-- The handle of a prefix slot (R153). -/
def handleOf (s : State) (slot : Nat) : Nat := (s.prefix_ slot).gen % 65536 * 65536 + slot

end Sys2Proof.Claims

open Sys2Proof Sys2Proof.Machine Sys2Proof.Claims in
/-- R315-R322, R324: MLDS, MSTRM, MDRN, MZERO, MEADD, MSCL and MLUNGE each put one job into the queue of the yard's array under the
limits of their descriptor; MSWAP, which has none, does so under its clauses alone; MLUNGE needs LUNGE. That the take of a wait
clause joins its queue at issue is log 25, and the path by which a plane, its scales and its metadata are checked log 26. -/
def Obligations.MatrixJobs : Prop :=
  ∀ (w : EngF) (s : State),
    let none_ := fun (_ : State) (_ : MatDesc) => (none : Option Trap)
    let nothing := fun (_ : State) (_ : MatDesc) => ([] : List (Access × Nat))
    let stamp := if w.stampEn then [(w.d, false)] else []
    let unit := JobUnit.array s.yardIdx.val
    let rs := reqDesc 0xC1 (checkMswap w) w []
    let bit := fun (d : MatDesc) (i : Nat) => d.flags.getLsbD i
    matrixJob (.mstrm w) 0xC2 (checkMstrm w) w s
        (fun t d => (bit d 3 = true ∨ aligned64 d) ∧ planeFormat d ∧ rowsExist d ∧ 1 ≤ d.depth ∧ d.depth ≤ t.gov.pmaxMatrix)
        (addrRange .read true) (qFault fun b d => d.rows * (8 * (if bit d 1 then 768 else 384) / elemBits b.fmt))
        (fun t d => .mstrm d (stampNow w t)) stamp
    ∧ matrixJob (.mdrn w) 0xC3 (checkMdrn w) w s (fun _ d => aligned64 d ∧ rowsExist d ∧ (d.format = 3 ∨ 8 ≤ d.format ∧ d.format ≤ 14))
        (addrRange .write false) none_ (fun _ d => .mdrn d) []
    ∧ matrixJob (.mzero w) 0xC4 (checkMzero w) w s (fun _ d => rowsExist d) nothing none_ (fun _ d => .mzero d) []
    ∧ matrixJob (.meadd w) 0xC5 (checkMeadd w) w s (fun _ d => rowsExist d ∧ -255 ≤ d.exp ∧ d.exp ≤ 255) nothing none_ (fun _ d => .meadd d) []
    ∧ matrixJob (.mscl w) 0xC6 (checkMscl w) w s
        (fun _ d => bit d 3 = true ∨ d.addr.toNat % 64 = 0 ∧ 1 ≤ d.count ∧ d.count ≤ 2 ^ 24)
        (addrRange .read true) (qFault fun _ _ => 1) (fun _ d => .mscl d) []
    ∧ matrixJob (.mlds w) 0xC0 (checkMlds w) w s
        (fun _ d => (bit d 2 = true ∨ aligned64 d) ∧ planeFormat d ∧ (bit d 0 = true → bit d 2 = false → d.scales.toNat % 64 = 0)
          ∧ (bit d 1 = true → d.metadata.toNat % 64 = 0) ∧ (bit d 2 = true → d.format = 13 ∧ bit d 0 = true ∧ bit d 1 = false))
        (fun t d => planeRange t d.addr :: ((if bit d 0 && !bit d 2 then [planeRange t d.scales] else [])
          ++ if bit d 1 then [planeRange t d.metadata] else [])) none_ (fun _ d => .mlds d) []
    ∧ (¬ clausesMine w s → trapsWith (.mswap w) s rs { code := 0x06 })
    ∧ (clausesMine w s → rs.ready s = true → s.unitLoad unit < Config.unitQueue →
        ∃ v : State, exec (.mswap w) s = .next (v.finish rs none {}) ∧ jobAdded w s v .mswap unit none)
    ∧ (∀ r : Req, r = { reqDesc 0xC8 (checkMlunge w) w ((w.desc, w.e) :: stamp) with feature := s.accepts 3 } → r.ready s = true →
        clausesMine w s → ∀ t bs d, readDesc s (s.srcS w.desc).toNat = (t, .ok bs) → parseMat bs = (d, true) →
          ∀ look, look = (t.core.lookahead.extractLsb' 0 16).toNat →
          let limits := 1 ≤ d.period ∧ 1 ≤ d.group ∧ d.group ≤ 512 ∧ 1 ≤ d.ksteps ∧ 1 ≤ d.lrows ∧ d.lrows ≤ 2 ^ 30
            ∧ d.lrows % (d.group * d.ksteps) = 0 ∧ d.accBase + 2 * d.group ≤ 1024 ∧ d.depth = 0 ∧ 1 ≤ look
            ∧ d.group * d.ksteps * d.period + look ≤ t.gov.pmaxMatrix ∧ planeFormat d
          (¬ limits → exec (.mlunge w) s = .next (t.takeTrap { code := 0x02 }))
          ∧ (limits → t.unitLoad unit < Config.unitQueue → t.unserved = true → exec (.mlunge w) s = .next s)
          ∧ (limits → t.unitLoad unit < Config.unitQueue → t.unserved = false →
              ∃ v : State, exec (.mlunge w) s = .next (v.finish r none {}) ∧ jobAdded w t v (.mlunge d (stampNow w t) look) unit none))

open Sys2Proof Sys2Proof.Machine Sys2Proof.Claims in
/-- R310, R328, R330, R331, R333: BTEG, BCALL, KVHO, BTINV and LXJOB each put one job into the queue of their unit once their
descriptors and captures are in order: channel 0 of the yard for BTEG (log 14) and KVHO, the named ports for BCALL, the front end
and the layout engine. A refresh of a bank that they read makes them wait (R13; log 54), and BTINV waits for writes that a refresh keeps
from their arrays. That the take of a wait clause joins its queue at issue is log 25. -/
def Obligations.PackageJobs : Prop :=
  ∀ (w : EngF) (s t u : State) (bs : List Byte), clausesMine w s →
    let va := (s.srcS w.desc).toNat
    let ctx := s.core.ctx
    let put := fun (i : Instr) (r : Req) (from_ : State) (kind : JobKind) (unit : JobUnit) (err : Option Nat) =>
      ∃ v : State, exec i s = .next (v.finish r none {}) ∧ jobAdded w from_ v kind unit err
    let adds := fun (i : Instr) (r : Req) (from_ : State) (kind : JobKind) (unit : JobUnit) (err : Option Nat) =>
      r.ready s = true → from_.unitLoad unit < Config.unitQueue →
        (from_.unserved = true → exec i s = .next s) ∧ (from_.unserved = false → put i r from_ kind unit err)
    let rg : Req := { op := 0xD1, ok := checkBteg w, pred := w.pred, perLane := true, srcs := [(w.d, false), (w.desc, w.e)], touches := true }
    let rv := reqDesc 0xD6 (checkBtinv w) w [(w.desc, w.e)]
    let first := fun (path : Nat) (need : Need) (cache : CacheId) (x : W64) =>
      (({ ctx := ctx, path := path, need := need, cache := cache } : Access), x.toNat)
    descriptorStops (.bteg w) s rg va 1
    ∧ (readCore s { va := va, len := 64 } = (t, .ok bs) → pairOk (parseTmpl bs).conv.toNat = false → rg.ready s = true →
        exec (.bteg w) s = .next (t.takeTrap { code := 0x02 }))
    ∧ (∀ x lanes, readCore s { va := va, len := 64 } = (t, .ok bs) → x = parseTmpl bs →
      pairOk x.conv.toNat = true → (∀ i, i < 32 → (lanes : BitVec 32).getLsbD i = predBit t w.pred (4 * i)) →
      ∀ err, (∀ n, err = some n ↔ x.err = some n ∧ t.semOwned n ctx = true) →
      adds (.bteg w) rg t
        (.bteg x (t.srcV w.d) lanes) (.bte s.yardIdx.val 0) err)
    ∧ (readDesc s va = (t, .ok bs) →
        (∀ d c, d = parseBcall bs → bcallOk bs d = true → (∀ n, d.errsem = some n → t.semOwned n ctx = true) → t.slotBusy d.slot = false →
          ∀ t', ((d.btab = 0 ∧ t' = t ∧ c = {}) ∨ (d.btab ≠ 0 ∧ capture t ctx s.yardIdx d.btab d.blkFirst d.blkCount = (t', .ok c))) →
          ∀ die, d.ports.getLsbD die = true → (∀ e, e < die → d.ports.getLsbD e = false) → die < 48 →
          (d.btab ≠ 0 → ∀ x ∈ c.sets, 2 * (c.layers * c.heads) * x + 2 * (c.layers * c.heads) ≤ c.poolBlocks) →
          checkRanges t' [first 4 .read (.mcs ⟨die % 48, Nat.mod_lt _ (by decide)⟩) d.prog] = (u, none) →
          (∀ e, e < 48 → d.ports.getLsbD e = true → u.unitLoad (.mcs e) < Config.unitQueue) →
          adds (.bcall w) (reqDesc 0xD3 (checkBcall w) w [(w.desc, w.e)]) u (.bcall d c) (.mcs die) d.errsem)
        ∧ (∀ d t' c, d = parseKvho bs → kvhoOk bs d = true →
            capture t ctx s.yardIdx d.btab (d.t0 / 16) ((d.t0 + d.ntok - 1) / 16 - d.t0 / 16 + 1) = (t', .ok c) →
            d.layer < c.layers → d.head < c.heads →
            (∀ x ∈ c.sets, x * (2 * c.layers * c.heads) + 2 * (d.layer * c.heads + d.head) + 1 < c.poolBlocks) →
            checkRanges t' [first 2 .read (.yard s.yardIdx) d.ksrc, first 2 .read (.yard s.yardIdx) d.vsrc] = (u, none) →
            adds (.kvho w) (reqDesc 0xD5 (checkKvho w) w [(w.desc, w.e)]) u (.kvho d c) (.bte s.yardIdx.val 0) none)
        ∧ (∀ x e h1 h2 v, x = parseIngest bs (s.srcS w.desc + 0x38) → numAt bs 0 1 = 4 → numAt bs 1 1 = 1 → numAt bs 2 6 = 0 → x.sig = none →
            ingestFieldsOk bs x (t.accepts 1) = true → t.expertTaken ctx x = false → (∀ n, x.err = some n → t.semOwned n ctx = true) →
            t.entry? s.core.entry = some e → x.src ∈ e.handles → x.dst ∈ e.handles →
            (t.ctxAt ctx).handle? x.src = some h1 → (t.ctxAt ctx).handle? x.dst = some h2 → h1.st = .set → h2.st = .set →
            x.rangesOk h1 h2 = true → (t.peerSource h1 x.srcOff (x.srcSpan h1) = false ∨ t.accepts 5 = true) →
            let lay : LayoutFor := { ctx := ctx, entry := s.core.entry }
            checkRanges t ((if h1.bus then [] else [(lay.access .read, (h1.base + x.srcOff) % 2 ^ 64)])
              ++ (if x.coded then [(lay.access .read, x.codetab.toNat)] else []) ++ [(lay.access .write, (h2.base + x.dstOff) % 2 ^ 64)])
              = (v, none) →
            (∃ f, firstUnit v lay (h2.base + x.dstOff) = (u, .ok f)) →
            adds (.lxjob w) (reqDesc 0xD9 (checkLxjob w) w [(w.desc, w.e)]) u (.layout x (s.srcS w.desc + 0x38)) .layout x.err))
    ∧ ((s.srcS w.desc).toNat % 64 = 0 → s.unitLoad .frontEnd < Config.unitQueue → u.blockTabs = s.blockTabs.filter (fun c => !(c.ctx == ctx && c.addr == s.srcS w.desc)) →
        u = { s.drainWrites with blockTabs := u.blockTabs } →
        ∀ waitFor, waitFor = (s.jobs.filter fun j => j.ctx = ctx && j.kind.captured == some (s.srcS w.desc)).map (·.id) →
        (keptBack s → stalls (.btinv w) s rv) ∧ (¬ keptBack s → rv.ready s = true → put (.btinv w) rv u (.btinv (s.srcS w.desc) waitFor) .frontEnd none))

open Sys2Proof Sys2Proof.Machine Sys2Proof.Claims in
/-- R196, R205, R208, R323-R327: MSTAT and MWAITD wait for their word, which FULL_EMPTY_RESULT_FILL samples and which takes the
flags or the demand it returns, of several the first in due order (R205; of equal ones the one raised first, log 75),
and 0 where no run exists or can raise another; MFEED answers an open row and retires once the array has read it; MDACK frees a group; MSTOP stops
the run after its current group. -/
def Obligations.LungeAndStatus : Prop :=
  (∀ (w : EngF) (s : State), givesReduced (.mstat w) { op := 0xC7, ok := checkMstat w, pred := w.pred, dsts := [w.d] } 14 w.d s 0)
  ∧ (∀ (w : A3) (s : State),
      givesReduced (.mwaitd w) { op := 0xC9, ok := checkMwaitd w, feature := s.accepts 3, pred := w.pred, dsts := [w.d] } 14 w.d s 0)
  ∧ (∀ (s : State) (n : Nat) (f : InFlight) (d : Nat), s.core.flight[n]? = some f → f.land = .arrival → f.due ≤ s.beat →
      s.core.overtakes f n = false → f.writes = [.s d 0] → 0 < d → d < 64 →
      (f.op = 0xC7 → s.matrixBefore f.mark = false → ∃ t : State, exec (.fullEmptyResultFill n) s = .next t ∧ t.core.getS d = s.mstatWord
        ∧ t.core.isFull (BitVec.ofNat 8 d) = true
        ∧ t.yards[s.yardIdx].arr = { s.yards[s.yardIdx].arr with invalid := false, overflow := false, underflow := false, inexact := false })
      ∧ (f.op = 0xC9 → s.mwaitdBefore f = true → exec (.fullEmptyResultFill n) s = .next s)
      ∧ (f.op = 0xC9 → s.mwaitdBefore f = false →
          let queued := ∃ j ∈ s.jobs, runJob s j ∧ ∀ l, s.yards[s.yardIdx].arr.lunge = some l → l.job ≠ j.id
          let spent := fun (l : Lunge) => l.failed = true ∨ (l.rows ≤ l.demandRow ∧ l.rows ≤ l.landed)
          let ends := ¬ queued ∧ ∀ l, runHere s l → l.demands = [] ∧ spent l
          let waits := (∀ l, runHere s l → l.demands = []) ∧ (queued ∨ ∃ l, runHere s l ∧ ¬ spent l)
          (ends → ∃ t : State, exec (.fullEmptyResultFill n) s = .next t ∧ t.core.isFull (BitVec.ofNat 8 d) = true
            ∧ t.core.getS d = 0 ∧ t.yards = s.yards)
          ∧ (waits → exec (.fullEmptyResultFill n) s = .next s))
      ∧ (f.op = 0xC9 → s.mwaitdBefore f = false → ∀ l x k, runHere s l → k < 64 → l.demands[k]? = some x →
          (∀ j y, j < 64 → l.demands[j]? = some y → x.due < y.due ∨ (x.due = y.due ∧ k ≤ j)) →
          ∃ t : State, exec (.fullEmptyResultFill n) s = .next t ∧ t.core.isFull (BitVec.ofNat 8 d) = true
            ∧ t.core.getS d = BitVec.ofNat 64 (2 ^ 62 * x.kind + 2 ^ 32 * (x.index % 2 ^ 30) + x.due % 2 ^ 32)
            ∧ t.yards[s.yardIdx].arr.lunge = some { l with demands := l.demands.erase x }))
  ∧ (∀ (w : SysF) (s : State),
      let r : Req := { op := 0xCA, ok := checkMfeed w, feature := s.accepts 3, pred := w.pred, srcs := [(w.a, w.ea), (w.d, false)] }
      let rd : Req := { op := 0xCB, ok := checkMdack w, feature := s.accepts 3, pred := w.pred, srcs := [(w.a, w.ea)] }
      let row := (s.srcS w.d).toNat
      let g := s.stage (w.ctl.extractLsb' 0 3).toNat
      let mine := g.full = true ∧ g.owner = s.subj.core.val % 8 ∧ g.ctx = s.core.ctx
      let va := (s.srcS w.a + g.data.setWidth 64).toNat
      let group := (s.srcS w.a).toNat
      let given := fun x : Fed => s.core.fed.find? (fun y => decide (y.addr = s.core.f0)) = some x
      let fresh := s.core.fed.find? (fun y => decide (y.addr = s.core.f0)) = none
      let unread := fun x : Fed => ∃ (y : Fin 8) (l : Lunge), s.yards[y].arr.lunge = some l ∧ l.job = x.run ∧ l.start = x.start
        ∧ l.next ≤ x.row ∧ x.row < l.limit ∧ l.failed = false
      let gone := s.yards[s.yardIdx].arr.withdrawn
      let looks := fun (t : State) (x : Except (BitVec 8 × Nat) (List (List Nat))) =>
        reach s (arrayAccess s.core.ctx s.yardIdx pathMatrix .read) [{ va := va, len := 1 }] = (t, x)
      (∀ x, given x → ¬ unread x → r.ready s = true →
        exec (.mfeed w) s = .next ((s.modCore fun c => { c with fed := c.fed.filter (·.addr ≠ s.core.f0) }).finish r none {}))
      ∧ (∀ x, given x → unread x → stalls (.mfeed w) s r)
      ∧ (fresh → ¬ mine → trapsWith (.mfeed w) s r { code := 0x0A })
      ∧ (fresh → mine → (∀ l, runHere s l → row ∉ l.open_) →
          ((s.core.entry, row) ∉ gone → trapsWith (.mfeed w) s r { code := 0x02 })
          ∧ ((s.core.entry, row) ∈ gone → r.ready s = true → exec (.mfeed w) s = .next
              ((s.modArr s.yardIdx fun a => { a with withdrawn := gone.filter (· ≠ (s.core.entry, row)) }).finish r none {})))
      ∧ ((∀ l, ¬ runHere s l) → trapsWith (.mdack w) s rd { code := 0x02 })
      ∧ ∀ l, runHere s l → (fresh → mine → row ∈ l.open_ → r.ready s = true → ∀ t : State,
          (∀ c x, looks t (.error (c, x)) → exec (.mfeed w) s = .next (t.takeTrap { code := c, path := 3, fva := BitVec.ofNat 64 x }))
          ∧ (∀ pas, looks t (.ok pas) → va % 64 ≠ 0 →
              exec (.mfeed w) s = .next (t.takeTrap { code := 0x04, path := 3, fva := BitVec.ofNat 64 va }))
          ∧ (∀ pa, looks t (.ok [[pa]]) → va % 64 = 0 →
              ∃ (u : State) (l' : Lunge), exec (.mfeed w) s = .next u ∧ u.core = { s.core with fed := { addr := s.core.f0, row := row, run := l.job, start := l.start } :: s.core.fed }
                ∧ u.yards[s.yardIdx].arr.lunge = some l'
                ∧ l'.open_ = l.open_.filter (· ≠ row)
                ∧ l'.answers = l.answers ++ [{ row := row, addr := BitVec.ofNat 64 va, beat := s.beat + 1, remote := loftYard pa ≠ s.yardIdx.val }]
                ∧ l'.demands = l.demands.filter fun d => !(d.kind == 1 && d.index == row)))
      ∧ (group ∉ l.drains → trapsWith (.mdack w) s rd { code := 0x02 })
      ∧ (group ∈ l.drains → s.draining = true → stalls (.mdack w) s rd)
      ∧ (group ∈ l.drains → s.draining = false → rd.ready s = true →
          ∃ (u : State) (l' : Lunge), exec (.mdack w) s = .next (u.finish rd none {}) ∧ u.yards[s.yardIdx].arr.lunge = some l'
            ∧ l'.drains = l.drains.filter (· ≠ group) ∧ l'.freed = l.freed ++ [group]
            ∧ l'.demands = l.demands.filter fun d => !(d.kind == 2 && d.index == group)))
  ∧ (∀ (w : EngF) (s : State) (r : Req), r = { reqDesc 0xCC (checkMstop w) w [] with feature := s.accepts 3 } → r.ready s = true →
      (∀ l : Lunge, runHere s l →
        let rows := l.desc.group * l.desc.ksteps
        let group := (l.next - 1) / rows
        (l.failed = true → exec (.mstop w) s = .next (s.finish r none {}))
        ∧ (l.failed = false → ∃ (u : State) (l' : Lunge), exec (.mstop w) s = .next (u.finish r none {}) ∧ u.mem = s.mem ∧ u.core = s.core
            ∧ u.yards[s.yardIdx].arr.lunge = some l' ∧ l'.yields = false
            ∧ (∀ j, l.stopAt = some j → l' = { l with yields := false })
            ∧ (l.stopAt = none → l'.stopAt = some group ∧ l'.limit = min l.desc.lrows ((group + 1) * rows)
                ∧ l'.open_ = l.open_.filter (decide <| · < l'.limit)
                ∧ ∀ x, x ∈ u.yards[s.yardIdx].arr.withdrawn ↔ x ∈ s.yards[s.yardIdx].arr.withdrawn
                    ∨ (x.1 = l.entry ∧ x.2 ∈ l.open_ ∧ l'.limit ≤ x.2))))
      ∧ ((∀ l : Lunge, ¬ runHere s l) →
        let mine := fun (j : Job) => j.entry = s.core.entry ∧ j.unit = .array s.yardIdx.val ∧ j.open_ = true
        ((∀ j ∈ s.jobs, mine j → ∀ d b look, j.kind ≠ .mlunge d b look) → exec (.mstop w) s = .next (s.finish r none {}))
        ∧ (∀ xs j ys d b look, s.jobs = xs ++ j :: ys → mine j → j.kind = .mlunge d b look → (∀ x ∈ xs ++ ys, x.id ≠ j.id) →
            (∀ x ∈ xs, mine x → ∀ d b look, x.kind ≠ .mlunge d b look) →
            let cut := JobKind.mlunge { d with lrows := max (d.group * d.ksteps) j.mpc } b look
            exec (.mstop w) s = .next ({ s with jobs := xs ++ { j with kind := cut } :: ys }.finish r none {}))))

open Sys2Proof Sys2Proof.Machine Sys2Proof.Claims in
/-- R173, R311, R312: STRB binds a free q register to its descriptor, STRU unbinds it, STRQ reads its position and STRS moves it on;
a register bound already, and a move past the pattern, raise RESERVED_FIELD, and an unbound one STREAM_UNBOUND; STRU and STRS wait
for what a write stream has still to perform, and with STRQ raise a fault that its transfer unit met; a refresh of a bank that STRB reads
makes it wait (R13; log 54), a result whose landing slot is still to come is no element appended (log 72), and a stream that STRS moves
to its end stays bound (log 23); the transfer unit appends the next
vector to a read stream that has room (its depth is the model's, log 11), performs the oldest vector of a write stream, and stops at a
fault. -/
def Obligations.Streams : Prop :=
  (∀ (w : SysF) (s : State), s.streamHeld w.d = false →
    let q := (w.d.extractLsb' 0 6).toNat
    let rb : Req := { op := 0xCD, ok := checkStrb w, pred := w.pred, srcs := [(w.a, w.ea)], touches := true }
    let ru : Req := { op := 0xCE, ok := checkStru w, pred := w.pred }
    let rs : Req := { op := 0xD0, ok := checkStrs w, pred := w.pred, srcs := [(w.a, w.ea)] }
    let bound := vget none s.core.q q
    let sets := fun (i : Instr) (r : Req) (t : State) (x : Option Stream) => r.ready s = true →
      exec i s = .next ((t.modCore fun c => { c with q := vset c.q q x }).finish r none {})
    (∀ b, bound = some b → trapsWith (.strb w) s rb { code := 0x02 })
    ∧ (bound = none → descriptorStops (.strb w) s rb (s.srcS w.a).toNat 1)
    ∧ (∀ t bs, bound = none → readCore s { va := (s.srcS w.a).toNat, len := 64 } = (t, .ok bs) → parseStream bs = none →
        rb.ready s = true → exec (.strb w) s = .next (t.takeTrap { code := 0x02 }))
    ∧ (∀ t bs b u y, bound = none → readCore s { va := (s.srcS w.a).toNat, len := 64 } = (t, .ok bs) → parseStream bs = some b →
        reach t { t.streamAccess (if b.isWrite then .write else .read) with probe := true } [{ va := b.base.toNat, len := 1 }] = (u, y) →
        b.pos = 0 ∧ b.buf = []
        ∧ (∀ f, y = .error f → rb.ready s = true →
            exec (.strb w) s = .next (u.takeTrap { code := f.1, path := 1, fva := BitVec.ofNat 64 f.2 }))
        ∧ ∀ x, y = .ok x → (u.unserved = false → sets (.strb w) rb u (some b)) ∧ (u.unserved = true → stalls (.strb w) s rb))
    ∧ (bound = none → trapsWith (.stru w) s ru { code := 0x0B } ∧ trapsWith (.strs w) s rs { code := 0x0B })
    ∧ (∀ b, bound = some b → b.fault = none →
        let appending := b.buf ≠ [] ∨ ∃ f ∈ s.core.flight, f.dest = w.d ∧ (f.land = .arrival ∨ f.passed s.core.slot = true)
        let whole := b.counts.foldl (· * ·) 1
        (b.isWrite = false ∨ ¬ appending → sets (.stru w) ru s none)
        ∧ (b.isWrite = true → appending → stalls (.stru w) s ru)
        ∧ (∀ p, p = b.pos + (if b.isWrite then b.buf.length * (1024 / elemBits b.fmt) else 0) + (s.srcS w.a).toNat →
            (whole < p → trapsWith (.strs w) s rs { code := 0x02 })
            ∧ (p ≤ whole → b.isWrite = true → b.buf ≠ [] → stalls (.strs w) s rs)
            ∧ (p ≤ whole → b.isWrite = false ∨ b.buf = [] →
                sets (.strs w) rs s (some { b with pos := p, buf := [] }))))
    ∧ (∀ b f, bound = some b → b.fault = some f →
        let cleared := s.modCore fun c => { c with q := vset c.q q (some { b with fault := none }) }
        let raised := fun (i : Instr) (r : Req) => r.ready s = true →
          exec i s = .next (cleared.takeTrap { code := f.1, path := 1, fva := f.2 })
        raised (.stru w) ru ∧ raised (.strs w) rs))
  ∧ (∀ (w : SysF) (s : State) (r : Req), r = { op := 0xCF, ok := checkStrq w, pred := w.pred, dsts := [w.d] } →
      let q := (w.a.extractLsb' 0 6).toNat
      (vget none s.core.q q = none → givesReduced (.strq w) r 14 w.d s 0)
      ∧ ∀ b, vget none s.core.q q = some b → b.fault = none →
          givesReduced (.strq w) r 14 w.d s (BitVec.ofNat 64 (b.pos + if b.isWrite then b.buf.length * (1024 / elemBits b.fmt) else 0))
      ∧ ∀ b f, vget none s.core.q q = some b → b.fault = some f → r.ready s = true →
          exec (.strq w) s = .next ((s.modCore fun c => { c with q := vset c.q q (some { b with fault := none }) }).takeTrap
            { code := f.1, path := 1, fva := f.2 }))
  ∧ ∀ (q : Fin 16) (s t : State) (b : Stream), s.core.running = true → s.core.q[q] = some b → b.fault = none →
      let n := 1024 / elemBits b.fmt
      let now := fun (x : Stream) => exec (.streamTransfer q) s = .next (t.modCore fun c => { c with q := c.q.set q (some x) })
      let stops := fun (f : BitVec 8 × Nat) => now { b with fault := some (f.1, BitVec.ofNat 64 f.2) }
      (b.isWrite = false → b.buf.length < Config.streamDepth → b.pos + n * b.buf.length < b.total →
        let r := s.readElems (s.streamAccess .read) b (b.pos + n * b.buf.length) n
        (∀ f, r = (t, .error f) → stops f)
        ∧ ∀ xs, r = (t, .ok xs) → ∃ v : VReg, now { b with buf := b.buf ++ [v] }
            ∧ ∀ i x, xs[i]? = some x → laneAt (elemBits b.fmt) v i = BitVec.ofNat (elemBits b.fmt) x)
      ∧ (∀ x rest xs, b.isWrite = true → b.buf = x :: rest → xs.length = n →
          (∀ i e, xs[i]? = some e → e = (laneAt (elemBits b.fmt) x i).toNat) →
          let r := s.writeElems (s.streamAccess .write) b b.pos xs
          (r = (t, none) → now { b with pos := b.pos + n, buf := rest }) ∧ ∀ f, r = (t, some f) → stops f)

open Sys2Proof Sys2Proof.Machine Sys2Proof.Claims in
/-- R309, R329, R332: TMPLI drops cached templates of the context and no others; BSTAT and EXPQ read the word of a slot's job and of
the context's own expert; EXPF starts the fetch of an ABSENT expert and does nothing to a FETCHING or RESIDENT one. -/
def Obligations.StatusOfUnits : Prop :=
  (∀ (w : SysF) (s : State) (r : Req), r = { op := 0xD2, ok := checkTmpli w, pred := w.pred } → r.ready s = true →
    ∃ u : State, exec (.tmpli w) s = .next (u.finish r none {}) ∧ u = { s with yards := u.yards }
      ∧ (∀ y : Fin 8, y ≠ s.yardIdx → u.yards[y] = s.yards[y])
      ∧ ∀ x, x ∈ u.yards[s.yardIdx].tmpls ↔ x ∈ s.yards[s.yardIdx].tmpls
          ∧ ¬(x.1 = s.core.ctx ∧ (w.ctl.getLsbD 10 = true ∨ x.2.1 = (w.ctl.extractLsb' 0 10).toNat)))
  ∧ (∀ (w : A3) (s : State) (r : Req), r = { op := 0xD4, ok := checkBstat w, pred := w.pred, srcs := [(w.a, w.ea), (w.b, w.eb)], dsts := [w.d] } →
      let slot := (s.srcS w.a).toNat
      let i := (s.srcS w.b).toNat
      (15 < slot ∨ 1024 < i → trapsWith (.bstat w) s r { code := 0x02 })
      ∧ (slot ≤ 15 → i ≤ 1024 → ∃ y, givesReduced (.bstat w) r 14 w.d s y
          ∧ (∀ id b, vget none s.core.bankSlots slot = some id → s.bankJob? id = some b →
              (i = 0 → y.getLsbD 63 = b.ended ∧ y.getLsbD 62 = decide (b.fault ≠ 0) ∧ y.getLsbD 60 = true)
              ∧ (1 ≤ i → ∀ k, k < 64 → y.getLsbD k = b.poison.contains (64 * (i - 1) + k)))))
  ∧ ∀ (w : SysF) (s : State),
      let x := (s.srcS w.a).toNat
      let e := s.expert x
      let mine := e.state ≠ 0 ∧ e.owner = s.core.ctx
      let rf : Req := { op := 0xD7, ok := checkExpf w, feature := s.accepts 1, pred := w.pred, srcs := [(w.a, w.ea)] }
      let rq : Req := { op := 0xD8, ok := checkExpq w, feature := s.accepts 1, pred := w.pred, srcs := [(w.a, w.ea)], dsts := [w.d] }
      (4095 < x → trapsWith (.expf w) s rf { code := 0x02 } ∧ trapsWith (.expq w) s rq { code := 0x02 })
      ∧ (x ≤ 4095 → ¬ mine → trapsWith (.expf w) s rf { code := 0x06 } ∧ givesReduced (.expq w) rq 14 w.d s 0)
      ∧ (x ≤ 4095 → mine →
          (e.state = 1 → rf.ready s = true → ∃ u : State, exec (.expf w) s = .next (u.finish rf none {}) ∧ (u.expert x).state = 2
            ∧ (u.expert x).payer = some s.core.entry ∧ (∀ y, y ≠ x → u.expert y = s.expert y) ∧ u.core = s.core)
          ∧ (e.state ≠ 1 → gives (.expf w) s rf {})
          ∧ (e.state < 4 → e.refs < 65536 → e.units < 2 ^ 32 → e.firstUnit < 2 ^ 32 → e.fetches < 2 ^ 32 → e.owner < 64 →
              givesReduced (.expq w) rq 14 w.d s (if w.ctl.getLsbD 0 then BitVec.ofNat 64 (e.units + 2 ^ 32 * e.refs + 2 ^ 48 * e.state + 2 ^ 50 * e.owner)
                else BitVec.ofNat 64 (e.fetches + 2 ^ 32 * e.firstUnit))))

open Sys2Proof Sys2Proof.Machine Sys2Proof.Claims in
/-- R152-R155, R334-R337: PXHASH and PXHASH.ROOT give 16 bytes of SHAKE256 (as FIPS 202 has it; log 15). PXLOOK finds a match or
misses. PXINS inserts into an empty slot of the window, or in place of the least recently used READY entry of the context that has
no reference; where the window is full, or no reference can be taken, it answers FULL and BUSY. An answer READY or INSERTED holds
later accesses back until it has landed. PXPUB makes what the entry builds READY, with every earlier load, element appended to a write
stream and write of the core performed (R155; log 4), for which it waits; it raises PERMISSION for what is not the entry's to publish. PXREL releases a reference, abandons what the entry builds, and answers
STALE for a handle that is not live or whose reference the entry does not hold. An answer that names no entry has handle 0 and set
0xFFFFFFFF (R336's own words for the set; handle 0: the model's choice, log 40). -/
def Obligations.PrefixIndex : Prop :=
  ∀ (w : A3) (s : State),
    let digest := (s.srcV w.a).setWidth 128
    let ctx := s.core.ctx
    let entry := s.core.entry
    let b := (s.srcS w.b).toNat
    let c := (s.srcS w.c).toNat
    let answer := fun (status handle set_ : Nat) =>
      ({ writes := [Write.s (specIdx w.d) (statusHandle status handle), .s (specIdx w.d + 1) (BitVec.ofNat 64 set_)], cls := 14,
         holds := decide (status = 1 ∨ status = 3) } : Outcome)
    let rh := reqIndex 0xDA (checkPxhash w) w 2 [w.d] s
    let rr := reqIndex 0xDA (checkPxhashRoot w) w 1 [w.d] s
    let rl := reqIndex 0xDB (checkPxlook w) w 1 [w.d, w.d + 1] s
    let ri := reqIndex 0xDC (checkPxins w) w 3 [w.d, w.d + 1] s
    let rp := reqIndex 0xDD (checkPxpub w) w 1 [w.d] s
    let rx := reqIndex 0xDE (checkPxrel w) w 1 [w.d] s
    let hashed := fun (i : Instr) (r : Req) (bs : List Byte) => r.ready s = true → ∃ y : VReg,
      exec i s = .next (s.finish r none { writes := [.v (specIdx w.d) (BitVec.allOnes 1024) y], cls := 14 })
      ∧ ∀ k, k < 128 → y.extractLsb' (8 * k) 8 = if k < 16 then (shake256 bs 16).getD k 0 else 0
    let bytes := fun (r : Spec) (n : Nat) => (List.range n).map fun k => (s.srcV r).extractLsb' (8 * k) 8
    let window := (List.range 8).map fun i => (digest.toNat % 65536 + i) % 65536
    let matches_ := fun (i : Nat) => (s.prefix_ i).tag = digest ∧ (s.prefix_ i).ctx = ctx ∧ (s.prefix_ i).state ≠ 0
    let missed := ∀ i ∈ window, ¬ matches_ i
    let found := fun (i : Nat) => i ∈ window ∧ matches_ i ∧ ∀ j ∈ window, j ≠ i → ¬ matches_ j
    let held := fun (i : Nat) => (i, entry) ∈ s.prefixRefs
    let refused := fun (i : Nat) => (i, entry) ∉ s.prefixRefs ∧ ((s.prefix_ i).refs = 65535 ∨ 4096 ≤ s.prefixRefs.length)
    let only := fun (u : State) (i : Nat) (p : Prefix) => u.prefix_ i = p ∧ ∀ j, j ≠ i → u.prefix_ j = s.prefix_ j
    -- the entry holds one reference afterwards, and the slot is as `f` makes it
    let referred := fun (u : State) (i : Nat) (f : Prefix → Prefix) =>
      (held i → u.prefixRefs = s.prefixRefs ∧ only u i (f (s.prefix_ i)))
      ∧ (¬ held i → u.prefixRefs = s.prefixRefs ++ [(i, entry)]
          ∧ only u i (f { s.prefix_ i with refs := (s.prefix_ i).refs + 1, lastUse := s.beat }))
    -- what a READY match answers
    let onReady := fun (i : Instr) (r : Req) (n : Nat) => r.ready s = true →
      (refused n → exec i s = .next (s.finish r none (answer 5 0 0xFFFFFFFF)))
      ∧ (¬ refused n → ∃ u : State, exec i s = .next (u.finish r none (answer 1 (handleOf s n) (s.prefix_ n).block))
          ∧ referred u n fun p => { p with lastUse := s.beat })
    let inserted := fun (i gen old : Nat) => ri.ready s = true →
      (4096 ≤ s.prefixRefs.length → exec (.pxins w) s = .next (s.finish ri none (answer 5 0 0xFFFFFFFF)))
      ∧ (s.prefixRefs.length < 4096 → ∃ u : State,
          exec (.pxins w) s = .next (u.finish ri none (answer 3 (gen % 65536 * 65536 + i) old))
          ∧ u.prefixRefs = s.prefixRefs ++ [(i, entry)]
          ∧ only u i { state := 1, tag := digest, block := b, refs := 1, gen := gen, ctx := ctx, waiters := 0,
                       readySem := c % 256, builder := entry, lastUse := s.beat })
    let spare := fun (i : Nat) => (s.prefix_ i).state = 2 ∧ (s.prefix_ i).ctx = ctx ∧ (s.prefix_ i).refs = 0
    let inserts := b < 2 ^ 32 ∧ c < 2 ^ 9 ∧ s.semOwned (c % 256) ctx = true
    let h := (s.srcS w.a).toNat % 2 ^ 32
    let slot := h % 65536
    let p := s.prefix_ slot
    let live := p.gen = h / 65536
    let mine := p.state = 1 ∧ p.builder = entry
    let status := fun (i : Instr) (r : Req) (u : State) (n : Nat) =>
      exec i s = .next (u.finish r none { writes := [.s (specIdx w.d) (statusHandle n h)], cls := 14 })
    -- READYSEM, on which nobody waits, counts the entries that wait for the slot
    let signalled := fun (u : State) => p.waiters ≠ 0 → (s.sem p.readySem).takes = [] → p.readySem < 256 →
      (u.sem p.readySem).count = min ((s.sem p.readySem).count + p.waiters) 0xFFFF
    hashed (.pxhash w) rh (bytes w.a 16 ++ bytes w.b 64)
    ∧ hashed (.pxhashRoot w) rr
        ([0x4B, 0x79, 0x6F, 0x62, 0x79, 0x2D, 0x4B, 0x56, 0x2D, 0x70, 0x72, 0x65, 0x66, 0x69, 0x78] ++ bytes w.a 32)
    ∧ (missed → gives (.pxlook w) s rl (answer 0 0 0xFFFFFFFF))
    ∧ (∀ i, found i →
        ((s.prefix_ i).state = 2 → onReady (.pxlook w) rl i ∧ (inserts → onReady (.pxins w) ri i))
        ∧ ((s.prefix_ i).state ≠ 2 →
            let building := answer 2 (handleOf s i) (s.prefix_ i).block
            gives (.pxlook w) s rl building
            ∧ (inserts → c.testBit 8 = false → gives (.pxins w) s ri building)
            ∧ (inserts → c.testBit 8 = true → refused i → gives (.pxins w) s ri (answer 5 0 0xFFFFFFFF))
            ∧ (inserts → c.testBit 8 = true → ¬ refused i → ri.ready s = true →
                ∃ u : State, exec (.pxins w) s = .next (u.finish ri none building)
                  ∧ referred u i fun p => { p with waiters := min (p.waiters + 1) 255 })))
    ∧ (2 ^ 32 ≤ b ∨ 2 ^ 9 ≤ c → trapsWith (.pxins w) s ri { code := 0x02 })
    ∧ (b < 2 ^ 32 → c < 2 ^ 9 → s.semOwned (c % 256) ctx = false → trapsWith (.pxins w) s ri { code := 0x06 })
    ∧ (inserts → missed → ∀ i, window.find? (fun j => (s.prefix_ j).state == 0) = some i → inserted i (s.prefix_ i).gen 0xFFFFFFFF)
    ∧ (inserts → missed → (∀ j ∈ window, (s.prefix_ j).state ≠ 0) →
        ((∀ j ∈ window, ¬ spare j) → gives (.pxins w) s ri (answer 4 0 0xFFFFFFFF))
        ∧ ∀ i, i ∈ window → spare i → (∀ j ∈ window, spare j → j ≠ i → (s.prefix_ i).lastUse < (s.prefix_ j).lastUse) →
            inserted i (((s.prefix_ i).gen + 1) % 65536) (s.prefix_ i).block)
    ∧ (¬ live → trapsWith (.pxpub w) s rp { code := 0x41 })
    ∧ (live → (p.state ≠ 1 ∨ p.builder ≠ entry ∨ p.ctx ≠ ctx) → trapsWith (.pxpub w) s rp { code := 0x06 })
    ∧ (live → mine → p.ctx = ctx →
        let appending := ∃ f ∈ s.core.flight, (∃ i, i < 16 ∧ f.dest = BitVec.ofNat 8 (0x80 + i)) ∧ (f.land = .arrival ∨ f.passed s.core.slot = true)
        let performed := s.performStreams
        (appending ∨ keptBack performed → stalls (.pxpub w) s rp)
        ∧ (¬ appending → ¬ keptBack performed → rp.ready s = true →
            ∃ u : State, status (.pxpub w) rp u 1 ∧ only u slot { p with state := 2, waiters := 0 } ∧ u.wq = [] ∧ loadsDone u ∧ signalled u
              ∧ ∀ i b, u.core.getQ i = some b → b.isWrite = true → b.fault = none → b.buf = []))
    ∧ ((¬ live ∨ ¬ held slot) → rx.ready s = true → status (.pxrel w) rx s 6)
    ∧ (live → held slot → ¬ mine → rx.ready s = true →
        ∃ u : State, status (.pxrel w) rx u 1 ∧ u.prefixRefs = s.prefixRefs.filter (· ≠ (slot, entry))
          ∧ only u slot { p with refs := p.refs - 1, lastUse := s.beat })
    ∧ (live → held slot → mine → rx.ready s = true →
        ∃ u : State, status (.pxrel w) rx u 0 ∧ u.prefixRefs = s.prefixRefs.filter (fun r => r.1 ≠ slot)
          ∧ only u slot { ({} : Prefix) with gen := (p.gen + 1) % 65536 } ∧ signalled u)
/-! ### Traps, system instructions, the ends of continuations and the events of a core (R58-R64, R161, R162, R175-R184, R258-R268) -/

namespace Sys2Proof.Claims
open Sys2Proof.Machine

/-- The core in its handler (R175): the triple, the annul bits and the cause saved, IE kept in PIE and cleared, TM set, every
operation in flight frozen, oldest first, with what remains to its slot, and the handler's triple at TVEC with bits 2:0 as 0; no
register has changed, and a destination under full/empty bits is full. A load whose data has returned, and every load before it, is
not performed anew (R98, R103). -/
def entered (c d : Core) (x : Trap) (beat : Nat) : Prop :=
  d.epc = c.f0 ∧ d.epc1 = c.f1 ∧ d.epc2 = c.f2 ∧ d.brpend = (if c.a0 then 1 else 0) ||| (if c.a1 then 2 else 0)
  ∧ d.cause.extractLsb' 0 8 = x.code ∧ d.cause.getLsbD 15 = x.deferred ∧ (d.cause.extractLsb' 12 3).toNat = x.path % 8
  ∧ d.cause.getLsbD 23 = x.jobkind ∧ (d.cause.extractLsb' 24 8).toNat = x.jobref % 256 ∧ d.faultva = x.fva
  ∧ d.tm = true ∧ d.ie = false ∧ d.pie = c.ie ∧ (∀ i, 3 < i ∨ i = 1 → d.status.getLsbD i = c.status.getLsbD i)
  ∧ (∀ i, d.f0.getLsbD i = (decide (3 ≤ i) && c.tvec.getLsbD i)) ∧ d.f1 = d.f0 + 8 ∧ d.f2 = d.f0 + 16 ∧ d.a0 = false ∧ d.a1 = false
  ∧ d.rplq.map (fun y => { y.1 with redo := none }) = c.flight.map (fun f => { f with redo := none })
  ∧ (∀ (i : Nat) (y : InFlight × Nat), d.rplq[i]? = some y →
      let back := ∃ j g, i ≤ j ∧ c.flight[j]? = some g ∧ g.redo ≠ none ∧ g.land ≠ .arrival ∧ g.due ≤ beat
      (y.1.land = .arrival → y.2 = 0xFF ∧ ∀ r z, r < 64 → Write.s r z ∈ y.1.writes → d.isFull (BitVec.ofNat 8 r) = true)
      ∧ (∀ n, y.1.land = .slot n → y.2 = n - c.slot)
      ∧ (back → y.1.redo = none) ∧ (¬ back → c.flight[i]? = some y.1))
  ∧ d.hollow = false ∧ d.flight = [] ∧ d.s = c.s ∧ d.v = c.v ∧ d.k = c.k ∧ d.q = c.q ∧ d.tvec = c.tvec
  ∧ d.tscratch = c.tscratch ∧ d.ckpttab = c.ckpttab ∧ d.tagmap = c.tagmap ∧ d.loop = c.loop ∧ d.slot = c.slot

/-- Everything outside one core and the semaphore file is as before. -/
def onlyCore (s t : State) : Prop :=
  (∀ c, c ≠ s.subj.core → t.cores[c] = s.cores[c])
  ∧ t = { s with cores := t.cores, sems := t.sems, ready := t.ready, fresh := t.fresh }

/-- Nothing keeps a continuation from its end: no deferred fault, no job, no stream fault and no element left to write (R262). -/
def drained (s : State) : Prop :=
  s.core.deferred = [] ∧ s.core.anyStreamFault = none ∧ (∀ j ∈ s.jobs, j.cont ≠ s.core.cont) ∧ s.core.streamsBusy = false

/-- No write waits, but for those that a refresh of their bank keeps from its array (R13). -/
def emptied (s t : State) : Prop := ∀ c ∈ t.wq, c ∈ s.wq ∧ s.beat < s.refreshEnd c.1

/-- A step that leaves a core, once what it has read is served: a refresh of a bank that it reads makes it stall (R13). -/
def leavesAs (i : Instr) (s : State) (u : State) : Prop :=
  (u.unserved = false → exec i s = .next u) ∧ (u.unserved = true → exec i s = .next s)

/-- The continuation has ended: its stores are performed at package scope, so that no write waits that may enter its array and every
byte reads as before, and its core is free; jobs, launches, queues, contexts and the other cores are as before. -/
def ended (s t : State) : Prop :=
  t.core.running = false ∧ t.core.flight = [] ∧ emptied s t ∧ (∀ a, t.readByte a = s.readByte a) ∧ (∀ c, c ≠ s.subj.core → t.cores[c] = s.cores[c])
  ∧ t.jobs = s.jobs ∧ t.bankJobs = s.bankJobs ∧ t.launches = s.launches ∧ t.queues = s.queues ∧ t.ctxs = s.ctxs ∧ t.yards = s.yards
  ∧ t.errors = s.errors

/-- The entries after the hardware join of one has counted down (R59). -/
def joinedDown (s : State) : List Entry :=
  s.entries.map fun e => if e.id = s.core.entry then { e with hwJoin := e.hwJoin - 1 } else e

/-- The request of an instruction with one source in the system format. -/
def reqSource (op : Nat) (ok : Bool) (w : SysF) : Req :=
  { op := BitVec.ofNat 8 op, ok := ok, pred := w.pred, srcs := [(w.a, w.ea)] }

/-- Bits of a value under a mask over those of another. -/
def masked (m x y : W64) : W64 := (y &&& ~~~m) ||| (x &&& m)

end Sys2Proof.Claims

open Sys2Proof Sys2Proof.Machine Sys2Proof.Claims in
/-- R175, R178, R179, R259, R261: what a trap saves and where it goes; where no handler takes it, the continuation ends and its entry
is charged with the trap's code before any other; TRAP and BKPT take theirs precisely; RETI waits for what is in flight, then restores the triple, the annul bits and IE,
leaves trap mode, and puts the frozen operations back in flight relative to slot 0. That PIE clears with TM is the model's reading of
the final STATUS of Program 1 (log 85). -/
def Obligations.TrapEntryAndReturn : Prop :=
  ∀ (s : State) (w : SysF) (x : Trap),
    let bare := fun (op : Nat) (ok : Bool) => reqBare op ok w
    let rr := bare 0xE1 (checkReti w && !s.inLoop)
    (s.handled → s.core.take = none → entered s.core (s.takeTrap x).core x s.beat ∧ onlyCore s (s.takeTrap x))
    ∧ (¬ s.handled → (s.takeTrap x).core.running = false
        ∧ ∀ e, (s.takeTrap x).entry? s.core.entry = some e → e.status.isSome = true ∧ (x.code ≠ 0 → e.firstFault ≠ 0)
            ∧ ∀ b, s.entry? s.core.entry = some b → b.firstFault = 0 → x.code ≠ 0 → e.firstFault = x.code.toNat)
    ∧ trapsWith (.trap w) s (bare 0xE0 (checkTrap w)) { code := w.imm.extractLsb' 0 8 }
    ∧ (¬(1 ≤ w.imm.toNat ∧ w.imm.toNat ≤ 0x0B ∨ w.imm.toNat = 0x3E) → checkTrap w = false)
    ∧ trapsWith (.bkpt w) s (bare 0xE5 (checkBkpt w)) { code := 0x3E }
    ∧ (s.core.tm = false → trapsWith (.reti w) s rr { code := 0x02 })
    ∧ (s.core.tm = true → (∃ f ∈ s.core.flight, f.land = .arrival ∨ f.passed s.core.slot = true) → stalls (.reti w) s rr)
    ∧ (s.core.tm = true → s.core.flight ≠ [] → (∀ f ∈ s.core.flight, f.land ≠ .arrival ∧ f.passed s.core.slot = false) → rr.ready s = true →
        exec (.reti w) s = .next (s.setCore { s.core.spend s.beat with hollow := true }))
    ∧ (s.core.tm = true → s.core.flight = [] → rr.ready s = true →
        ∃ t : State, exec (.reti w) s = .next t ∧ t.core.f0 = s.core.epc ∧ t.core.f1 = s.core.epc1 ∧ t.core.f2 = s.core.epc2
          ∧ t.core.a0 = s.core.brpend.getLsbD 0 ∧ t.core.a1 = s.core.brpend.getLsbD 1 ∧ t.core.tm = false ∧ t.core.ie = s.core.pie
          ∧ t.core.pie = false
          ∧ (∀ i, i ≠ 0 → i ≠ 2 → i ≠ 3 → t.core.status.getLsbD i = s.core.status.getLsbD i) ∧ t.core.slot = 0 ∧ t.core.rplq = []
          ∧ t.core.flight = s.core.rplq.map (fun y => y.1.replay y.2 s.beat s.readPhys s.servedAt)
          ∧ t.core.s = s.core.s ∧ t.core.v = s.core.v ∧ t.core.k = s.core.k ∧ t.mem = s.mem ∧ t.wq = s.wq ∧ t.jobs = s.jobs
          ∧ t.entries = s.entries.map (fun e => if e.id = s.core.entry ∧ s.core.cause.extractLsb' 0 8 = 0x30
              then { e with trapNew := false } else e))
    ∧ ∀ (f : InFlight) (m : Nat), f.redo = none → (f.replay m s.beat s.readPhys s.servedAt).writes = f.writes
        ∧ (f.replay m s.beat s.readPhys s.servedAt).due = s.beat + unitLatency f.cls
        ∧ (f.replay m s.beat s.readPhys s.servedAt).land = if m = 0xFF then .arrival else .slot m

open Sys2Proof Sys2Proof.Machine Sys2Proof.Claims in
/-- R264, R266, R267, R162, Table 9.1, Table 13.6: NOP, BEAT, and the control registers: what MFC reads under each number, and what
MTC writes; an LFMT is written by the owner of its bank or when it has none (R92), INTSEM is enabled for a semaphore of the context
alone (R298), and read-only registers keep their value. A read sees TAGMAP, LUNGE_MISSES and the LFMT registers as they stood at the start of the beat,
and a completion of the beat sets its bit after an MTC to TAGMAP has cleared it. An MTC that sets SS is not
stepped itself. -/
def Obligations.SystemWords : Prop :=
  ∀ (w : SysF) (s : State),
    let c := s.core
    let n := w.ctl.toNat
    let x := s.srcS w.a
    let y := s.yards[s.yardIdx]
    let rd : Req := { op := 0xE8, ok := checkMfc w, pred := w.pred, dsts := [w.d] }
    let rw_ := reqSource 0xE9 (checkMtc w) w
    let num := fun (v : Nat) => BitVec.ofNat 64 v
    let steps : Outcome := { stepped := some (c.ss && !c.tm) }
    let reads : List (Nat × W64) := [(0x000, c.status), (0x001, c.cause), (0x002, c.epc), (0x003, c.epc1), (0x004, c.epc2),
      (0x005, c.brpend), (0x006, c.faultva), (0x007, c.tvec), (0x008, c.tscratch), (0x009, c.mpcsave), (0x00A, c.ckpttab),
      (0x00B, c.lattab), (0x00C, c.intsem), (0x010, num c.rplq.length), (0x020, if c.tagBeat = s.beat then c.tagOld else c.tagmap),
      (0x021, num (2 ^ 32 * c.pencnt + c.penset.toNat)), (0x022, num c.entry), (0x023, num s.subj.core.val), (0x031, c.beathi),
      (0x040, num y.ballast), (0x041, c.lookahead), (0x042, num ((if y.arr.missBeat = some s.beat then y.arr.misses + 2 ^ 32 - 1 else y.arr.misses) % 2 ^ 32))]
    let writes : List (Nat × Core) := [(0x000, { c with status := masked 0xFC3C x c.status }), (0x001, c), (0x002, { c with epc := x }),
      (0x003, { c with epc1 := x }), (0x004, { c with epc2 := x }), (0x005, { c with brpend := x &&& 3 }), (0x006, c),
      (0x007, { c with tvec := x }), (0x008, { c with tscratch := x }), (0x009, c), (0x00A, c), (0x00B, c), (0x010, c),
      (0x020, { c with tagmap := (c.tagmap &&& ~~~x) ||| (if c.tagBeat = s.beat then c.tagmap &&& ~~~c.tagOld else 0),
                       tagOld := c.tagOld &&& ~~~x }), (0x021, c), (0x022, c), (0x023, c), (0x030, c), (0x031, c), (0x040, c),
      (0x041, { c with lookahead := x &&& 0xFFFF }), (0x042, c)]
    gives (.nop w) s (reqBare 0xE4 (checkNop w) w) {}
    ∧ gives (.beat w) s { op := 0xEA, ok := checkBeat w, pred := w.pred, dsts := [w.d] } { writes := [.s (specIdx w.d) (num s.beat)] }
    ∧ (∀ p ∈ reads, n = p.1 → gives (.mfc w) s rd { writes := [.s (specIdx w.d) p.2] })
    ∧ (n = 0x030 → rd.ready s = true → exec (.mfc w) s =
        .next ((s.setCore { c with beathi := num (s.beat / 2 ^ 32 % 2 ^ 32) }).finish rd none
          { writes := [.s (specIdx w.d) (num (s.beat % 2 ^ 32))] }))
    ∧ (∀ i, i < 12 → n = 0x011 + i → gives (.mfc w) s rd { writes := [.s (specIdx w.d) (match c.rplq[i]? with
        | some r => num (2 ^ 56 * r.1.op.toNat + 2 ^ 48 * r.1.dest.toNat + 2 ^ 40 * r.2 + 2 ^ 36 * r.1.cls + 2 ^ 34 * min r.1.nsrc 3)
        | none => 0)] })
    ∧ (∀ b, b < 64 → n = 0x400 + b → ∀ f : Lfmt, f = vget {} y.lfmt b →
        let start := fun (f : Lfmt) => if f.setAt = some s.beat then f.before
          else 2 ^ 15 * (if f.owned then 1 else 0) + 2 ^ 8 * (f.owner % 64) + f.format % 16
        gives (.mfc w) s rd { writes := [.s (specIdx w.d) (num (start f))] }
        ∧ (12 ≤ (x.extractLsb' 0 4).toNat → trapsWith (.mtc w) s rw_ { code := 0x02 })
        ∧ ((x.extractLsb' 0 4).toNat < 12 →
            let foreign := f.owned = true ∧ f.owner ≠ c.ctx ∧ (s.ctxAt f.owner).live = true
            (foreign → trapsWith (.mtc w) s rw_ { code := 0x06 })
            ∧ (¬ foreign → rw_.ready s = true → ∃ u : State, exec (.mtc w) s = .next (u.finish rw_ none {})
                ∧ u = { s with yards := u.yards } ∧ (∀ z : Fin 8, z ≠ s.yardIdx → u.yards[z] = s.yards[z])
                ∧ u.yards[s.yardIdx] = { y with lfmt := u.yards[s.yardIdx].lfmt }
                ∧ vget {} u.yards[s.yardIdx].lfmt b = { owned := true, owner := c.ctx, format := (x.extractLsb' 0 4).toNat, setAt := some s.beat,
                                                                before := start f }
                ∧ ∀ i, i < 64 → i ≠ b → vget {} u.yards[s.yardIdx].lfmt i = vget {} y.lfmt i)))
    ∧ (∀ p ∈ writes, n = p.1 → rw_.ready s = true → exec (.mtc w) s = .next ((s.setCore p.2).finish rw_ none steps))
    ∧ (∀ i, i < 12 → n = 0x011 + i → gives (.mtc w) s rw_ steps)
    ∧ (n = 0x00C →
        let owned := (s.sem (x.extractLsb' 0 8).toNat).assigned = true ∧ (s.sem (x.extractLsb' 0 8).toNat).ctx = c.ctx
        (x.getLsbD 8 = true → ¬ owned → trapsWith (.mtc w) s rw_ { code := 0x06 })
        ∧ (x.getLsbD 8 = false ∨ owned → rw_.ready s = true →
            exec (.mtc w) s = .next ((s.setCore { c with intsem := x &&& 0x1FF }).finish rw_ none steps)))

open Sys2Proof Sys2Proof.Machine Sys2Proof.Claims in
/-- R262, R263, R303, R264, R265, R181, R182: HALT, CONT and JOIN end a continuation once its jobs have drained, performing its
stores and freeing its core, with the join or the successor that each gives it; YIELD saves it when another one precedes it, and CKPT
records a table and serves a pre-emption; what they read waits for a refresh of its bank (R13; log 54); where single step traps after either, the save is made in the handler (the model's choice,
log 73). -/
def Obligations.EndsOfContinuations : Prop :=
  ∀ (w : SysF) (s : State), s.core.deferred = [] → s.core.anyStreamFault = none →
    let c := s.core
    let rh := reqBare 0xE2 (checkHalt w && !s.inLoop) w
    let rc : Req := { op := 0xE3, ok := checkCont w && !s.inLoop, pred := w.pred, srcs := [(w.a, w.ea), (1, false)] }
    let rj := { reqBare 0xEC (checkJoin w) w with touches := true }
    let ry := reqSource 0xE6 (checkYield w && !s.inLoop) w
    let rk := reqSource 0xE7 (checkCkpt w) w
    let n := (w.ctl.extractLsb' 0 8).toNat
    let placed := fun (k : Nat) (x : W64) => x.toNat % k = 0 ∧ x.toNat < 2 ^ 57
    let table := s.srcS w.a + w.imm.signExtend 64
    let mine := fun (r : ContRec) (joinblk : W64) (penset : BitVec 32) (pencnt : Nat) =>
      r.joinblk = joinblk ∧ r.penset = penset ∧ r.pencnt = pencnt ∧ r.entry = c.entry ∧ r.ctx = c.ctx ∧ r.launch = c.launch ∧ r.index = c.index
    (drained s → rh.ready s = true → ∃ t : State, exec (.halt w) s = .next t ∧ ended s t ∧ t.ready.length = s.ready.length
        ∧ t.entries = if c.joinblk = 0 then joinedDown s else s.entries)
    ∧ ((∃ j ∈ s.jobs, j.cont = c.cont) → stalls (.halt w) s rh ∧ stalls (.join w) s rj)
    ∧ (n ≠ 0 → ¬((s.sem n).assigned = true ∧ (s.sem n).ctx = c.ctx) → trapsWith (.cont w) s rc { code := 0x06 })
    ∧ ((n = 0 ∨ (s.sem n).assigned = true ∧ (s.sem n).ctx = c.ctx) → ¬ placed 8 (s.srcS w.a) → trapsWith (.cont w) s rc { code := 0x02 })
    ∧ ((n = 0 ∨ (s.sem n).assigned = true ∧ (s.sem n).ctx = c.ctx) → placed 8 (s.srcS w.a) → placed 64 (c.getS 1) → drained s →
        c.take = none → c.intTake = none → rc.ready s = true →
        ∃ (t : State) (r : ContRec), exec (.cont w) s = .next t ∧ ended s t ∧ t.entries = s.entries ∧ t.ready.length = s.ready.length + 1
          ∧ t.ready.getLast? = some r ∧ r.code = s.srcS w.a ∧ r.frame = c.getS 1 ∧ mine r c.joinblk c.penset c.pencnt ∧ r.ready = s.beat
          ∧ (n = 0 → r.gate = none)
          ∧ (n ≠ 0 → (s.sem n).takes = [] → 1 ≤ (s.sem n).count → r.gate = none ∧ (t.sem n).count = (s.sem n).count - 1)
          ∧ (n ≠ 0 → (s.sem n).takes = [] → (s.sem n).count = 0 → s.fresh ∉ (s.sem n).granted → ∃ k, r.gate = some (n, k) ∧ (t.sem n).takes.map (·.id) = [k]))
    ∧ (drained s → rj.ready s = true → c.joinblk = 0 →
        ∃ t : State, exec (.join w) s = .next t ∧ ended s t ∧ t.ready.length = s.ready.length ∧ t.entries = joinedDown s)
    ∧ (drained s → rj.ready s = true → c.joinblk ≠ 0 →
        let counter : List Span := [{ va := c.joinblk.toNat, len := 4, align := 4 }]
        ∀ x res, reach s { s.coreAccess .atomic with probe := true } counter = (x, res) →
        (∀ f, res = .error f → exec (.join w) s = .next (x.takeTrap { code := f.1, path := 0, fva := BitVec.ofNat 64 f.2 }))
        ∧ ∀ u pas, res = .ok [pas] → u = x.ordinaryRead pas →
            let old := fromBytes (pas.map u.readByte)
            let v := (reach u (s.coreAccess .atomic) counter).1
            let held := v.endCont.logHeld pas 0 s.subj.core.val c.entry
            (old ≠ 1 → v.unserved = true → exec (.join w) s = .next s)
            ∧ (2 ≤ old → v.unserved = false → ended v v.endCont ∧ exec (.join w) s = .next ((held.putBytes pas (toBytes 4 (old - 1))).countDown c.entry))
            ∧ (old = 0 → v.unserved = false → held = v.endCont → ∃ t : State, exec (.join w) s = .next t ∧ t.core.running = false
                ∧ t.errorCount = s.errorCount + 1
                ∧ t.entries = (joinedDown s).map (fun e => if e.id = c.entry
                    then { e with faults := min (e.faults + 1) 0xFFFFFFFF, firstFault := if e.firstFault = 0 then 0x02 else e.firstFault } else e))
            ∧ (old = 1 → ∀ x rec_, reach u (u.coreAccess .read) [{ va := c.joinblk.toNat + 0x20, len := 32 }] = (x, .ok [rec_]) →
                (reach (x.ordinaryRead rec_) (s.coreAccess .atomic) counter).1.unserved = false → ∀ r, parentRecord c s.beat (rec_.map x.readByte) = some r →
                  ∃ (t : State) (p : ContRec), exec (.join w) s = .next t ∧ t.core.running = false ∧ t.ready.getLast? = some p
                    ∧ p = { r with num := p.num } ∧ t.entries = s.entries))
    ∧ ((c.tm = true ∨ s.yieldsTo = false) → gives (.yield w) s ry {})
    ∧ (c.tm = false → s.yieldsTo = true → ry.ready s = true →
        let f := s.finish ry none {}
        (f.core.running = false → leavesAs (.yield w) s f)
        ∧ (c.running = true → s.unstepped → f.core.running = true)
        ∧ (f.core.running = true → specIdx w.a = 0 → w.imm = 0 → leavesAs (.yield w) s (f.forcedSave s.beat))
        ∧ (f.core.running = true → ¬(specIdx w.a = 0 ∧ w.imm = 0) → leavesAs (.yield w) s (f.tableSave table s.beat)))
    ∧ (c.tm = true → gives (.ckpt w) s rk {})
    ∧ (c.tm = false → (∃ f ∈ c.flight, f.land = .arrival ∨ f.passed c.slot = true) → stalls (.ckpt w) s rk)
    ∧ (c.tm = false → c.flight ≠ [] → (∀ f ∈ c.flight, f.land ≠ .arrival ∧ f.passed c.slot = false) → rk.ready s = true →
        exec (.ckpt w) s = .next (s.setCore { c.spend s.beat with hollow := true }))
    ∧ (c.tm = false → c.flight = [] → rk.ready s = true →
        let f := (s.setCore { c with ckpttab := table, ckpted := true, ckptAt := s.beat }).finish rk none {}
        (c.preemptReq = false → exec (.ckpt w) s = .next f)
        ∧ (c.preemptReq = true → f.core.running = false → leavesAs (.ckpt w) s f)
        ∧ (c.running = true → s.unstepped → f.core.running = true)
        ∧ (c.preemptReq = true → f.core.running = true → leavesAs (.ckpt w) s (f.tableSave table c.readyAt)))

open Sys2Proof Sys2Proof.Machine Sys2Proof.Claims in
/-- R108, R173, R182, R183: a save performs the stores of the continuation, and before it reads the ranges of its table what the
continuation has appended to streams (the model's reading, log 71), puts it into the
dispatch queues and frees its core; where its entry has ended it is discarded instead (R77). A forced save keeps every register; one
at a table keeps the registers that the table marks, and the others read 0 and full; a table that cannot be used, or a range of it
that cannot be read or is out of the loft, makes it a forced one, and no continuation that has made no CKPT has a table. -/
def Obligations.Saves : Prop :=
  ∀ (s : State) (keep : Core → Core) (ranges : List (W64 × List Byte)) (ready : Nat) (t : LiveTable) (c : Core),
    let done := s.performStreams.drainWrites
    let y := s.yieldCore keep ranges ready
    let kept := keep done.core
    ((∀ i b, s.core.getQ i = some b → b.isWrite = true → b.buf = []) → s.performStreams = s)
    ∧ (done.hasEnded done.core.entry = true → y.core.running = false ∧ ∀ r ∈ y.ready, r.entry ≠ done.core.entry)
    ∧ (done.hasEnded done.core.entry = false → ∃ r, y.ready.getLast? = some r ∧ y.core.running = false ∧ emptied s.performStreams y
      ∧ r.ready = ready ∧ r.entry = done.core.entry ∧ r.launch = done.core.launch ∧ r.index = done.core.index ∧ r.ranges = ranges ∧ r.gate = none
      ∧ ∃ d, r.saved = some d ∧ d.s = kept.s ∧ d.v = kept.v ∧ d.k = kept.k ∧ d.sFull = kept.sFull ∧ d.vFull = kept.vFull
        ∧ d.f0 = kept.f0 ∧ d.f1 = kept.f1 ∧ d.f2 = kept.f2 ∧ d.a0 = kept.a0 ∧ d.a1 = kept.a1 ∧ d.status = kept.status ∧ d.epc = kept.epc
        ∧ d.flight = kept.flight ∧ d.rplq = kept.rplq ∧ d.loop = kept.loop ∧ d.tagmap = kept.tagmap
        ∧ (∀ i b, d.getQ i = some b → b.isWrite = false → b.buf = []) ∧ ∀ i, (d.getQ i).map (·.pos) = (kept.getQ i).map (·.pos))
    ∧ (s.core.ckpted = false → s.forcedSave ready = s.yieldCore id [] ready)
    ∧ (s.core.ckpted = true → ∀ u, (s.performStreams.readTable s.core.ckpttab = (u, none) → s.forcedSave ready = u.yieldCore id [] ready)
        ∧ (s.performStreams.readTable s.core.ckpttab = (u, some t) → ∀ v xs, u.readRanges t.ranges = (v, xs) →
            s.forcedSave ready = v.yieldCore id (xs.getD []) ready))
    ∧ (∀ at_ u, s.performStreams.readTable at_ = (u, none) → s.tableSave at_ ready = u.forcedSave ready)
    ∧ (∀ at_ u v, s.performStreams.readTable at_ = (u, some t) →
        (∀ xs, u.readRanges t.ranges = (v, some xs) → s.tableSave at_ ready = v.yieldCore (fun c => c.keep t) xs ready)
        ∧ (u.readRanges t.ranges = (v, none) → s.tableSave at_ ready = v.forcedSave ready))
    ∧ (∀ va n u pas, reach s (s.coreAccess .read) [{ va := va, len := n }] = (u, .ok pas) → (∃ pa ∈ pas.flatten, regionOf pa ≠ .loft) →
        s.readRanges [(va, n)] = (u, none))
    ∧ (∀ at_ u bs, at_.toNat % 64 = 0 → s.fetchRange at_.toNat 256 = (u, some bs) → s.readTable at_ = (u, parseTable bs))
    ∧ (∀ i, 0 < i → i < 64 → (c.keep t).getS i = if t.smask.testBit i then c.getS i else 0)
    ∧ (∀ i, i < 32 → (c.keep t).getV i = if t.vmask.testBit i then c.getV i else 0)
    ∧ (∀ i, 0 < i → i < 8 → (c.keep t).getK i = if t.kmask.testBit i then c.getK i else 0)
    ∧ (∀ i, i < 16 → (c.keep t).getQ i = if t.qmask.testBit i then c.getQ i else none)
    ∧ (∀ i, i < 64 → (c.keep t).isFull (BitVec.ofNat 8 i) = (c.isFull (BitVec.ofNat 8 i) || !(t.smask.testBit i)))
    ∧ (∀ bs l, parseTable bs = some l → l.ranges.length ≤ 14 ∧ ∀ r ∈ l.ranges, r.1 % 64 = 0 ∧ 64 ≤ r.2 ∧ r.2 ≤ 2 ^ 20 ∧ r.2 % 64 = 0)

open Sys2Proof Sys2Proof.Machine Sys2Proof.Claims in
/-- R61-R64, R97, R161, R176, R180, R182: a core's own events. Items go by the key of R61. An idle core takes up the first continuation that it may pop in key order, with a
fresh state or the saved one; an interrupt takes its unit and traps; a fetch that cannot be made and an unassigned opcode trap; a
forced save falls due; a victim of a pre-emption, which runs an item that a ready one precedes where no unit of that one is idle,
is told to yield, and a bank job that yields waits with its key and gives up its MCSs and its ungranted takes. -/
def Obligations.CoreEvents : Prop :=
  ∀ (s : State),
    let c := s.core
    -- the key: deadline, effective priority, ready beat, entry, record
    (∀ e f r q i k, s.entry? e.id = some e → s.entry? f.id = some f → e.prio < 256 → f.prio < 256 → e.deadline < 2 ^ 64 → f.deadline < 2 ^ 64 →
      let sooner := fun (x y : Entry) => x.dl = true ∧ (y.dl = false ∨ x.deadline < y.deadline)
      keyLess (s.keyOf e.id r i) (s.keyOf f.id q k) = true ↔ sooner e f ∨ ¬ sooner f e ∧
        (f.effective < e.effective ∨ f.effective = e.effective ∧ (r < q ∨ r = q ∧ (e.id < f.id ∨ e.id = f.id ∧ i < k))))
    ∧ (∀ e : Entry, e.effective = if e.continued = true then 255 else if e.dl = true then e.prio else min 255 (e.prio + e.wait / 2600000))
    ∧ (c.running = false → s.boot.state = 0x0A → s.popChoice s.subj.core.val = none → exec .continuationPop s = .next s)
    ∧ (∀ x, s.popChoice s.subj.core.val = some x → x ∈ s.items ∧ s.mayPop s.subj.core.val x = true
        ∧ (∀ y ∈ s.items, s.mayPop s.subj.core.val y = true → keyLess (y.key s) (x.key s) = false))
    ∧ (∀ x t r, c.running = false → s.boot.state = 0x0A → s.popChoice s.subj.core.val = some x → s.takeItem x = (t, r) →
        exec .continuationPop s = .next (t.takeUp r)
        ∧ (∀ d, r.saved = some d → r.ranges = [] → (t.takeUp r).core.running = true ∧ (t.takeUp r).core.s = d.s ∧ (t.takeUp r).core.v = d.v
            ∧ (t.takeUp r).core.k = d.k ∧ (t.takeUp r).core.f0 = d.f0 ∧ (t.takeUp r).core.status = d.status ∧ (t.takeUp r).core.ckptAt = t.beat)
        ∧ (r.saved = none → ∀ u h, readHeader { t.noteDispatch r.entry with fresh := t.fresh + 1 } r.ctx (.yard s.yardIdx) r.code = (u, .ok (some h)) →
            let d := (t.takeUp r).core
            d.running = true ∧ d.ctx = r.ctx ∧ d.f0 = r.code ∧ d.f1 = r.code + 8 ∧ d.f2 = r.code + 16 ∧ d.lattab = h.lattab ∧ d.ckptInt = h.ckptint
              ∧ d.ckptAt = u.beat ∧ d.penset = r.penset ∧ d.pencnt = r.pencnt ∧ d.entry = r.entry ∧ d.joinblk = r.joinblk ∧ d.status = 0
              ∧ d.tvec = 0 ∧ d.getS 1 = r.frame ∧ (∀ i, i < 64 → i ≠ 1 → d.getS i = 0) ∧ (∀ i, i < 96 → d.isFull (BitVec.ofNat 8 i) = true) ∧ d.getK 0 = BitVec.allOnes 128
              ∧ d.slot = 0 ∧ d.flight = [] ∧ d.rplq = [] ∧ d.tagmap = 0 ∧ d.intsem = 0 ∧ d.loop = none))
    ∧ (c.running = true → c.preemptReq = true → c.hollow = false → c.ckptAt + c.ckptInt ≤ s.beat → exec .forcedSave s = .next (s.forcedSave c.readyAt))
    ∧ (∀ n id x, c.intTake = some (n, id) → c.running = true → c.tm = false → c.hollow = false → c.budgetTrap = false →
        (c.resumed = false ∨ c.pn = false) → (s.sem n).takes.head? = some x → x.id = id → x.units ≤ (s.sem n).count →
        ∃ u : State, exec .interrupt s = .next (u.takeTrap { code := 0x39 }) ∧ u.core = { c with intTake := none }
          ∧ u.sem n = ({ s.sem n with count := (s.sem n).count - x.units, takes := (s.sem n).takes.tail } : Sem).grant
          ∧ (∀ m, m ≠ n → u.sem m = s.sem m) ∧ u.mem = s.mem ∧ u.jobs = s.jobs)
    ∧ (∀ t f, c.running = true → s.fetch = (t, .error f) →
        exec .instructionFetchFault s = .next (t.takeTrap { code := f.1, path := 0, fva := BitVec.ofNat 64 f.2 }))
    ∧ (∀ word, exec (.illegalOpcode word) s = .next (s.takeTrap { code := 0x01 }))
    ∧ (∀ k : Fin 64,
        (s.coreVictim k.val = true →
          exec (.preemption (.core k)) s = .next { s with cores := s.cores.set k { s.cores[k] with preemptReq := true } }
          ∧ s.cores[k].running = true ∧ ∃ x ∈ s.items, s.mayPop k.val x = true ∧ keyPrecedes (x.key s) (s.runKey k.val) = true
            ∧ ∀ i, i < 64 → s.mayPop i x = true → (s.coreAt i).running = true
                ∧ ((s.coreAt i).preemptReq = true ∨ keyLess (s.runKey k.val) (s.runKey i) = false))
        ∧ (∀ x, s.items = [x] → 1 ≤ x.count → s.mayPop k.val x = true → keyPrecedes (x.key s) (s.runKey k.val) = true →
            (∀ i, i < 64 → s.mayPop i x = true → (s.coreAt i).running = true ∧ (s.coreAt i).preemptReq = false
              ∧ keyLess (s.runKey k.val) (s.runKey i) = false) → s.coreVictim k.val = true))
    ∧ (∀ (y : Fin 8) (l : Lunge), s.yards[y].arr.lunge = some l → s.runVictim y l = true →
        ∃ (u : State) (l' : Lunge), exec (.preemption (.matrix y)) s = .next u ∧ u.yards[y].arr.lunge = some l' ∧ l'.job = l.job
          ∧ l'.yields = true ∧ l'.stopAt = some ((l.next - 1) / (l.desc.group * l.desc.ksteps)) ∧ l'.next = l.next
          ∧ u.jobs = s.jobs ∧ u.cores = s.cores ∧ u.mem = s.mem)
    ∧ (∀ id j, s.job? id = some j → s.bankVictim j = true →
        ∃ t : State, exec (.preemption (.bank id)) s = .next t ∧ t.cores = s.cores ∧ t.mem = s.mem
        ∧ t.jobs = s.jobs.map (fun x => if x.id = id then { x with phase := .queued } else x)
        ∧ (∀ d : Fin 48, t.mcs[d].holder = if s.mcs[d].holder = some id then none else s.mcs[d].holder)
        ∧ ∀ b, s.bankJob? id = some b →
            ((∀ p ∈ b.ports, p.take = none) → t.bankJobs = s.bankJobs ∧ t.sems = s.sems)
            ∧ ∀ p n k, b.ports = [p] → p.take = some (n, k) → s.granted n k = false →
                (∃ b', t.bankJob? id = some b' ∧ b'.ports = [{ p with take := none, word := none }])
                ∧ ∀ x ∈ (t.sem n).takes, x.id ≠ k)
/-! ### Bank-command words and the memory channels (R119-R135, R143, R144, R339-R360) -/

namespace Sys2Proof.Claims
open Sys2Proof.Machine

/-- A port of a running bank job has its turn (R121, R124). -/
def portTurnOf (s : State) (b : BankJob) (j : Job) (p : Port) : Prop :=
  s.job? s.subj.job = some j ∧ s.bankJob? s.subj.job = some b ∧ b.port? s.subj.port = some p ∧ s.portRuns j p = true

/-- A word within its limits leaves its port so, or waits while a bank that it reads is in a refresh (R13; log 54); one outside them stops
the job with RESERVED_FIELD (R359). -/
def wordEnds (i : Instr) (ok : Bool) (s : State) (e : BankJob → Job → Port → WordEnd → Prop) : Prop :=
  ∀ b j p, portTurnOf s b j p →
    (ok = false → exec i s = .next (s.stopBank b.id p.die 0x02))
    ∧ (ok = true → ∃ x, e b j p x ∧ ((x.settle b.id).unserved = false → exec i s = .next (x.settle b.id))
        ∧ ((x.settle b.id).unserved = true → exec i s = .next s))

/-- The word ends, nothing but its port changes, and the port stands at the next word with these registers. -/
def portBecomes (s : State) (p q : Port) (x : WordEnd) : Prop := x = .next s { q with pc := p.pc + 6, done := 0, stream := [], word := none }

/-- The signed immediate of a BSET: bits 39:8 of the word. -/
def immOf (w : BankF) : Int := (w.rep ++ w.step).toInt

/-- The register that a BSET code names: its value, the least and the greatest, the multiple, and the port with it (Table 17.3). -/
def bsetRow (w : BankF) (add : Bool) (d : BankDesc) (p : Port) : List (Nat × Int × Nat × Nat × Nat × (Nat → Port)) :=
  let n := immOf w
  let plus := fun (old : Nat) => if add then (old : Int) + n else n
  let top := 2 ^ 57 - 1
  [(0, (if add then p.ra.toNat else d.arg0.toNat) + 64 * n, 0, top, 1, fun v => { p with ra := BitVec.ofNat 64 v }),
   (1, d.arg1.toNat + 64 * n, 0, top, 1, fun v => { p with ra := BitVec.ofNat 64 v }),
   (2, (if add then p.wa.toNat else d.arg0.toNat) + 64 * n, 0, top, 1, fun v => { p with wa := BitVec.ofNat 64 v }),
   (3, d.arg1.toNat + 64 * n, 0, top, 1, fun v => { p with wa := BitVec.ofNat 64 v }),
   (4, n, 0, 2 ^ 31 - 1, 1, fun v => { p with ls := 64 * v }),
   (5, n, 0, 255, 1, fun v => { p with em := v }),
   (6, n, 1, 16000, 1, fun v => { p with rsz := v }),
   (7, plus p.koff, 0, 8064, 128, fun v => { p with koff := v }),
   (8, plus p.kseg, 0, 31488, 256, fun v => { p with kseg := v }),
   (9, plus p.slot, 0, 63, 1, fun v => { p with slot := v }),
   (10, plus p.rrow, 0, 65535, 1, fun v => { p with rrow := v }),
   (11, n, 0, 255, 1, fun v => { p with layer := v }),
   (12, n, 0, 127, 1, fun v => { p with head := v }),
   (13, plus p.kb, 0, 65535, 1, fun v => { p with kb := v }),
   (14, plus p.tpos, 0, 1048575, 1, fun v => { p with tpos := v }),
   (15, plus p.pbase, 0, 1048575, 1, fun v => { p with pbase := v })]

/-- Codes of Table 17.3 that ADD may name. -/
def addable (code : Nat) : Prop := code ∈ [0, 2, 7, 8, 9, 10, 13, 14, 15]

/-- A BSET sets the register of its code, or stops the job where the value lies outside its limits (R345). -/
def setsRegister (i : Instr) (ok add : Bool) (w : BankF) (s : State) : Prop :=
  wordEnds i ok s fun _ j p x => ∀ d t, j.kind = .bcall d t → ∀ r ∈ bsetRow w add d p, r.1 = w.operand.toNat % 16 →
    let within := (r.2.2.1 : Int) ≤ r.2.1 ∧ r.2.1 ≤ r.2.2.2.1 ∧ r.2.1 % r.2.2.2.2.1 = 0
    (within → portBecomes s p (r.2.2.2.2.2 r.2.1.toNat) x) ∧ (¬ within → x = .stop s p 0x02)

/-- The meter of an entry's bank-group units rises (R69). -/
def charged (s t : State) (j : Job) (n : Nat) : Prop :=
  t = { s with entries := s.entries.map fun e => if e.id = j.entry then { e with used := { e.used with bank := e.used.bank + n } } else e }

/-- A word that goes through applications ends in its port, which `after` describes before it moves on, is suspended, or stops. -/
def endsAfter (u : State) (v : Port) (r : Option CopyStop) (e : WordEnd) (after : Port → Prop) : Prop :=
  (∀ code va, r = some (.suspend code va) → e = .suspend u v code va)
  ∧ (∀ code va, r = some (.fail code va) → e = .stop u v code)
  ∧ (r = none → ∃ z, after z ∧ e = .next u { z with pc := v.pc + 6, done := 0, stream := [], word := none })

/-- Nothing but the counts of corrected errors differs (R131). -/
def counts (s t : State) : Prop := t = { s with mcs := t.mcs, eccCount := t.eccCount }

/-- A sum of `n` integers. -/
def total (f : Nat → Int) (n : Nat) : Int := ((List.range n).map f).foldl (· + ·) 0

/-- The residue word of an integer (Table 7.1): its four residues, zeros, and the poison bit. -/
def residues (v : Int) (bad : Bool) (w : BitVec 40) : Prop :=
  ((w.extractLsb' 0 8).toNat : Int) = v % 256 ∧ ((w.extractLsb' 8 8).toNat : Int) = v % 255 ∧ ((w.extractLsb' 16 9).toNat : Int) = v % 257
  ∧ ((w.extractLsb' 25 9).toNat : Int) = v % 259 ∧ w.extractLsb' 34 5 = 0 ∧ w.getLsbD 39 = bad

/-- Twice the value of an E2M1 element: sign, two exponent bits, one bit of mantissa (R122, R214). -/
def twiceE2M1 (x : Nat) : Int :=
  (if 8 ≤ x % 16 then -1 else 1) * (if x % 8 < 2 then (x % 2 : Nat) else ((2 + x % 2) * 2 ^ (x % 8 / 2 - 1) : Nat))

/-- The issue lane of its die that drives a BGU (R341). -/
def bguLane (n : Nat) : Nat := 2 * (n % 4) + n % 8 / 4

/-- Broadcast element `a` of batch lane `b` on an issue lane. -/
def broadcasted (p : Port) (l b a : Nat) : Int := (SMap.get 0 (p.lane l).buf (8192 * b + a)).toInt

/-- A reduction block of half `h` of K4 block `g` of a lane's stream, 128 elements, for batch lane `b` (R348): the columns that the lane
keeps give the weights, the scale and whether an uncorrectable error met one of them. -/
def k4Block (p : Port) (l g h b : Nat) (y : Block) : Prop :=
  let blocks := p.rsz / 129
  let kk := 256 * (g % blocks) + 128 * h
  let a := p.koff + kk - p.kseg
  let data := fun i => 129 * g + 64 * h + i
  let scale := 129 * g + 128
  let weight := fun i => twiceE2M1 ((p.streamByte l (data (i / 2))).toNat / 16 ^ (i % 2) % 16)
  p.kseg ≤ kk ∧ a ≤ 8064
  ∧ y.lane = l ∧ y.slot = p.slot + g / blocks ∧ y.batch = b ∧ y.index = kk / 128 ∧ y.k4 = true ∧ y.cw = p.streamByte l scale
  ∧ y.ca = SMap.get 127 (p.lane l).scale (64 * b + a / 128)
  ∧ residues (total (fun i => weight i * broadcasted p l b (a + i)) 128)
      ((scale :: (List.range 64).map data).any fun i => (p.colAt l i).bad) y.word

/-- The block of a key against the broadcast query of batch lane `b` (R349). -/
def kvBlock (t : State) (p : Port) (x : KvPlace) (u q b : Nat) (y : Block) : Prop :=
  let l := bguLane x.bgu
  let data := fun i => x.pas.getD (128 * u + i) 0
  y.lane = l ∧ y.slot = q ∧ y.batch = b ∧ y.index = 0 ∧ y.k4 = false ∧ y.cw = t.arrayByte (x.pas.getD (2048 + u) 0)
  ∧ y.ca = SMap.get 127 (p.lane l).scale (64 * b + p.koff / 128)
  ∧ residues (total (fun i => (t.arrayByte (data i)).toInt * broadcasted p l b (p.koff + i)) 128)
      (t.eccBad (x.pas.drop 2048 ++ (List.range 128).map data)) y.word

/-- The term that token `j`, in slot `u` of a value block, adds to value element `k` of batch lane `c` (R350). -/
def axpyTerm (t : State) (p : Port) (half : Nat) (x : KvPlace) (j u k c : Nat) : W32 :=
  let l := bguLane x.bgu
  let a := j - p.pbase
  blockTerm ((t.arrayByte (x.pas.getD (128 * u + 64 * half + k) 0)).toInt * broadcasted p l c a)
    (t.arrayByte (x.pas.getD (2048 + u) 0)) (SMap.get 127 (p.lane l).scale (64 * c + a / 128)) false

/-- The broadcast of one batch lane: buffer elements and scales of the blocks, and no others (R346). -/
def broadcast (l m : Lane) (b beta n : Nat) (bs : List Byte) : Prop :=
  m.slots = l.slots
  ∧ (∀ i k, i < n → k < 128 → SMap.get 0 m.buf (8192 * b + 128 * (beta + i) + k) = bs.getD (129 * i + k) 0)
  ∧ (∀ i, i < n → SMap.get 127 m.scale (64 * b + beta + i) = bs.getD (129 * i + 128) 0)
  ∧ (∀ a, ¬(8192 * b + 128 * beta ≤ a ∧ a < 8192 * b + 128 * (beta + n)) → SMap.get 0 m.buf a = SMap.get 0 l.buf a)
  ∧ ∀ a, ¬(64 * b + beta ≤ a ∧ a < 64 * b + beta + n) → SMap.get 127 m.scale a = SMap.get 127 l.scale a

end Sys2Proof.Claims

open Sys2Proof Sys2Proof.Machine Sys2Proof.Claims in
/-- R345, R355-R357, R339, R359: BSET and bset.add, the loop words, JMPW, HALTW, the semaphore words and MARKW, of which
SEMSW and MARKW wait while a refresh keeps a write from its array (R13; log 54); a word outside its
limits and an undefined one stop the job. -/
def Obligations.BankControlWords : Prop :=
  ∀ (w : BankF) (s : State),
    let n := w.operand.toNat
    let c := w.rep.toNat
    let x := s.sem n
    wordEnds (.nopw w) (checkNopw w) s (fun _ _ p e => portBecomes s p p e)
    ∧ wordEnds (.loopw w) (checkLoopw w) s (fun _ _ p e =>
        (p.loops.length < 4 → portBecomes s p { p with loops := (if c = 0 then 65536 else c, p.pc + 6) :: p.loops } e)
        ∧ (4 ≤ p.loops.length → e = .stop s p 0x02))
    ∧ wordEnds (.endw w) (checkEndw w) s (fun _ _ p e =>
        (p.loops = [] → e = .stop s p 0x02)
        ∧ ∀ k at_ rest, p.loops = (k, at_) :: rest →
            (1 < k → e = .next s { p with pc := at_, loops := (k - 1, at_) :: rest, done := 0, stream := [], word := none })
            ∧ (k ≤ 1 → portBecomes s p { p with loops := rest } e))
    ∧ wordEnds (.jmpw w) (checkJmpw w) s (fun _ _ p e =>
        e = .next s { p with pc := p.pc + 6 * w.step.signExtend 64, done := 0, stream := [], word := none })
    ∧ wordEnds (.haltw w) (checkHaltw w) s (fun _ j p e => ∃ t q, e = .next t q ∧ q.halted = true ∧ q.loops = [] ∧ q.lanes = p.lanes
        ∧ t = { s with mcs := t.mcs } ∧ (p.die < 48 → (t.mcsAt p.die).holder ≠ some j.id) ∧ ∀ d, d ≠ p.die → t.mcsAt d = s.mcsAt d)
    ∧ (∀ v b j p, portTurnOf s b j p → s.unserved = false → exec (.illegalWord v) s = .next (s.stopBank b.id p.die 0x01))
    ∧ setsRegister (.bset w) (checkBset w) false w s ∧ setsRegister (.bsetAdd w) (checkBsetAdd w) true w s
    ∧ (checkBsetAdd w = true ↔ 128 ≤ n ∧ n < 144 ∧ addable (n % 16))
    ∧ wordEnds (.semww w) (checkSemww w) s (fun _ j p e =>
        let owned := x.assigned = true ∧ x.ctx = j.ctx
        (¬ owned → p.take = none → e = .stop s p 0x06)
        ∧ (owned → p.take = none → x.takes = [] → s.fresh ∉ x.granted →
            (c ≤ x.count → ∃ t, portBecomes t p p e ∧ (t.sem n).count = x.count - c ∧ (t.sem n).takes = [] ∧ t.mem = s.mem)
            ∧ (x.count < c → ∃ t id, e = .wait t { p with take := some (n, id) } ∧ (t.sem n).count = x.count ∧ (t.sem n).takes.map (·.id) = [id]))
        ∧ (∀ id, p.take = some (n, id) → id ∈ x.granted → ∃ t, portBecomes t p { p with take := none } e)
        ∧ (∀ id, p.take = some (n, id) → id ∉ x.granted → e = .wait s p))
    ∧ wordEnds (.semsw w) (checkSemsw w) s (fun _ j p e =>
        let owned := x.assigned = true ∧ x.ctx = j.ctx
        (¬ owned → e = .stop s p 0x06)
        ∧ (owned → keptBack s → e = .wait s p)
        ∧ (owned → ¬ keptBack s → x.takes = [] → x.count + c ≤ 0xFFFF → ∃ t, portBecomes t p p e ∧ (t.sem n).count = x.count + c ∧ t.wq = [])
        ∧ (owned → ¬ keptBack s → 0xFFFF < x.count + c → ∃ t, portBecomes t p p e ∧ t.errorCount = s.errorCount + 1 ∧ (x.takes = [] → (t.sem n).count = 0xFFFF)))
    ∧ wordEnds (.markw w) (checkMarkw w) s (fun _ _ p e => (keptBack s → e = .wait s p)
        ∧ (¬ keptBack s → ∃ t, portBecomes t p p e ∧ t.wq = [] ∧ (∀ a, t.readByte a = s.readByte a)))

open Sys2Proof Sys2Proof.Machine Sys2Proof.Claims in
/-- R346, R347, R351-R353: BCAST fills the buffers of the enabled lanes and of no other; RDW and WRW move whole columns, CVT waits for the
conversions, ACCZ frees row slots, and DRN writes their records and keeps the slots. -/
def Obligations.BankDataWords : Prop :=
  ∀ (w : BankF) (s : State),
    let q := w.operand.toNat
    let n := w.rep.toNat
    let stride := 64 * w.step.toInt
    wordEnds (.bcast w) (checkBcast w) s (fun _ j p e =>
        ∀ t blocks r, bcastReach s j p p.done (n - p.done) = (t, blocks, r) →
          let first := p.ra.toNat + 129 * p.done
          let cols := if blocks = [] then 0 else (first + 129 * blocks.length + 63) / 64 - first / 64
          let bs := blocks.flatMap fun pas => pas.map t.readByte
          blocks.length ≤ n - p.done ∧ (r = none → blocks.length = n - p.done)
          ∧ (∀ pas ∈ blocks, pas.length = 129) ∧ (∀ i pas, blocks[i]? = some pas → ∃ y z x,
              reach y (bankAccess j.ctx p.die .read) [{ va := (p.ra.toNat + 129 * (p.done + i)) % 2 ^ 64, len := 129 }] = (z, .ok x) ∧ pas = x.flatten)
          ∧ ∃ u v, endsAfter u v r e (fun z => z = { v with ra := p.ra + BitVec.ofNat 64 (129 * n) })
              ∧ charged (t.ordinaryRead blocks.flatten) u j (cols * p.enabled.length)
              ∧ v = { p with done := p.done + blocks.length, lanes := v.lanes }
              ∧ ∀ i, i < 8 → (p.em.testBit i = false → v.lane i = p.lane i)
                ∧ (p.em.testBit i = true → broadcast (p.lane i) (v.lane i) (q % 4) (q / 4 + p.done) blocks.length bs))
    ∧ wordEnds (.rdw w) (checkRdw w) s (fun _ j p e =>
        (p.ra.toNat % 64 ≠ 0 → e = .stop s p 0x02)
        ∧ (p.ra.toNat % 64 = 0 → ∀ u v r, moveCols s j p false q p.ra.toNat stride (n - p.done) = (u, v, r) → endsAfter u v r e fun z =>
            z = { v with ra := p.ra + 64 * BitVec.ofNat 64 n * w.step.signExtend 64 }))
    ∧ wordEnds (.wrw w) (checkWrw w) s (fun _ j p e =>
        (p.wa.toNat % 64 ≠ 0 → e = .stop s p 0x02)
        ∧ (p.wa.toNat % 64 = 0 → ∀ u v r, moveCols s j p true q p.wa.toNat stride (n - p.done) = (u, v, r) → endsAfter u v r e fun z =>
            z = { v with wa := p.wa + 64 * BitVec.ofNat 64 n * w.step.signExtend 64 }))
    -- one application: column `done` read into its move register, or written from it
    ∧ (∀ (j : Job) (p : Port) (write : Bool) (base k : Nat), moveCols s j p write q base stride 0 = (s, p, none)
        ∧ ∀ (va : Nat) t r, (va : Int) = ((base : Int) + stride * (p.done : Int)) % 2 ^ 64 → columnAt s j p.die none (if write then .write else .read) va = (t, r) →
            (∀ f, r = .error f → moveCols s j p write q base stride (k + 1) = (t, p, some f))
            ∧ (∀ pa, r = .ok pa → write = false → ∃ c u mv, charged t c j 1 ∧ counts c u
                ∧ moveCols s j p write q base stride (k + 1) = moveCols u j { p with done := p.done + 1, move := mv } write q base stride k
                ∧ SMap.get 0 mv (q + p.done) = BitVec.ofNat 512 (fromBytes ((upFrom pa 64).map t.arrayByte))
                ∧ ∀ i, i ≠ q + p.done → SMap.get 0 mv i = SMap.get 0 p.move i)
            ∧ (∀ pa, r = .ok pa → write = true → (∀ i, i < 64 → t.heldAt (pa + i) = false) →
                ∃ u, moveCols s j p write q base stride (k + 1) = moveCols u j { p with done := p.done + 1 } write q base stride k
                  ∧ (∀ i, i < 64 → u.arrayByte (pa + i) = BitVec.ofNat 8 ((SMap.get 0 p.move (q + p.done)).toNat / 256 ^ i))
                  ∧ ∀ a, ¬(pa ≤ a ∧ a < pa + 64) → u.readByte a = t.readByte a))
    ∧ wordEnds (.cvt w) (checkCvt w) s (fun _ _ p e => (p.blocks = [] → portBecomes s p p e) ∧ (p.blocks ≠ [] → e = .wait s p))
    ∧ wordEnds (.accz w) (checkAccz w) s (fun _ j p e =>
        let waits := ∃ x ∈ p.blocks, q ≤ x.slot ∧ x.slot < q + n
        (waits → e = .wait s p)
        ∧ (¬ waits → ∃ u v k, portBecomes u p v e ∧ charged s u j k ∧ v = { p with lanes := v.lanes }
            ∧ ∀ i, i < 8 → (v.lane i).buf = (p.lane i).buf ∧ (v.lane i).scale = (p.lane i).scale
              ∧ ∀ z, z < 64 → (v.lane i).slot z = if q ≤ z ∧ z < q + n then ({} : RowSlot) else (p.lane i).slot z))
    ∧ wordEnds (.drn w) (checkDrn w) s (fun _ j p e =>
        let waits := ∃ x ∈ p.blocks, q ≤ x.slot ∧ x.slot < q + n
        (p.wa.toNat % 16 ≠ 0 → e = .stop s p 0x02)
        ∧ (p.wa.toNat % 16 = 0 → waits → e = .wait s p)
        -- slot by slot, and lane by lane in a slot, from the one after the last that was made
        ∧ (p.wa.toNat % 16 = 0 → ¬ waits → ∀ xs t r, (∀ k, xs[k]? = if p.done + k < 8 * n
                then some ((q + (p.done + k) / 8, (p.done + k) % 8), p.done + k) else none) → drainSlots s j p xs = (t, r) →
            ∃ u k, charged t u j k ∧ (r = none → portBecomes u p p e)
              ∧ (∀ code va i, r = some (.suspend code va, i) → e = .suspend u { p with done := i } code va)
              ∧ ∀ code va i, r = some (.fail code va, i) → e = .stop u p code)
        ∧ (p.wa.toNat % 16 = 0 → ¬ waits → (∀ i, i < 8 → ∀ z, q ≤ z → z < q + n → ((p.lane i).slot z).assigned = false) →
            ∃ u, portBecomes u p p e ∧ charged s u j 0))
    -- one record: an assigned slot of a lane writes the four results of its row; a free one writes nothing
    ∧ (∀ (j : Job) (p : Port) (z l i : Nat) (rest : List ((Nat × Nat) × Nat)), drainSlots s j p [] = (s, none)
        ∧ let slot := (p.lane l).slot z
          let bad := ∃ a ∈ slot.acc.toList, a.2 = true
          let bytes := slot.acc.toList.flatMap fun a => toBytes 4 (if a.2 then 0x7FC00BAD else a.1.toNat)
          (slot.assigned = false → drainSlots s j p (((z, l), i) :: rest) = drainSlots s j p rest)
          ∧ (slot.assigned = true → bad → 65535 < slot.rho → ∃ va, drainSlots s j p (((z, l), i) :: rest) = (s, some (.fail 0x02 va, i)))
          ∧ (slot.assigned = true → ¬(bad ∧ 65535 < slot.rho) → ∀ t r,
              reach s (bankAccess j.ctx p.die .write) [{ va := (p.wa.toNat + 16 * slot.rho) % 2 ^ 64, len := 16 }] = (t, r) →
              (∀ f, r = .error f → drainSlots s j p (((z, l), i) :: rest) = (t, some (.suspend f.1 f.2, i)))
              ∧ ∀ pas, r = .ok [pas] → ∃ x, drainSlots s j p (((z, l), i) :: rest) = drainSlots x j p rest
                  ∧ x = { (t.logHeld pas 3 p.die j.entry).putBytes pas bytes with bankJobs := x.bankJobs }
                  ∧ (¬ bad → x.bankJobs = t.bankJobs) ∧ (bad → ∀ b, x.bankJob? j.id = some b → slot.rho ∈ b.poison)))

open Sys2Proof Sys2Proof.Machine Sys2Proof.Claims in
/-- R119, R120, R122, R348-R350, R354: the products and the key-value rows. DOT.K4 goes column by column over every enabled
lane: a row's slots are assigned with the column in which it begins, and with the column that completes a K4 block each of its halves
within the buffer hands to the conversion stage four blocks with the residue word of the sum of twice the E2M1 weights times the
broadcast elements and with their two scales; that a column of every enabled lane is made whole or not at all is log 93; DOT.KV does the same for each token of the key
blocks on its die; AXPY adds the products of the value rows and the broadcast probabilities one by one, in the order of the chain;
KVW writes the 128 bytes of each row, its side byte and the zeros of the side column. What each checks before it works stops or suspends it. -/
def Obligations.BankProducts : Prop :=
  ∀ (w : BankF) (s : State),
    let n := if w.rep = 0 then 65536 else w.rep.toNat
    let stride := 64 * w.step.toInt
    let k4 := fun (i : Instr) (ok cont : Bool) => wordEnds i ok s fun _ j p e =>
      let m := 64 * n / p.rsz
      let legal := p.rsz ≠ 0 ∧ p.rsz % 129 = 0 ∧ p.ra.toNat % 64 = 0 ∧ p.slot + m ≤ 64 ∧ p.rrow + 8 * m ≤ 65536
      (¬ legal → ∃ q, e = .stop s q 0x02)
      ∧ (legal → ∀ u q r, k4Columns j cont stride m (n - p.done) s p = (u, q, r) →
          -- the conversions after the last column, of a word that stops where its last column completed a block
          let tail := r = none ∨ (p.done < q.done ∧ ∃ g, g < m * (p.rsz / 129) ∧ (129 * g + 128) / 64 = q.done - 1)
          ∃ c, (tail → charged u c j p.enabled.length) ∧ (¬ tail → charged u c j 0) ∧ endsAfter c q r e fun z =>
            z = { q with ra := p.ra + 64 * BitVec.ofNat 64 n * w.step.signExtend 64,
                         slot := (if cont then p.slot else p.slot + m), rrow := (if cont then p.rrow else p.rrow + 8 * m) })
    let kv := fun (i : Instr) (ok : Bool) (kind : Nat) (need : Need) (blocks : Port → Nat × Nat)
        (goes : State → BankJob → Job → Port → List KvPlace → WordEnd → Prop) => wordEnds i ok s fun b j p e =>
      ∀ d t, j.kind = .bcall d t →
        (d.btab = 0 → e = .stop s p 0x02)
        ∧ (d.btab ≠ 0 → ∀ u r, kvPlaces s j p d t kind need (blocks p).1 (blocks p).2 = (u, r) →
            (∀ code va, r = .error (.suspend code va) → e = .suspend u p code va)
            ∧ (∀ code va, r = .error (.fail code va) → e = .stop u p code)
            ∧ ∀ xs, r = .ok xs → goes u b j p xs e ∧ xs.length = (blocks p).2
                ∧ ∀ i x, xs[i]? = some x → d.ports.getLsbD (x.bgu / 8) = true ∧ p.layer < t.layers ∧ p.head < t.heads
                    ∧ ∃ set_ y z, t.set? ((blocks p).1 + i) = some set_ ∧ set_ * (2 * t.layers * t.heads) + 2 * (p.layer * t.heads + p.head) + kind < t.poolBlocks
                        ∧ placeBlock y (bankAccess j.ctx p.die need) t (set_ * (2 * t.layers * t.heads) + 2 * (p.layer * t.heads + p.head) + kind) = (z, .ok x))
    (∀ (j : Job) (d : Nat) (bgu : Option Nat) (need : Need) (va pa : Nat) (t : State), columnAt s j d bgu need va = (t, .ok pa) →
      regionOf pa = .package ∧ (placeOf pa).bgu / 8 = d ∧ (∀ i, bgu = some i → (placeOf pa).bgu = i)
      ∧ ∃ u pas, reach s (bankAccess j.ctx d need) [{ va := va % 2 ^ 64, len := 64 }] = (u, .ok pas) ∧ pa = pas.flatten.headD 0)
    ∧ k4 (.dotK4 w) (checkDotK4 w) false ∧ k4 (.dotK4Cont w) (checkDotK4Cont w) true
    -- one application: column `done` of every enabled lane, made whole or not at all
    ∧ (∀ (j : Job) (p : Port) (cont : Bool) (m k : Nat), k4Columns j cont stride m 0 s p = (s, p, none)
        ∧ ∀ t r, laneCols s j p.die (fun l => ((((p.ra.toNat + l * p.ls : Nat) : Int) + stride * (p.done : Int)) % 2 ^ 64).toNat) p.enabled = (t, r) →
          -- row `z` begins in the column
          let begins := fun (z : Nat) => z < m ∧ z * p.rsz / 64 = p.done
          let misfit := ∃ z l, begins z ∧ l ∈ p.enabled ∧ ((p.lane l).slot (p.slot + z)).assigned ≠ cont
          (∀ f, r = .error f → k4Columns j cont stride m (k + 1) s p = (t, p, some f))
          ∧ ∀ pas, r = .ok pas → 129 ≤ p.rsz → p.rsz % 129 = 0 → p.slot + m ≤ 64 →
            pas.length = p.enabled.length
            ∧ (∀ x l : Nat, p.enabled[x]? = some l → ∃ (u v : State) (va : Nat),
                (va : Int) = ((p.ra.toNat + l * p.ls : Nat) + stride * (p.done : Int)) % 2 ^ 64
                ∧ columnAt u j p.die (some (8 * p.die + 4 * (l % 2) + l / 2)) .read va = (v, .ok (pas.getD x 0)))
            ∧ (misfit → k4Columns j cont stride m (k + 1) s p = (t, p, some (.fail 0x02)))
            ∧ (¬ misfit → ∃ c u v new, k4Columns j cont stride m (k + 1) s p = k4Columns j cont stride m k u v
                ∧ counts t c ∧ charged c u j p.enabled.length
                ∧ v = { p with done := p.done + 1, lanes := v.lanes, stream := v.stream, blocks := p.blocks ++ new }
                ∧ (∀ l, l < 8 → (v.lane l).buf = (p.lane l).buf ∧ (v.lane l).scale = (p.lane l).scale
                    ∧ (∀ z, z < m → cont = false → begins z → l ∈ p.enabled →
                        (v.lane l).slot (p.slot + z) = { (p.lane l).slot (p.slot + z) with assigned := true, rho := p.rrow + 8 * z + l })
                    ∧ ∀ i, i < 64 → ¬(cont = false ∧ l ∈ p.enabled ∧ ∃ z, begins z ∧ i = p.slot + z) → (v.lane l).slot i = (p.lane l).slot i)
                ∧ ((∀ c ∈ p.stream, c.index < p.done) → ∀ x l i, p.enabled[x]? = some l →
                    (i / 64 = p.done → v.streamByte l i = t.arrayByte (pas.getD x 0 + i % 64) ∧ (v.colAt l i).bad = t.eccBad [pas.getD x 0])
                    ∧ (i / 64 < p.done → p.done ≤ i / 64 + 2 → v.colAt l i = p.colAt l i))
                ∧ new.Pairwise (fun y z => y.lane = z.lane → y.slot = z.slot → y.batch = z.batch → y.index < z.index)
                ∧ let done := fun (g : Nat) => g < m * (p.rsz / 129) ∧ (129 * g + 128) / 64 = p.done
                  (∀ y ∈ new, ∃ g l h b, done g ∧ l ∈ p.enabled ∧ h < 2 ∧ b < 4 ∧ k4Block v l g h b y)
                  ∧ ∀ g l h b, done g → l ∈ p.enabled → h < 2 → b < 4 → p.kseg ≤ 256 * (g % (p.rsz / 129)) + 128 * h →
                      p.koff + (256 * (g % (p.rsz / 129)) + 128 * h) - p.kseg ≤ 8064 → ∃ y ∈ new, k4Block v l g h b y))
    ∧ kv (.dotKv w) (checkDotKv w) 0 .read (fun p => (p.kb, n)) (fun t _ j p xs e =>
        let token := fun (i : Nat) (x : KvPlace) (u : Nat) => xs[i]? = some x ∧ x.bgu / 8 = p.die ∧ u < 16 ∧ 16 * (p.kb + i) + u < p.seq
        let slotOf := fun (i u : Nat) => (16 * (p.kb + i) + u) % 64
        let clash := (∃ i x u, token i x u ∧ ((p.lane (bguLane x.bgu)).slot (slotOf i u)).assigned = true)
          ∨ ∃ i x u i' x' u', token i x u ∧ token i' x' u' ∧ (i, u) ≠ (i', u') ∧ bguLane x.bgu = bguLane x'.bgu ∧ slotOf i u = slotOf i' u'
        let here := (xs.filter fun x => x.bgu / 8 == p.die).length
        (clash → ∃ u q, e = .stop u q 0x02)
        ∧ (¬ clash → ∃ c u v new, portBecomes u p v e ∧ counts t c ∧ charged c u j (if here = 0 then 0 else 33 * here + 1)
            ∧ v = { p with kb := p.kb + n, lanes := v.lanes, blocks := p.blocks ++ new }
            ∧ (∀ l, l < 8 → (v.lane l).buf = (p.lane l).buf ∧ (v.lane l).scale = (p.lane l).scale ∧ ∀ z, z < 64 →
                (∀ i x u, token i x u → bguLane x.bgu = l → slotOf i u = z →
                  (v.lane l).slot z = { (p.lane l).slot z with assigned := true, rho := 16 * (p.kb + i) + u })
                ∧ ((∀ i x u, token i x u → bguLane x.bgu = l → slotOf i u ≠ z) → (v.lane l).slot z = (p.lane l).slot z))
            ∧ new.Pairwise (fun y z => ¬(y.lane = z.lane ∧ y.slot = z.slot ∧ y.batch = z.batch))
            ∧ (∀ y ∈ new, ∃ i x u b, token i x u ∧ b < 4 ∧ kvBlock t p x u (slotOf i u) b y)
            ∧ ∀ i x u b, token i x u → b < 4 → ∃ y ∈ new, kvBlock t p x u (slotOf i u) b y))
    ∧ kv (.axpy w) (checkAxpy w) 1 .read (fun p => (p.kb, n)) (fun t b j p xs e =>
        let chain := b.chainOf p
        let half := w.operand.toNat % 2
        ((∀ c ∈ b.chains, c.ordinal ≠ p.axpys) →
          chain.next = p.kb ∧ chain.acc = List.replicate 256 (0, false) ∧ chain.holder = none)
        ∧ (∀ u q c stops, axpyRun t j p half (p.kb + n - 1) chain (xs.zipIdx p.kb) = (u, q, c, stops) →
          (stops = true → e = .stop (u.setChain b.id c) q 0x02)
          ∧ (stops = false → (∃ x ∈ xs.zipIdx p.kb, c.next ≤ x.2 ∧ x.1.bgu / 8 = p.die) → e = .wait (u.setChain b.id c) q)
          ∧ (stops = false → (∀ x ∈ xs.zipIdx p.kb, ¬(c.next ≤ x.2 ∧ x.1.bgu / 8 = p.die)) →
              ∃ v, portBecomes (u.setChain b.id c) q v e ∧ v.kb = p.kb + n ∧ v.axpys = p.axpys + 1 ∧ v.lanes = q.lanes))
        -- what is left of the chain lies on this die
        ∧ (let left := (xs.zipIdx p.kb).filter fun x => decide (chain.next ≤ x.2)
          let tokens := left.flatMap fun x => ((List.range 16).filter fun u => decide (16 * x.2 + u < p.seq)).map fun u => (x.1, 16 * x.2 + u, u)
          let acc := fun (k c : Nat) => tokens.foldl (fun a z => (addFP32 a (axpyTerm t p half z.1 z.2.1 z.2.2 k c)).1) (chain.acc.getD (4 * k + c) (0, false)).1
          chain.next ≤ p.kb + n - 1 → chain.acc.length = 256 → (∀ a ∈ chain.acc, a.2 = false) →
          (∀ x ∈ left, x.1.bgu / 8 = p.die ∧ ∀ z, z < 64 → ((p.lane (bguLane x.1.bgu)).slot z).assigned = false) →
          (∀ z ∈ tokens, p.pbase ≤ z.2.1 ∧ z.2.1 - p.pbase < 8192) →
          (∀ z ∈ tokens, ∀ a ∈ z.1.pas.drop 2048 ++ ((List.range 64).map fun i => z.1.pas.getD (128 * z.2.2 + 64 * half + i) 0), t.eccBad [a] = false) →
          ∀ x, xs.getLast? = some x → ∃ u v, portBecomes u p v e ∧ v = { p with kb := p.kb + n, axpys := p.axpys + 1, lanes := v.lanes }
            ∧ (∀ l, l < 8 → (v.lane l).buf = (p.lane l).buf ∧ (v.lane l).scale = (p.lane l).scale ∧ (l ≠ bguLane x.bgu → v.lane l = p.lane l))
            ∧ ∀ k, k < 64 → ((v.lane (bguLane x.bgu)).slot k).assigned = true ∧ ((v.lane (bguLane x.bgu)).slot k).rho = p.rrow + k
                ∧ ∀ c, c < 4 → v.acc (bguLane x.bgu) k c = (acc k c, false)))
    ∧ (∀ (i : Instr) (ok : Bool) (kind : Nat), (i = .kvwK w ∧ ok = checkKvwK w ∧ kind = 0) ∨ (i = .kvwV w ∧ ok = checkKvwV w ∧ kind = 1) →
        kv i ok kind .write (fun p => (p.tpos / 16, (p.tpos + n - 1) / 16 - p.tpos / 16 + 1)) (fun t _ j p xs e =>
          ∀ u q r, kvwRows t j p (p.tpos / 16) xs (n - p.done) = (u, q, r) → endsAfter u q r e fun v =>
            v = { q with ra := p.ra + BitVec.ofNat 64 (129 * n), tpos := p.tpos + n, seq := max p.seq (p.tpos + n), kvwRaised := v.kvwRaised }
            ∧ (v.kvwRaised = true ↔ p.kvwRaised = true ∨ p.seq < p.tpos + n)))
    -- one row: row `done` goes to the token slot of its position
    ∧ (∀ (j : Job) (p : Port) (first k : Nat) (xs : List KvPlace), kvwRows s j p first xs 0 = (s, p, none)
        ∧ ∀ x, xs[(p.tpos + p.done) / 16 - first]? = some x →
          let slot := (p.tpos + p.done) % 16
          (x.bgu / 8 ≠ p.die → kvwRows s j p first xs (k + 1) = kvwRows s j { p with done := p.done + 1 } first xs k)
          ∧ (x.bgu / 8 = p.die → ∀ t r, ordBytes s j p.die (p.ra.toNat + 129 * p.done) 129 = (t, r) →
              (∀ f, r = .error f → kvwRows s j p first xs (k + 1) = (t, p, some f))
              ∧ ∀ row, r = .ok row → row.length = 129 → x.pas.Nodup → x.pas.length = 2112 → (∀ a ∈ x.pas, t.heldAt a = false) →
                  let at_ := fun (i : Nat) => x.pas.getD i 0
                  ∃ u, kvwRows s j p first xs (k + 1) = kvwRows u j { p with done := p.done + 1 } first xs k
                    ∧ (∀ i, i < 128 → u.arrayByte (at_ (128 * slot + i)) = row.getD i 0)
                    ∧ u.arrayByte (at_ (2048 + slot)) = row.getD 128 0 ∧ (∀ i, 16 ≤ i → i < 64 → u.arrayByte (at_ (2048 + i)) = 0)
                    ∧ (∀ a, (∀ i, i < 2112 → a = at_ i → ¬(128 * slot ≤ i ∧ i < 128 * slot + 128) ∧ i ≠ 2048 + slot ∧ i < 2064) →
                        u.readByte a = t.readByte a ∧ u.arrayByte a = t.arrayByte a)
                    ∧ ∃ v, charged v u j 3 ∧ v = { t with mem := v.mem, wq := v.wq }))

open Sys2Proof Sys2Proof.Machine Sys2Proof.Claims in
/-- R10, R13, R119, R123, R128, R130, R132, R144, R358, R360: what the channels do by themselves and RESW: the oldest block is checked
and converted, one that met an uncorrectable error poisons its row slot in one event, a finished job raises SEQLEN and ends, waiting
writes enter the arrays but for those of a bank in refresh, a refresh pauses its bank group at the present step of the main clock (one
pause a port, whose end is fixed as it begins: the model's, log 54) and ends with the writes that waited for its bank, and an expert's reference is taken or waited for; a poisoned accumulator takes no more terms. Where the wait is over, the job is
dispatched again by its former key: the model requeues the whole job (its choice, log 79). -/
def Obligations.BankEvents : Prop :=
  ∀ (s : State),
    (∀ b j p t q, s.job? s.subj.job = some j → s.bankJob? s.subj.job = some b → b.port? s.subj.port = some p →
        s.convertOldest p j.entry = (t, q) → exec .reductionBlockConvert s = .next (t.setPort b.id q))
    ∧ (∀ p x rest entry, p.blocks = x :: rest →
        let a := p.acc x.lane x.slot x.batch
        let fits := fun (y : Block) => y.lane < 8 ∧ y.slot < 64 ∧ y.batch < 4
        let events := fun (t : State) (n : Nat) => t.errorCount = s.errorCount + 1
          ∧ (p.die < 48 → (t.mcsAt p.die).poisonEvents = min ((s.mcsAt p.die).poisonEvents + n) 4095)
        (x.word.getLsbD 39 = false → a.2 = true → s.convertOldest p entry = (s, { p with blocks := rest }))
        ∧ (x.word.getLsbD 39 = false → a.2 = false → ∀ v, residueValue x.word = some v → ∃ q : Port, s.convertOldest p entry = (s, q) ∧ q.blocks = rest
            ∧ (fits x → q.acc x.lane x.slot x.batch = ((addFP32 a.1 (blockTerm v x.cw x.ca x.k4)).1, false)))
        ∧ (x.word.getLsbD 39 = false → a.2 = false → residueValue x.word = none → ∃ (t : State) (q : Port), s.convertOldest p entry = (t, q)
            ∧ q.blocks = rest ∧ events t 1 ∧ (fits x → q.acc x.lane x.slot x.batch = (a.1, true)))
        ∧ (x.word.getLsbD 39 = true →
            let same := fun (y : Block) => y.lane = x.lane ∧ y.slot = x.slot ∧ y.index = x.index ∧ y.word.getLsbD 39 = true
            let group := x :: (rest.take 3).filter fun y => decide (same y)
            let fresh := group.filter fun y => !(p.acc y.lane y.slot y.batch).2
            ∃ (t : State) (q : Port), s.convertOldest p entry = (t, q)
              ∧ q.blocks = ((rest.take 3).filter fun y => !(decide (same y))) ++ rest.drop 3
              ∧ (∀ y ∈ group, fits y → q.acc y.lane y.slot y.batch = ((p.acc y.lane y.slot y.batch).1, true))
              ∧ (fresh = [] → t = s) ∧ (fresh ≠ [] → events t fresh.length)))
    ∧ (∀ v : Int, -8388480 ≤ v → v ≤ 8388479 → residueValue (residueWord v false) = some v ∧ ∀ bad, residues v bad (residueWord v bad))
    ∧ (∀ b j, s.job? s.subj.job = some j → s.bankJob? s.subj.job = some b → b.finished = true → j.phase = .running →
        (keptBack s ∨ s.beat < j.holdOff → s.job? b.id = some j → exec .bankJobEnd s = .next s)
        ∧ (¬ keptBack s → j.holdOff ≤ s.beat → s.job? b.id = some j → s.unserved = false →
        let ends := fun (t u : State) => t.job? j.id = some { j with phase := .done } ∧ t.jobs.map (·.id) = u.jobs.map (·.id)
          ∧ (∀ c, t.bankJob? b.id = some c → c.ended = true ∧ c.refs = []) ∧ ∀ d, d < 48 → (t.mcsAt d).holder ≠ some b.id
        ((∀ p ∈ b.ports, p.kvwRaised = false) →
          ∃ t : State, exec .bankJobEnd s = .next t ∧ ends t s ∧ t.wq = [] ∧ ∀ a, t.readByte a = s.readByte a)
        ∧ ∀ p, b.ports.find? (·.kvwRaised) = some p → ∀ u r,
            reach s.drainWrites (bankAccess j.ctx p.die .atomic) [{ va := (b.tab.addr.toNat + 4) % 2 ^ 64, len := 4 }] = (u, r) →
            (∀ f, r = .error f → u.unserved = false → exec .bankJobEnd s = .next (u.suspendJob j.id f.1 f.2 4))
            ∧ (∀ f, r = .error f → u.unserved = true → exec .bankJobEnd s = .next (s.modJob j.id fun j => { j with holdOff := u.served }))
            ∧ (∀ pas, r = .ok [pas] → (u.ordinaryRead pas).unserved = true →
                exec .bankJobEnd s = .next (s.modJob j.id fun j => { j with holdOff := (u.ordinaryRead pas).served }))
            ∧ ∀ pas, r = .ok [pas] → (u.ordinaryRead pas).unserved = false → pas.length = 4 → pas.Nodup → (∀ a ∈ pas, regionOf a = .package ∧ u.heldAt a = false) →
                ∀ n, (∀ x ∈ b.ports, x.kvwRaised = true → x.seq ≤ n) → (∃ x ∈ b.ports, x.kvwRaised = true ∧ x.seq = n) → n < 2 ^ 32 →
                ∃ t : State, exec .bankJobEnd s = .next t ∧ ends t u
                  ∧ fromBytes (pas.map t.readByte) = max (fromBytes (pas.map u.readByte)) n
                  ∧ ∀ a, a ∉ pas → t.readByte a = u.readByte a))
    ∧ (∃ t : State, exec .ordinaryAccess s = .next t ∧ t = { s with mem := t.mem, wq := t.wq } ∧ (∀ a, t.readByte a = s.readByte a)
        ∧ (s.wq = [] → t = s)
        ∧ ∀ c, s.wq.getLast? = some c → (s.beat < s.refreshEnd c.1 → t = s)
            ∧ (s.refreshEnd c.1 ≤ s.beat → t.wq.length < s.wq.length ∧ ∀ a, (∀ x ∈ s.wq, x.1 = a → a / 64 ≠ c.1 / 64) → t.arrayByte a = s.arrayByte a))
    ∧ (∀ k cycles,
        let percent := [650, 585, 520, 455, 325].getD s.gov.clockStep 650
        (384 ≤ s.subj.bgu ∨ 4 ≤ k ∨ (∃ x ∈ s.pauses, x.1 / 4 = s.subj.bgu / 4) → exec (.perBankRefresh k cycles) s = .next s)
        ∧ (s.subj.bgu < 384 → k < 4 → (∀ x ∈ s.pauses, x.1 / 4 ≠ s.subj.bgu / 4) →
        ∃ t : State, exec (.perBankRefresh k cycles) s = .next t
          ∧ SMap.get (0, 0) t.pauses s.subj.bgu = (k, s.beat + (percent * cycles + 99) / 100)
          ∧ (t.mcsAt (s.subj.bgu / 8)).pauseCycles = ((s.mcsAt (s.subj.bgu / 8)).pauseCycles + cycles) % 2 ^ 32
          ∧ t = { s with pauses := t.pauses, mcs := t.mcs } ∧ ∀ b, b ≠ s.subj.bgu → SMap.get (0, 0) t.pauses b = SMap.get (0, 0) s.pauses b))
    ∧ ((SMap.get (0, 0) s.pauses s.subj.bgu).2 ≤ s.beat →
        ∃ t : State, exec .refreshEnd s = .next t ∧ SMap.get (0, 0) t.pauses s.subj.bgu = (0, 0)
          ∧ t = { s with pauses := t.pauses, mem := t.mem, wq := t.wq } ∧ (∀ a, t.readByte a = s.readByte a)
          ∧ let held := fun (a : Nat) => regionOf a = .package ∧ (placeOf a).bgu = s.subj.bgu ∧ (placeOf a).bank = (SMap.get (0, 0) s.pauses s.subj.bgu).1
            t.wq = s.wq.filter (fun c => !(decide (held c.1))) ∧ ∀ a, held a → t.arrayByte a = s.readByte a)
    ∧ (s.beat < (SMap.get (0, 0) s.pauses s.subj.bgu).2 → exec .refreshEnd s = .next s)
    -- a wait at RESW is over
    ∧ (∀ b ∈ s.bankJobs, ∀ i, (∃ q ∈ b.ports, ∃ since, q.onExpert = some (i, since)) →
        let t := s.takeRef i b.id
        (t.expert i).refs = (s.expert i).refs + 1 ∧ (∀ z ∈ (t.expert i).waiting, z.1 ≠ b.id)
        ∧ t.jobs = s.jobs.map (fun z => if z.id = b.id ∧ z.phase = .running then { z with phase := .queued } else z)
        ∧ ∀ d, d < 48 → (t.mcsAt d).holder ≠ some b.id)
    ∧ ∀ (w : BankF) b j p, portTurnOf s b j p → s.unserved = false →
        let x := w.step.toNat
        let e := s.expert x
        (s.accepts 1 = false → exec (.resw w) s = .next (s.stopBank b.id p.die 0x01))
        ∧ (s.accepts 1 = true → checkResw w = false → exec (.resw w) s = .next (s.stopBank b.id p.die 0x02))
        ∧ (s.accepts 1 = true → checkResw w = true →
            (e.state = 0 ∨ e.owner ≠ j.ctx → exec (.resw w) s = .next (s.stopBank b.id p.die 0x06))
            ∧ (e.state = 3 → e.owner = j.ctx → x ∈ b.refs → ∃ y, portBecomes s p p y ∧ exec (.resw w) s = .next (y.settle b.id))
            ∧ (e.state = 3 → e.owner = j.ctx → x ∉ b.refs → e.refs < 65535 →
                ∃ t y, portBecomes t p p y ∧ exec (.resw w) s = .next (y.settle b.id) ∧ (t.expert x).refs = e.refs + 1)
            ∧ (e.owner = j.ctx → e.state = 1 ∨ e.state = 2 ∨ (e.state = 3 ∧ x ∉ b.refs ∧ 65535 ≤ e.refs) →
                ∃ t, exec (.resw w) s = .next t ∧ (b.id, p.die) ∈ (t.expert x).waiting ∧ (t.expert x).refs = e.refs
                  ∧ (t.expert x).state = (if e.state = 1 then 2 else e.state) ∧ (p.die < 48 → (t.mcsAt p.die).holder = none)
                  ∧ ∀ c, t.bankJob? b.id = some c → ∃ q ∈ c.ports, q = { p with onExpert := some (x, s.beat), word := none }))
/-! ### The device's own events: jobs and arrays, starts, requests from outside, entries and the governor (R14-R37, R38-R78, R185-R209) -/

namespace Sys2Proof.Claims
open Sys2Proof.Machine

/-- The event has this next state. -/
def comesTo (i : Instr) (s t : State) : Prop := exec i s = .next t

/-- A request of the link is refused (R15): the TDI is LOCKED or in RUN, and the requester's stream is none that the world has bound to it. -/
def shutOut (s : State) (src : Requester) : Prop :=
  (s.link.tdi = .locked ∨ s.link.tdi = .run) ∧ ¬ ∃ n, src.stream = some n ∧ n ∈ s.env.ideBound

/-- The log entry of a refused request (R366). -/
def refusalLogged (s : State) : State := s.logError 0x26 8 0 0

/-- The boot state after a step that is passed: the next one, begun now. -/
def stepTo (b : Boot) (n beat : Nat) : Boot := { b with state := n, stepAt := beat }

/-- The boot state after a start has failed with a code and a detail, in 0xF0, or in 0xF1 at the third failure in a row (R30). -/
def failedWith (b : Boot) (code detail : Nat) : Boot :=
  { b with lastFail := code, detail := detail, failCount := min (b.failCount + 1) 15, state := if 2 ≤ b.failCount then 0xF1 else 0xF0 }

/-- The device as a start leaves it (R26, R27): nothing runs, nothing is queued, nothing is mapped and no session stands; the world
outside and the number of beats stay. -/
def startedAnew (s t : State) : Prop :=
  t.beat = s.beat ∧ t.env = s.env ∧ t.cores = State.reset.cores ∧ t.queues = [] ∧ t.ctxs = State.reset.ctxs ∧ t.sems = State.reset.sems
  ∧ t.pens = State.reset.pens ∧ t.yards = State.reset.yards ∧ t.mcs = State.reset.mcs ∧ t.entries = [] ∧ t.jobs = [] ∧ t.bankJobs = []
  ∧ t.ready = [] ∧ t.launches = [] ∧ t.experts = [] ∧ t.prefixes = [] ∧ t.errors = [] ∧ t.wq = [] ∧ t.pauses = []
  ∧ t.link.session = false ∧ t.link.tdi = .unlocked ∧ (∀ i : Fin 16, t.link.keys[i] = none)

/-- A register after a write of a part of it (R17). -/
def written (p : RegPart) (old v : Nat) : Nat :=
  match p with
  | .whole => v
  | .low => v % 2 ^ 32 + 2 ^ 32 * (old / 2 ^ 32)
  | .high => old % 2 ^ 32 + 2 ^ 32 * (v % 2 ^ 32)

/-- The sum of the products of a group, in units of 2^lo (R192). -/
def dotUnits (lo : Int) : List (Machine.Num × Machine.Num) → Int
  | (.fin a m e, .fin b n k) :: xs => (if a = b then 1 else -1) * (inUnits (m * n) (e + k) lo : Int) + dotUnits lo xs
  | _ :: xs => dotUnits lo xs
  | [] => 0

/-- Both operands are finite, and the exponent of their product is no less than `lo`. -/
def finiteFrom (lo : Int) (x : Machine.Num × Machine.Num) : Prop := ∃ a m e b n k, x = (.fin a m e, .fin b n k) ∧ lo ≤ e + k

/-- The product is an infinity of a sign. -/
def infiniteOf (g : Bool) (x : Machine.Num × Machine.Num) : Prop :=
  (∃ a b, x = (.inf a, .inf b) ∧ g = (a != b)) ∨ (∃ a b m e, m ≠ 0 ∧ x = (.inf a, .fin b m e) ∧ g = (a != b))
  ∨ ∃ a b m e, m ≠ 0 ∧ x = (.fin a m e, .inf b) ∧ g = (a != b)

/-- The product of an infinity and a zero. -/
def infTimesZero (x : Machine.Num × Machine.Num) : Prop :=
  (∃ a b e, x = (.inf a, .fin b 0 e)) ∨ ∃ a b e, x = (.fin a 0 e, .inf b)

/-- The scalar format of a plane or row format (R188, Table 12.4). -/
def elementFormat (ty : Nat) : FloatFmt := if ty = 9 then bf16 else if ty = 10 then fp16 else if ty = 11 then e4m3 else if ty = 12 then e5m2 else e2m1

/-- Element `q` of the bytes of a column or row; E2M1 elements lie two in a byte, the first in the low half (R187, R215). -/
def element (ty : Nat) (bs : List Byte) (q : Nat) : Machine.Num :=
  (elementFormat ty).decode
    (if ty = 13 then (bs.getD (q / 2) 0).toNat / 16 ^ (q % 2) % 16
     else if ty ≤ 10 then (bs.getD (2 * q) 0).toNat + 256 * (bs.getD (2 * q + 1) 0).toNat
     else (bs.getD q 0).toNat)

/-- The position in dense K of stored element `q` of a sparse column: the groups of four have four bits of metadata each, i in the low two
and j above (R201). -/
def keptPosition (col : PlaneCol) (q : Nat) : Nat :=
  let code := (col.metadata.getD (q / 4) 0).toNat / 16 ^ (q / 2 % 2) % 16
  4 * (q / 2) + if q % 2 = 0 then code % 4 else code / 4

/-- The groups of a column and a row: each term is that of its products and its two scale codes, in ascending K (R188, R192, R201). -/
def termsOf (p : Plane) (sty : Nat) (row scales : List Byte) (col : PlaneCol) (all : List (W32 × Sticky)) : Prop :=
  let bits := if p.fmt = 13 then 4 else if p.fmt ≤ 10 then 16 else 8
  let size := if p.fmt ≤ 10 then 16 else 32
  let dense := if p.sparse then 2 * size else size
  all.length * (size * bits) = 3072
  ∧ ∀ n, n < all.length → all[n]? = some (groupTerm (col.scales.getD (n * size * bits / 1024) 127).toNat (scales.getD (n * dense * bits / 1024) 127).toNat
      ((List.range size).map fun i => (element p.fmt col.bytes (n * size + i),
        element sty row (if p.sparse then keptPosition col (n * size + i) else n * size + i))))

/-- A record of an entry that waits to begin, and one that runs. -/
def waitsToBegin (s : State) (e : Entry) (r : OpRec) : Prop :=
  s.entry? s.subj.entry = some e ∧ e.op = some (r, .shadow) ∧ e.status = none

def recordRuns (s : State) (e : Entry) (r : OpRec) : Prop :=
  s.entry? s.subj.entry = some e ∧ e.op = some (r, .running) ∧ e.status = none

/-- The entry of the event, changed. -/
def onEntry (s : State) (id : Nat) (f : Entry → Entry) : List Entry := s.entries.map fun e => if e.id = id then f e else e

end Sys2Proof.Claims

open Sys2Proof Sys2Proof.Machine Sys2Proof.Claims in
/-- R53, R63, R94, R95, R143-R147, R151, R185, R188-R195, R198, R201, R204, R206, R207, R308, R318, R320, R321: dispatch and end of engine
jobs; the exact sums that a streamed row adds, with their scales and their one rounding, and when they land; the plane that MLDS loads;
rows changed and drained; the due rows of a run; a stamped start; a row of a copy, with its CRC; where package memory lies, and a head-row
that KVHO hands over; and the events of the expert directory. A landing adds each of its terms to its own accumulator and touches no other;
a row is drained on a beat by which every earlier landing on it has come. That KVHO charges three or four units a head-row is log 31, how
arrays share their beats log 33, that a copy goes on in stretches of its destination's 4 KiB blocks log 62, what a strict miss leaves of the
landings in flight log 69, and that a turn of a job waits for a refresh of a bank that it reads log 54. -/
def Obligations.ArrayEvents : Prop :=
  ∀ (s : State),
    let y := s.subj.yard
    let a := s.yards[y].arr
    (∀ j, s.job? s.subj.job = some j →
      (∀ code mpc, s.cancelled j = some (code, mpc) → j.pending = true → comesTo .engineJobDispatch s
        { s with jobs := s.jobs.map fun x => if x.id = j.id then { x with phase := .failed code, mpc := mpc, va := 0, path := 0 } else x })
      ∧ (s.cancelled j = none → s.copyGoesOn j = true → comesTo .engineJobDispatch s ((s.runJob false j).orJob s j.id))
      ∧ (∀ t : State, (t.unserved = false → t.orJob s j.id = t) ∧ (t.unserved = true → t.orJob s j.id =
          { s with jobs := s.jobs.map fun x => if x.id = j.id then { x with holdOff := t.served } else x }))
      ∧ (s.cancelled j = none → s.copyGoesOn j = false → ∀ z, s.clearDue j = some z → comesTo .engineJobDispatch s (s.clearArray z j)
          ∧ (s.clearArray z j).yards[z].arr.live = [] ∧ (s.clearArray z j).yards[z].arr.clearUntil = s.beat + 64
          ∧ ∀ r k, (s.clearArray z j).yards[z].arr.word r k = 0)
      ∧ (s.cancelled j = none → s.copyGoesOn j = false → s.clearDue j = none → s.nextOnUnit j = true →
          let u := (s.yieldUnit j.unit).beginJob j
          ∃ k, u.job? j.id = some k ∧ k.phase = .running ∧ k.begun = true ∧ comesTo .engineJobDispatch s ((u.runJob (!j.begun) k).orJob s j.id)
          ∧ (j.unit ≠ .frontEnd → ∀ x ∈ s.jobs, x.id ≠ j.id → x.unit = j.unit → x.copying = true → { x with phase := .queued } ∈ u.jobs))
      ∧ (s.nextOnUnit j = true → j.phase = .queued ∧ j.ready ≤ s.beat ∧ j.holdOff ≤ s.beat
          ∧ ∀ x ∈ s.jobs, x.id ≠ j.id → s.competes x j = true → s.dispatchable x = true → keyLess (s.jobKey j) (s.jobKey x) = true)
      ∧ (j.cont ≠ 0 → s.hasEnded j.entry = true → j.isOver = true → comesTo .engineJobEnd s
          ((s.cancelJobs fun x => x.id = j.id).discardRows (· = j.entry)))
      ∧ (j.cont ≠ 0 → s.hasEnded j.entry = false → j.phase = .done → comesTo .engineJobEnd s (s.endJob j))
      ∧ (j.cont ≠ 0 → s.hasEnded j.entry = false → ∀ code, j.phase = .failed code → comesTo .engineJobEnd s
          (if j.unit = .layout then ((s.logError code.toNat 5 0 j.entry).failJob j code).failEntry j.entry code else s.failJob j code)))
    ∧ (∀ j, ∀ x ∈ (s.endJob j).jobs, x.id ≠ j.id)
    -- the first landing that is due, whose row no earlier drain has still to read and no earlier landing awaits
    ∧ (∀ front x back, a.landings = front ++ x :: back →
        let free := fun (l : Landing) (before : List Landing) =>
          l.at_ ≤ s.beat ∧ s.rowUnread y l.job l.accRow = false ∧ ∀ z ∈ before, z.accRow ≠ l.accRow
        free x front → (∀ f l g, front = f ++ l :: g → ¬ free l f) →
        comesTo .matrixRowLand s ((s.modArr y fun a => a.land x s.beat).endStream y x.job))
    ∧ (∀ (b : MatArray) (x : Landing) (beat : Nat),
        let c := b.land x beat
        c.landings = b.landings.erase x ∧ (∀ r k, c.word r k = (b.addLanding x).word r k) ∧ c.live = b.live
        ∧ (x.lungeRow = none → c.lunge = b.lunge)
        ∧ ∀ r l, x.lungeRow = some r → b.lunge = some l →
            (l.job ≠ x.job → c.lunge = b.lunge)
            ∧ (l.job = x.job →
              let rows := l.desc.group * l.desc.ksteps
              let whole := (r / rows + 1) * rows ≤ l.next ∧ ∀ z ∈ c.landings, z.job = l.job → ∀ q, z.lungeRow = some q → q / rows ≠ r / rows
              let demand : Demand := { kind := 2, index := r / rows, due := beat }
              (whole → c.lunge = some { l with landed := l.landed + 1, drains := l.drains ++ [r / rows], demands := l.demands ++ [demand] })
              ∧ (¬ whole → c.lunge = some { l with landed := l.landed + 1 })))
    ∧ (∀ j d, s.jobs.find? (fun x => x.unit == .array y.val && x.phase == .running && x.unread.isSome) = some j → j.kind = .mdrn d →
        let before := s.rowBefore y j.id (d.accBase + j.mpc) (s.unchangedBy y)
        ((∃ l ∈ a.landings, l.job < j.id ∧ l.accRow = d.accBase + j.mpc) ∨ before = true → s.drainBeat y = s)
        ∧ ((∀ l ∈ a.landings, l.job < j.id → l.accRow ≠ d.accBase + j.mpc) → before = false → s.drainBeat y = s.drainRow j y d)
        ∧ ∀ bs f u pas, drainBytes d.format ((List.range 64).map (a.word (d.accBase + j.mpc))) = (bs, f) →
            reach s (arrayAccess j.ctx y pathMatrix .write) [{ va := d.at_ j.mpc, len := bs.length, unit := 4 }] = (u, .ok pas) →
            let t := s.drainRow j y d
            t.mem = u.mem ∧ t.wq = u.wq
            ∧ t.yards[y].arr.drained = u.yards[y].arr.drained ++ [{ at_ := u.beat + 8, job := j.id, cont := j.cont, entry := j.entry,
                                                                                dst := pas.flatten, bytes := bs }])
    ∧ ((∀ r ∈ a.drained, s.beat < r.at_) → s.landDrained y = s)
    ∧ (∀ (b : MatArray) (l : Landing), l.terms.length ≤ 64 →
        (∀ k ts, l.terms[k]? = some ts → (b.addLanding l).word l.accRow k = (addTerms (b.word l.accRow k) ts).1)
        ∧ (∀ r k, k < 64 → r ≠ l.accRow → (b.addLanding l).word r k = b.word r k))
    -- the terms of a row: exact sums of products, scaled and rounded once
    ∧ (∀ (sw sa : Nat) (xs : List (Machine.Num × Machine.Num)), sw ≤ 255 → sa ≤ 255 →
        let x := groupTerm sw sa xs
        (sw = 255 ∨ sa = 255 → x = (0x7FC00000, {}))
        ∧ (sw < 255 → sa < 255 →
          (∀ lo : Int, lo ≤ 0 → (∀ y ∈ xs, finiteFrom lo y) →
            (dotUnits lo xs = 0 → x = (0, {}))
            ∧ (dotUnits lo xs ≠ 0 → ∃ g m e, lo ≤ e ∧ (if g then -1 else 1) * (inUnits m e lo : Int) = dotUnits lo xs
                ∧ x = roundFP32 (.fin g m (e + (sw - 127) + (sa - 127)))))
          ∧ ((∃ y ∈ xs, y.1 = .nan ∨ y.2 = .nan) → x = (0x7FC00000, {}))
          ∧ ((∀ y ∈ xs, y.1 ≠ .nan ∧ y.2 ≠ .nan) →
            (∃ y ∈ xs, infTimesZero y) ∨ ((∃ y ∈ xs, infiniteOf false y) ∧ ∃ y ∈ xs, infiniteOf true y) →
            x.1 = 0x7FC00000 ∧ x.2.invalid = true)
          ∧ (∀ g, (∃ y ∈ xs, infiniteOf g y) → (∀ y ∈ xs, infiniteOf g y ∨ ∃ lo, finiteFrom lo y) → x = (if g then 0xFF800000 else 0x7F800000, {}))))
    ∧ (∀ (p : Plane) (sty : Nat) (row scales : List Byte) (col : PlaneCol), formatPair p.fmt sty = true → 9 ≤ p.fmt → p.fmt ≤ 13 →
        (p.sparse = true → p.fmt ≠ 13) → col.bytes.length = 384 → row.length = (if p.sparse then 768 else 384) →
        termsOf p sty row scales col (columnTerms p sty (elemsOf sty row) scales col))
    ∧ (∀ (x : W32), addTerms x [] = (x, {}) ∧ ∀ ts z, addTerms x (ts ++ [z]) =
        ((addFP32 (addTerms x ts).1 z).1, (addTerms x ts).2.or (addFP32 (addTerms x ts).1 z).2))
    -- a row that streams: its sums land 16 beats later, in order
    ∧ (∀ (b : MatArray) (j : Job) (d : MatDesc) (r at_ : Nat) (l : Option Nat) (row scales : List Byte),
        let t := b.stream j d r at_ l row scales
        let all := fun (c : PlaneCol) => columnTerms b.stationary d.format (elemsOf d.format row) scales c
        let sets := fun (f : Sticky → Bool) => ∃ c ∈ b.stationary.cols, ∃ z ∈ all c, f z.2 = true
        t = { b with landings := b.landings ++ [{ job := j.id, cont := j.cont, accRow := r, lungeRow := l, at_ := at_ + 16,
                                                  terms := b.stationary.cols.map fun c => (all c).map (·.1) }],
                     live := t.live, liveSince := t.liveSince, invalid := t.invalid, overflow := t.overflow, underflow := t.underflow, inexact := t.inexact }
        ∧ (∀ k, t.isLive k = true ↔ k = r ∨ b.isLive k = true)
        ∧ (t.invalid = true ↔ b.invalid = true ∨ sets (·.invalid)) ∧ (t.overflow = true ↔ b.overflow = true ∨ sets (·.overflow))
        ∧ (t.underflow = true ↔ b.underflow = true ∨ sets (·.underflow)) ∧ (t.inexact = true ↔ b.inexact = true ∨ sets (·.inexact)))
    ∧ (∀ (j : Job) (d : MatDesc) (stamp : Option Nat),
        let n := if d.scaled = false then 0 else if d.sparse then 6 else 3
        let short := s.scalesLeft y < n
        let left := d.last = true ∧ j.mpc + 1 = d.rows ∧ n < s.scalesLeft y
        (short ∨ left → s.streamRow j y d stamp = s.matFault j j.mpc 0x11)
        ∧ (¬ short → ¬ left → s.operandsHere j y d = false → s.streamRow j y d stamp = if stamp.isSome then s.matFault j j.mpc 0x10 else s)
        ∧ (d.qsrc = false → d.scaled = false → ¬ left → ∀ u pas,
            reach s (arrayAccess j.ctx y pathMatrix .read)
              [{ va := ((d.addr.toNat + j.mpc * d.stride) % 2 ^ 64).toNat, len := if d.sparse then 768 else 384, unit := 4 }] = (u, .ok pas) →
            let v := u.ordinaryRead pas.flatten
            s.streamRow j y d stamp = (v.setArr y ((v.arr y).stream j d (d.accBase + j.mpc) s.beat none (pas.flatten.map u.readByte) [])).modJob j.id
              fun k => { k with mpc := j.mpc + 1 }))
    -- rows changed in place, and drained
    ∧ (∀ (b : MatArray) (first n r k : Nat), k < 64 →
        (b.zeroRows first n).word r k = (if first ≤ r ∧ r < first + n then 0 else b.word r k)
        ∧ (∀ exp, (b.scaleRows exp first n).word r k = (if first ≤ r ∧ r < first + n then (scaleExp2 (b.word r k) exp).1 else b.word r k)
            ∧ (b.scaleRows exp first n).live = b.live)
        ∧ ((∀ l ∈ b.landings, l.accRow ≠ r) → ((b.zeroRows first n).isLive r = true ↔ b.isLive r = true ∧ ¬(first ≤ r ∧ r < first + n))))
    ∧ (∀ (xs : List W32), xs.length = 64 → (drainBytes 8 xs).1 = xs.flatMap (fun x => toBytes 4 x.toNat)
        ∧ ∀ ty, ty = 3 ∨ ty = 14 ∨ 9 ≤ ty ∧ ty ≤ 13 →
          let w := if ty = 3 then 32 else if ty = 13 then 4 else if ty ≤ 10 then 16 else 8
          let element := fun (x : W32) => if ty = 3 then encodeInt 32 (fp32.decode x.toNat) else if ty = 14 then encodeInt 8 (fp32.decode x.toNat)
            else (elementFormat ty).encode (fp32.decode x.toNat)
          (drainBytes ty xs).1.length = 8 * w
          ∧ ∀ i x, xs[i]? = some x → fromBytes (drainBytes ty xs).1 / 2 ^ (w * i) % 2 ^ w = (element x).1)
    ∧ (∀ (b : MatArray), b.swap = { b with stationary := { b.shadow with valid := true }, shadow := { b.stationary with valid := false } })
    -- a copy: the rows that a template names, and one row, with and without a CRC list
    ∧ (∀ (x : CopyTmpl) (ctx entry : Nat) (yard : Fin 8) (index r : Nat),
        (x.plan ctx entry yard index).rows.length = x.rows
        ∧ (r < x.rows → (x.plan ctx entry yard index).rows[r]? = some
            (((x.src.toNat + index * x.srcStep + r * x.srcStride) % 2 ^ 64).toNat, ((x.dst.toNat + index * x.dstStep + r * x.dstStride) % 2 ^ 64).toNat)))
    ∧ (∀ (p : CopyPlan) (j : Job) (src dst n : Nat) (t u : State) (from_ dest : List Nat), j.run = some { pair := 0 } → p.rows = [(src, dst)] → p.rowBytes = n →
        p.srcBus = false → p.dstBus = false → 0 < n → dst < 2 ^ 64 → dst % 4096 + n ≤ 4096 → p.reach s .read src n = (t, .ok from_) → from_.length = n →
        (∀ a ∈ from_, t.eccBad [a] = false) →
        let data := from_.map t.readByte
        let read := t.ordinaryRead from_
        p.badChunk read 0 [(src, dst)] = none →
        let ends := fun (v : State) => p.reach v .write dst n = (u, .ok dest) → ∃ c : CopyRun, c.row = 1 ∧ p.goOn s j =
          ((((u.logHeld dest 2 p.yard.val p.entry).putBytes dest data).chargeMeter p.entry .copy ((n + 63) / 64)).copyAt j.id c).modJob j.id
            fun j => { j with phase := .done }
        (p.crcList = none → ends read)
        ∧ ∀ list v crc, p.crcList = some list → p.reach read .read (list % 2 ^ 64) 4 = (v, .ok crc) →
            let listed := v.ordinaryRead crc
            let stops := fun (code : BitVec 8) => ∃ c : CopyRun, c.row = 0 ∧ c.out = [] ∧ p.goOn s j = (listed.copyAt j.id c).copyStops j (.fail code)
            (v.eccBad crc = true → stops 0x21)
            ∧ (v.eccBad crc = false → crc32c data = fromBytes (crc.map v.readByte) → ends listed)
            ∧ (v.eccBad crc = false → crc32c data ≠ fromBytes (crc.map v.readByte) → stops 0x24))
    -- where package memory lies, where a placement puts its rows, and a head-row handed over to its block
    ∧ (∀ l, let p := placeOf l
        let side := p.channel % 2
        p.die < 48 ∧ p.channel / 2 = p.die ∧ p.group < 4 ∧ p.bgu = 8 * p.die + 4 * side + p.group ∧ p.bank < 4 ∧ p.col < 25 ∧ p.byte < 64
        ∧ l = 16000 * (384 * (4 * (p.row / 10) + p.bank) + 48 * (2 * p.group + side) + p.die) + 1600 * (p.row % 10) + 64 * p.col + p.byte)
    ∧ (∀ f size r, 1 ≤ size → size ≤ 16000 →
        let per := 384 * (16000 / size)
        placedAt f size r = (f + 384 * (r / per) + r % per % 384) * 16000 + r % per / 384 * size
        ∧ (placedAt f size r + size - 1) / 16000 = placedAt f size r / 16000)
    ∧ (∀ (j : Job) (d : KvhoDesc) (tab : BlockTab) (i kind set_ : Nat) (u v : State) (pas : List (List Nat)) (p : KvPlace), kind < 2 → i < d.ntok →
        j.mpc = 2 * i + kind → tab.set? ((d.t0 + i) / 16) = some set_ →
        let a : Access := { ctx := j.ctx, path := pathBte, need := .read, cache := .yard j.yardOf }
        reach s a [{ va := ((if kind = 0 then d.ksrc else d.vsrc).toNat + 256 * i) % 2 ^ 64, len := 256, unit := 4 }] = (u, .ok pas) →
        u.eccBad pas.flatten = false →
        placeBlock (u.ordinaryRead pas.flatten) { a with need := .write } tab
          (set_ * (2 * tab.layers * tab.heads) + 2 * (d.layer * tab.heads + d.head) + kind) = (v, .ok p) →
        p.pas.Nodup → p.pas.length = 2112 → (∀ x ∈ p.pas, v.heldAt x = false) →
        let slot := (d.t0 + i) % 16
        let at_ := fun (k : Nat) => p.pas.getD k 0
        let row := pas.flatten.map v.readByte
        ∀ code q f, quantiseBlock false ((List.range 128).map fun k => fp16.decode ((row.getD (2 * k) 0).toNat + 256 * (row.getD (2 * k + 1) 0).toNat)) = (code, q, f) →
        ∃ w : State, s.runKvho j d tab = w.modJob j.id (fun j => { j with mpc := j.mpc + 1, run := some { pair := 0 } })
          ∧ (∀ k, k < 128 → w.readByte (at_ (128 * slot + k)) = BitVec.ofNat 8 (q.getD k 0)) ∧ w.readByte (at_ (2048 + slot)) = BitVec.ofNat 8 code
          ∧ (i = 0 ∨ slot = 0 → ∀ k, 2064 ≤ k → k < 2112 → w.readByte (at_ k) = 0)
          ∧ (∀ x, (∀ k, k < 2112 → x = at_ k → ¬(128 * slot ≤ k ∧ k < 128 * slot + 128) ∧ k ≠ 2048 + slot ∧ (i = 0 ∨ slot = 0 → k < 2064)) →
              w.readByte x = v.readByte x)
          ∧ ∃ z : State, z = v.chargeMeter j.entry .copy (if i = 0 ∨ slot = 0 then 4 else 3) ∧ w = { z with mem := w.mem, wq := w.wq })
    -- the plane that an MLDS loads
    ∧ (∀ (d : MatDesc) (cols metas : List (List Byte)) (codes : List Byte), cols.length = 64 →
        let scaled := d.scaled && !d.k4
        let p := d.plane (cols ++ (if scaled then [codes] else []) ++ metas)
        p.fmt = d.format ∧ p.sparse = d.sparse ∧ p.cols.length = 64
        ∧ ∀ c x, cols[c]? = some x → ∃ z, p.cols[c]? = some z
          ∧ (d.k4 = false → z.bytes = x ∧ z.metadata = metas.getD c []
              ∧ z.scales = (if d.scaled then (codes.drop (3 * c)).take 3 else [127, 127, 127]))
          ∧ (d.k4 = true → x.length = 387 → z.bytes.length = 384 ∧ z.scales.length = 3
              ∧ ∀ b, b < 3 → z.scales[b]? = x[129 * b + 128]? ∧ ∀ i, i < 128 → z.bytes[128 * b + i]? = x[129 * b + i]?))
    ∧ (∀ j z, s.job? s.subj.job = some j → s.stampDue j = some (z, false) → comesTo .mstrmStampStart s ((s.beginJob j).matFault j 0 0x10))
    ∧ (∀ j z, s.job? s.subj.job = some j → s.stampDue j = some (z, true) →
        j.stampOn = some (z, s.beat) ∧ s.swapComes j = false ∧ s.stampKept j = false ∧ s.arrayReady z j = true ∧ s.firstOnUnit j = true
        ∧ ∀ k, ((s.enterArray z j).beginJob j).job? j.id = some k →
          (∀ d b, k.kind = .mstrm d b → comesTo .mstrmStampStart s (((s.enterArray z j).beginJob j).runMstrm k z d))
          ∧ ∀ d b look, k.kind = .mlunge d b look → comesTo .mstrmStampStart s (((s.enterArray z j).beginJob j).runMlunge k z d look))
    ∧ (∀ j z b, j.stampOn = some (z, b) → (s.beat < b → s.stampDue j = none) ∧ (b < s.beat → ∀ w, s.stampDue j ≠ some (w, true)))
    ∧ (∀ l, a.lunge = some l → s.lungeRuns l = true → l.failed = false → l.demandRow < l.limit → l.due l.demandRow ≤ s.beat + l.look →
        (l.limit ≤ l.next ∨ s.beat < l.due l.next) → comesTo .lungeOperandDemand s
          (s.modArr y fun a => { a with lunge := some l.raiseNext, withdrawn := a.withdrawn.filter (· ≠ (l.entry, l.demandRow)) }))
    ∧ (∀ l j, a.lunge = some l → s.job? l.job = some j → j.phase = .running → l.failed = false → l.next < l.limit → l.due l.next ≤ s.beat →
        (s.rowOnTime y l l.next = true → ∀ x, l.answers.find? (fun z => z.row = l.next) = some x → comesTo .lungeRowDue s (s.streamDue y l j x.addr))
        ∧ (s.rowOnTime y l l.next = false → comesTo .lungeRowDue s (s.missBeat y l))
        ∧ (l.desc.strict = false → (s.missBeat y l).yards[y].arr =
            { a with lunge := some { l with shift := l.shift + l.desc.period }, misses := (a.misses + 1) % 2 ^ 32, missBeat := some s.beat })
        ∧ (l.desc.strict = true → ∃ m, (s.missBeat y l).yards[y].arr.lunge = some m ∧ m.failed = true ∧ m.demands = m.demands.filter (·.kind = demandDrain)
            ∧ ∀ x ∈ (s.missBeat y l).yards[y].arr.landings, x.job ≠ l.job))
    ∧ (∀ x, s.fetchClear x = true ↔ (s.expert x).state = 2 ∧ (s.expert x).suspended = false ∧ (s.expert x).holdOff ≤ s.beat
        ∧ ∀ z ∈ s.experts, z.1 ≠ x → z.2.overlaps (s.expert x) = true → z.2.refs = 0 ∧ (z.2.state = 2 → (s.expert x).order < z.2.order))
    ∧ (s.fetchClear s.subj.expert = true → ∀ u e, u = s.evictOver s.subj.expert → u.expert s.subj.expert = e →
        (e.body = none → comesTo .expertFetchComplete s (u.failFetch s.subj.expert 0x41))
        ∧ ∀ r p, e.body = some r → placeOn u { ctx := e.owner, entry := e.payer.getD 0, work := e.order } r
              { item := e.row, counted := e.counted, out := e.out, first := e.first } = p →
            let t := p.s.setExpert s.subj.expert { p.s.expert s.subj.expert with row := p.at_.item, counted := p.at_.counted, out := p.at_.out,
                                                                                 first := p.at_.first }
            let goes := fun (v : State) => comesTo .expertFetchComplete s (v.orFetch u s.subj.expert)
            (p.how = .boundary → goes t)
            ∧ (p.how = .done → goes (t.residentNow s.subj.expert))
            ∧ (∀ code va, p.how = .stopped (.fail code va) → goes (t.failFetch s.subj.expert code))
            ∧ ∀ code va, p.how = .stopped (.suspend code va) → goes
                (((t.dropSidecars e.order).setExpert s.subj.expert { t.expert s.subj.expert with suspended := true }).reportEfault e.owner code va
                  pathLayout 5 0 (e.payer.getD 0)))
    ∧ (∀ b p, s.bankJob? s.subj.job = some b → b.ports.find? (s.expertLate b) = some p → comesTo .expertTimeout s (s.stopBank b.id p.die 0x22))

open Sys2Proof Sys2Proof.Machine Sys2Proof.Claims in
/-- R25-R34, R36: what begins a start, how its steps follow one another and how each of them fails, how an image is taken and measured, how
features are negotiated, and the mailbox. Where the manual leaves a point of these open, the model's choice stands (logs 9, 10, 15, 18, 47,
48, 84, 86 and 87). -/
def Obligations.StartEvents : Prop :=
  ∀ (s : State),
    let b := s.boot
    let fails := fun (i : Instr) (code detail : Nat) => comesTo i s { s with boot := failedWith b code detail }
    let passes := fun (i : Instr) (n : Nat) (t : State) => comesTo i s { t with boot := stepTo t.boot n t.beat }
    let fresh := fun (i : Instr) (warm : Bool) => ∃ t : State, comesTo i s t ∧ startedAnew s t ∧ t.boot.state = 1 ∧ t.boot.warm = warm
      ∧ t.gov.stopped = false ∧ t.boot.digest = none ∧ t.boot.committed = false ∧ t.boot.commit = false ∧ (∀ i : Fin 4, t.boot.drvFeat[i] = 0) ∧ (warm = false → t.mem = [])
    let recovers := fun (code detail : Nat) => { s with boot := { b with lastFail := code, detail := detail, state := 0xE0, image := none } }
    let heard := ¬ shutOut s s.subj.src
    (shutOut s s.subj.src → ∀ i, (∃ key, i = .bootCtlColdStart key ∨ i = .bootCtlWarmStart key) ∨ (∃ v, i = .featCommit v) ∨ i = .loadImage ∨ i = .resync
        ∨ (∃ cmd, cmd ≠ 1 ∧ cmd ≠ 2 ∧ i = .mailboxBadCommand cmd) → comesTo i s (refusalLogged s))
    ∧ (heard → fresh (.bootCtlColdStart 0x4B59) false)
    ∧ (heard → ∀ key, key ≠ 0x4B59 → comesTo (.bootCtlColdStart key) s s ∧ comesTo (.bootCtlWarmStart key) s s)
    ∧ (¬(1 ≤ b.state ∧ b.state ≤ 9) → b.failCount < 3 → s.gov.stopped = false →
        (b.memoryUp = true → s.env.refreshClean = true → fresh .functionLevelReset true ∧ (heard → fresh (.bootCtlWarmStart 0x4B59) true))
        ∧ (b.memoryUp = false ∨ s.env.refreshClean = false → fresh .functionLevelReset false ∧ (heard → fresh (.bootCtlWarmStart 0x4B59) false)))
    ∧ ((1 ≤ b.state ∧ b.state ≤ 9) ∨ 3 ≤ b.failCount → (heard → comesTo (.bootCtlWarmStart 0x4B59) s s)
        ∧ ∃ t : State, comesTo .functionLevelReset s t ∧ t.boot = b ∧ t.link.tdi = .unlocked ∧ t.link.session = false
          ∧ (∀ i : Fin 16, t.link.keys[i] = none) ∧ t = { s with link := t.link, ctxs := t.ctxs })
    ∧ fresh .powerOn false ∧ (∃ t : State, comesTo .powerOn s t ∧ t.boot.failCount = 0)
    ∧ comesTo .powerLoss s { State.reset with env := s.env, subj := s.subj, agenda := s.agenda, fresh := s.fresh }
    ∧ fresh .pcieFundamentalReset false ∧ (∃ t : State, comesTo .pcieFundamentalReset s t ∧ t.link.trained = false)
    ∧ (b.state = 1 → ∃ t : State, comesTo .bootRomSelfCheck s t ∧ t.beat = 0
        ∧ (s.env.romFails = true → t.boot.lastFail = 0x01 ∧ (t.boot.state = 0xF0 ∨ t.boot.state = 0xF1))
        ∧ (s.env.romFails = false → t.boot.state = if b.warm then 3 else 2) ∧ t.boot.drvFeat = b.drvFeat ∧ t.boot.commit = b.commit)
    ∧ (b.state = 2 → passes .readBoardLimits 3 { s with gov := { s.gov with board := boardOf s.env.eeprom } })
    ∧ (∀ bs n, b.image = some bs → b.state = 4 → n = numAt bs 8 4 →
        let m : BitVec 512 := BitVec.ofNat 512 (fromBytes (shake256 (bs.take (64 + n)) 64))
        let key := (bs.drop (64 + n)).take 64
        let fused := BitVec.ofNat 512 (fromBytes (shake256 key 64)) = Config.fusedKeyDigest
        let verified := slhVerifies key (bs.take (64 + n)) (bs.drop (128 + n)) = true
        let known := b.warm = true ∧ b.retainedDigest = some m
        let good := fused ∧ (known ∨ verified)
        let measured := fun (t : State) => { t with boot := { t.boot with digest := some m } }
        (¬ good → comesTo .measureImage s (measured (recovers 0x04 0)))
        ∧ (good → numAt bs 0x0C 4 < Config.minimumSvn → comesTo .measureImage s (measured (recovers 0x05 (numAt bs 0x0C 4))))
        ∧ (good → Config.minimumSvn ≤ numAt bs 0x0C 4 →
            passes .measureImage (if b.warm then 6 else 5) { s with boot := { b with digest := some m, retainedDigest := some m, image := none } }))
    ∧ (b.state = 5 → (∀ c, s.env.trainFails = some c → fails .trainChannels 0x06 c)
        ∧ (s.env.trainFails = none → passes .trainChannels 6 { s with boot := { b with memoryUp := true } }))
    ∧ (b.state = 6 → (∀ n r, s.env.selfTestFails = some (n, r) → fails .bguSelfTest (if r then 0x08 else 0x07) n)
        ∧ (s.env.selfTestFails = none → passes .bguSelfTest 7 s))
    ∧ (b.state = 7 → (∀ n, s.env.loftFails = some n → fails .clearLoft 0x09 n)
        ∧ (s.env.loftFails = none → ∃ t : State, passes .clearLoft 8 t ∧ t = { s with mem := t.mem }
            ∧ (∀ a, Config.loftBase ≤ a → a < Config.loftBase + 0x8000000 → Memory.read t.mem a = 0)
            ∧ ∀ a, a < Config.loftBase → Memory.read t.mem a = Memory.read s.mem a))
    ∧ (b.state = 8 → (s.env.calibrationFails = true → fails .calibrateLoadModel 0x0A 0)
        ∧ (s.env.calibrationFails = false → passes .calibrateLoadModel 9 { s with gov := { s.gov with calibration := Config.calibration } }))
    ∧ (s.stepLate = true → fails .stepTimeout 0x0B b.state)
    ∧ (b.state = 9 → ∀ i, (i = .featureNegotiation ∧ b.commit = true) ∨ (i = .featCommit 1 ∧ b.committed = false ∧ heard) →
        ∃ t : State, comesTo i s t ∧ t.boot.state = 0x0A ∧ t.boot.committed = true ∧ t.boot.failCount = 0
          ∧ ∀ k : Fin 4, t.boot.accFeat[k] = b.drvFeat[k] &&& (if k = 0 then Config.devFeat0 else 0))
    ∧ (heard → b.committed = false → 1 ≤ b.state → b.state ≤ 8 → comesTo (.featCommit 1) s { s with boot := { b with commit := true } })
    ∧ (heard → b.mbStatus ≠ 1 → ∀ cmd, cmd ≠ 1 → cmd ≠ 2 →
        comesTo (.mailboxBadCommand cmd) s ({ s with boot := { b with mbStatus := 3 } }.sendMsix 0))
    ∧ (heard → b.mbStatus ≠ 1 → b.state = 3 ∨ b.state = 0xE0 → s.busError b.mbArg0.toNat 64 = true →
        comesTo .loadImage s ({ recovers 0x03 0 with boot := { (recovers 0x03 0).boot with mbStatus := 5 } }.sendMsix 0))
    ∧ (heard → b.mbStatus ≠ 1 → b.state = 3 ∨ b.state = 0xE0 → ∀ n, n = b.mbArg1.toNat → s.busError b.mbArg0.toNat 64 = false →
        (imageHeaderOk (s.readBus b.mbArg0.toNat 64) n = false →
          comesTo .loadImage s ({ recovers 0x02 0 with boot := { (recovers 0x02 0).boot with mbStatus := 4 } }.sendMsix 0))
        ∧ (imageHeaderOk (s.readBus b.mbArg0.toNat 64) n = true → s.busError b.mbArg0.toNat n = false →
            comesTo .loadImage s ({ s with boot := { stepTo b 4 s.beat with image := some (s.readBus b.mbArg0.toNat n), mbStatus := 2 } }.sendMsix 0)))
    ∧ (heard → b.mbStatus ≠ 1 → 9 ≤ b.state → b.mbArg0.toNat % 4096 = 0 → s.busError b.mbArg0.toNat 4096 = false →
        ∃ t : State, comesTo .resync s t ∧ t.boot = { b with seq := b.seq + 1, mbStatus := 2 }
          ∧ ∃ page : List Byte, page.length = 4096 ∧ page.take 6 = [0x59, 0x53, 0x59, 0x4B, 1, 0]
            ∧ ∀ k x, page[k]? = some x → SMap.get 0 t.env.hostMem (b.mbArg0.toNat + k) = x)
    ∧ (∃ report : List Byte, report.take 64 = toBytes 64 (b.digest.getD 0).toNat
        ∧ comesTo .spdmMeasurementReport s { s with link := { s.link with reply := .data (report ++ Config.deviceSignature report) } })

open Sys2Proof Sys2Proof.Machine Sys2Proof.Claims in
/-- R14, R15, R17-R19, R38-R40, R50, R54, R55, R83, R85, R87, R99, R298, R366: requests of the host, of a peer and of the secured session. What the TDI refuses is
answered with Unsupported Request or dropped, and logged; everything else has the effect of the window or of the register. A request of the linear
window that reads a bank in refresh waits for its end (R13; log 54). The model's choices: logs 51, 80, 82 and 84. -/
def Obligations.HostRequests : Prop :=
  ∀ (s : State) (src : Requester) (off : Nat),
    let refused := shutOut s src
    let heard := ¬ shutOut s s.subj.src
    let free := s.link.tdi = .locked ∨ s.link.tdi = .run
    let logged := refusalLogged s
    let answered := fun (t : State) (r : Reply) => { t with link := { t.link with reply := r } }
    let said := fun (t : State) (code : Nat) => answered t (.status code)
    let unread := fun (i : Instr) => refused → s.unserved = false → comesTo i s (answered logged .unsupported)
    let waits := fun (i : Instr) => comesTo i s { s with link := { s.link with reads := s.link.reads ++ [i] } }
    let bs8 := fun (n x : Nat) => toBytes n x
    (∀ len, unread (.linearWindowRead src off len)
      ∧ (¬ refused → s.unserved = false → Config.packageBytes < off + len → comesTo (.linearWindowRead src off len) s (answered s .unsupported))
      ∧ (¬ refused → off + len ≤ Config.packageBytes → 0 < len → s.foreignStage 64 off len = false →
          let t := s.ordinaryRead ((List.range len).map (off + ·))
          (t.unserved = true → waits (.linearWindowRead src off len))
          ∧ (t.unserved = false →
            comesTo (.linearWindowRead src off len) s (answered t (.data ((List.range len).map fun i => s.readByte (off + i)))))))
    ∧ (∀ data, (refused → comesTo (.linearWindowWrite src off data) s logged)
      ∧ (¬ refused → Config.packageBytes < off + data.length → comesTo (.linearWindowWrite src off data) s logged)
      ∧ (¬ refused → off + data.length ≤ Config.packageBytes → data ≠ [] → s.foreignStage 64 off data.length = false →
          (∀ i, i < data.length → s.heldAt (off + i) = false) → ∃ t : State, comesTo (.linearWindowWrite src off data) s t
            ∧ t = { s with mem := t.mem, wq := t.wq } ∧ (∀ c ∈ t.wq, s.beat < s.refreshEnd c.1) ∧ (∀ i x, data[i]? = some x → t.readByte (off + i) = x)
            ∧ ∀ a, ¬(off ≤ a ∧ a < off + data.length) → t.readByte a = s.readByte a))
    ∧ (∀ op size v1 v2, unread (.linearWindowAtomicop src op off size v1 v2)
      ∧ (¬ refused → (size = 4 ∨ size = 8) → off % size = 0 → off + size ≤ Config.packageBytes → s.foreignStage 64 off size = false →
          (∀ i, i < size → s.heldAt (off + i) = false) →
          let old := s.readNum off size
          let top := 2 ^ (8 * size)
          let new := match op with
            | .fetchAdd => (old + v1.toNat) % top
            | .swap => v1.toNat % top
            | .cas => if old = v1.toNat % top then v2.toNat % top else old
          let read := s.ordinaryRead ((List.range size).map (off + ·))
          (read.unserved = true → waits (.linearWindowAtomicop src op off size v1 v2))
          ∧ (read.unserved = false → ∃ t : State, comesTo (.linearWindowAtomicop src op off size v1 v2) s (answered t (.data (bs8 size old)))
            ∧ t = { read with mem := t.mem, wq := t.wq } ∧ (∀ c ∈ t.wq, s.beat < s.refreshEnd c.1) ∧ t.readNum off size = new ∧ ∀ a, ¬(off ≤ a ∧ a < off + size) → t.readByte a = s.readByte a)))
    ∧ (∀ size, unread (.registerWindowRead src off size)
      ∧ (¬ refused → off < 0x4000000 → off % 8 = 0 → size = 8 →
          comesTo (.registerWindowRead src off size) s (answered s (.data (bs8 8 (s.windowReg off)))))
      ∧ (¬ refused → off < 0x4000000 → off % 4 = 0 → size = 4 → comesTo (.registerWindowRead src off size) s
          (answered s (.data (bs8 4 (s.windowReg (off / 8 * 8) / (if off % 8 = 0 then 1 else 2 ^ 32))))))
      ∧ (¬ refused → size ≠ 4 → size ≠ 8 → comesTo (.registerWindowRead src off size) s (answered s .unsupported)))
    ∧ unread (.registerWindowAtomicop src off) ∧ (¬ refused → comesTo (.registerWindowAtomicop src off) s (answered s .unsupported))
    ∧ (∀ size v, (refused → comesTo (.registerWrite src off size v) s logged)
      ∧ (¬ refused → size ≠ 4 → size ≠ 8 → comesTo (.registerWrite src off size v) s logged)
      ∧ (¬ refused → off < 0x4000000 → off % 8 = 0 → size = 8 → comesTo (.registerWrite src off size v) s (s.writeWindowReg off .whole v.toNat)))
    ∧ (shutOut s s.subj.src → ∀ i n p v, i ∈ [Instr.qcfgWrite n p v, .tailWrite n p v, .qreset n v, .ctxRootWrite n p v, .ctxInvalidate n p v, .ctxResume n v,
        .semAssignWrite n p v] → comesTo i s logged)
    ∧ (heard → ∀ n p v, n < 1024 →
        let q := s.queue n
        let w := written p q.cfg v.toNat
        let bit := fun (i : Nat) => w.testBit i
        (∃ t : State, comesTo (.qcfgWrite n p v) s t ∧ t = { s with queues := t.queues } ∧ (∀ m, m ≠ n → t.queue m = s.queue m)
          ∧ (q.enable = true → t.queue n = { q with halt := bit 2, enable := bit 0 })
          ∧ (q.enable = false →
              let r : WorkQueue := { q with proc := w / 2 ^ 48 % 65536, faultVec := w / 2 ^ 40 % 256, ctx := w / 256 % 64, log2 := w / 16 % 16, halt := bit 2, loc := bit 1 }
              (t.queue n) = { r with enable := bit 0 && s.mayEnable r }))
        ∧ comesTo (.tailWrite n p v) s (if p = .high then s else s.writeTail n v.toNat)
        ∧ (v.toNat % 2 = 1 → q.busy = false → ∃ t : State, comesTo (.qreset n v) s t ∧ (t.queue n).busy = true
            ∧ (∀ e ∈ t.entries, ∀ f ∈ s.entries, f.queue = n → f.id ≠ e.id)
            ∧ ∀ x ∈ s.experts, x.2.state = expertFetching → (∃ e ∈ s.entries, e.queue = n ∧ x.2.payer = some e.id) → (∀ w, x.2.waiting.head? = some w → s.job? w.1 = none) →
                (t.expert x.1).state = expertAbsent)
        ∧ (v.toNat % 2 = 0 ∨ q.busy = true → comesTo (.qreset n v) s s))
    ∧ (s.resetEnds s.subj.queue = true → ∃ t : State, comesTo .queueResetDone s t ∧ t.wq = [] ∧ (t.queue s.subj.queue) =
        { s.queue s.subj.queue with head := 0, tail := 0, enable := false, halt := false, contained := false, ignored := 0, overrun := false, lastFault := 0, busy := false, done := true, parked := none })
    ∧ (heard → ∀ c p v, c < 64 →
        let x := s.ctxAt c
        let w := written p x.rootWord v.toNat
        ∃ t : State, comesTo (.ctxRootWrite c p v) s t ∧ (∀ k, k ≠ c → t.ctxAt k = s.ctxAt k)
          ∧ (x.live = false → t.ctxAt c = { x with root := w / 2 ^ 21 % 2 ^ 27 * 2 ^ 21, dlclass := BitVec.ofNat 4 (w / 2), live := w.testBit 0 })
          ∧ (x.live = true → (∀ z ∈ s.queues, ¬(z.2.enable = true ∧ z.2.ctx = c)) → t.ctxAt c = { x with live := w.testBit 0 })
          ∧ (x.live = true → (∃ z ∈ s.queues, z.2.enable = true ∧ z.2.ctx = c) → t.ctxAt c = x))
    ∧ (heard → ∀ c v, c < 64 → (s.ctxAt c).invalBusy = false → v.toNat % 2 = 1 → v.toNat / 2 % 8 < 4 →
        ∃ t : State, comesTo (.ctxInvalidate c .whole v) s t ∧ (t.ctxAt c).invalBusy = true
          ∧ (∀ k : Fin 64, s.cores[k].ctx = c → v.toNat / 2 % 8 < 3 → ∀ f ∈ t.cores[k].flight, f.redo = none)
          ∧ (v.toNat / 2 % 8 = 3 → ∀ k : Fin 64, ∀ f ∈ t.cores[k].flight, f.redo = none)
          ∧ ∀ (z : Fin 8) (l : Tlb), l ∈ t.yards[z].tlb ↔ l ∈ s.yards[z].tlb ∧ l.removedBy c (v.toNat / 2 % 8) (v.toNat / 4096 % 2 ^ 45 * 4096) = false)
    ∧ (s.subj.ctx < 64 → s.invalEnds s.subj.ctx = true → ∃ t : State, comesTo .ctxInvalidateDone s t ∧ t.ctxAt s.subj.ctx = { s.ctxAt s.subj.ctx with invalBusy := false }
        ∧ (∀ k, k ≠ s.subj.ctx → t.ctxAt k = s.ctxAt k) ∧ t.wq = [] ∧ t.cores = s.cores)
    ∧ (heard → ∀ c v, c < 64 → (v.toNat % 2 = 0 → comesTo (.ctxResume c v) s s) ∧ (v.toNat % 2 = 1 → ∃ t : State, comesTo (.ctxResume c v) s t
        ∧ (t.ctxAt c).efault.valid = false ∧ ∀ j ∈ t.jobs, j.ctx = c → j.phase ≠ .suspended))
    ∧ (heard → ∀ n p v, n < 256 → let w := written p (s.sem n).assignWord v.toNat
        ∃ t : State, comesTo (.semAssignWrite n p v) s t ∧ t.sem n = { s.sem n with count := 0, assigned := w.testBit 8, ctx := w % 64 } ∧ ∀ m, m ≠ n → t.sem m = s.sem m)
    ∧ (∀ c ctx va wr, ctx < 64 → va.toNat < 2 ^ 57 → comesTo (.pageWalk c ctx va wr) s (walkInto s c ctx va.toNat wr).1)
    ∧ (∀ lanes rate flit, (lanes, rate, flit) ∈ [(16, 64000, true), (16, 32000, false), (8, 32000, false), (1, 2500, false)] →
        comesTo (.hostLinkTraining lanes rate flit) s { s with link := { s.link with trained := true, lanes := lanes, rate := rate, flit := flit } })
    ∧ (∀ up, comesTo (.spdmSecuredSession up) s { s with link := { s.link with session := up } })
    ∧ (s.link.tdi = .unlocked → s.accepts featTdisp = true → comesTo .tdiLock s { s with link := { s.link with tdi := .locked } })
    ∧ (s.link.tdi = .locked → comesTo .tdiStart s { s with link := { s.link with tdi := .run } })
    ∧ (∀ toError, free → ∃ t : State, comesTo (.tdiExitRun toError) s t ∧ t.link.tdi = (if toError then .error else .unlocked) ∧ t.link.waiting = []
        ∧ (∀ i : Fin 16, t.link.keys[i] = none) ∧ (∀ c : Fin 64, t.ctxs[c] = { s.ctxs[c] with bound := false }) ∧ t.mem = s.mem ∧ t.entries = s.entries)
    ∧ (s.link.session = false → ∀ i, (∃ c, i = .bindContext c) ∨ (∃ c, i = .unbindContext c) ∨ (∃ r, i = .setKey r) ∨ (∃ k, i = .clearKey k) → comesTo i s (said s 2))
    ∧ (s.link.session = true →
        (∀ c, (64 ≤ c.toNat → comesTo (.bindContext c) s (said s 1) ∧ comesTo (.unbindContext c) s (said s 1))
          ∧ (c.toNat < 64 → free → (s.ctxAt c.toNat).live = true →
              ∃ t : State, comesTo (.bindContext c) s (said t 0) ∧ (t.ctxAt c.toNat) = { s.ctxAt c.toNat with bound := true })
          ∧ (c.toNat < 64 → s.bindingInUse c.toNat = false → ∃ t : State, comesTo (.unbindContext c) s (said t 0) ∧ (t.ctxAt c.toNat).bound = false
              ∧ ∀ i : Fin 16, t.link.keys[i] = (s.link.keys[i]).bind fun k => if k.ctx = c.toNat then none else some k)
          ∧ (c.toNat < 64 → s.bindingInUse c.toNat = true → comesTo (.unbindContext c) s
              (said { s with link := { s.link with waiting := s.link.waiting ++ [.unbindContext c] } } 0)))
        ∧ (∀ r i, r.slot.toNat = i → (16 ≤ i ∨ 64 ≤ r.ctx.toNat ∨ r.zero ≠ 0 → comesTo (.setKey r) s (said s 1))
          ∧ (i < 16 → r.ctx.toNat < 64 → r.zero = 0 →
              ((vget none s.link.keys i).isSome = true ∨ (s.ctxAt r.ctx.toNat).bound = false → comesTo (.setKey r) s (said s 2))
              ∧ (vget none s.link.keys i = none → (s.ctxAt r.ctx.toNat).bound = true → ∃ t : State, comesTo (.setKey r) s (said t 0)
                  ∧ vget none t.link.keys i = some { key := r.key, ctx := r.ctx.toNat, stream := r.stream, nextCtr := r.nextCtr.toNat })))
        ∧ (∀ k, (16 ≤ k.toNat → comesTo (.clearKey k) s (said s 1))
          ∧ (k.toNat < 16 → s.slotInUse k.toNat = false → ∃ t : State, comesTo (.clearKey k) s (said t 0) ∧ vget none t.link.keys k.toNat = none)
          ∧ (k.toNat < 16 → s.slotInUse k.toNat = true → comesTo (.clearKey k) s
              (said { s with link := { s.link with waiting := s.link.waiting ++ [.clearKey k] } } 0))))

open Sys2Proof Sys2Proof.Machine Sys2Proof.Claims in
/-- R24, R41, R44-R59, R67, R70-R78, R136, R137, R140, R142, R171: the work of the front end and of the governor: an entry is consumed when its
SEQNO is the one at HEAD, judged by the checks of Table 3.7 and the admission test; its records are checked, begin and end, and its
completion record is written; deadlines, budgets, samples and windows (the model's readings: logs 17, 42 to 46, 50, 54, 60, 62, 84, 90, 98 and 99). -/
def Obligations.EntryEvents : Prop :=
  ∀ (s : State),
    let n := s.subj.queue
    let q := s.queue n
    let id := s.subj.entry
    -- an entry and its completion record, byte for byte (Tables 3.5, 3.6 and 3.9)
    (∀ bs, let e := parseEntry n q.ctx bs
      let bit := fun (i : Nat) => (numAt bs 8 4).testBit i
      e.queue = n ∧ e.ctx = q.ctx ∧ e.seqno = numAt bs 0 4 ∧ e.id = 2 ^ 31 + 2 ^ 21 * (n % 1024) + numAt bs 0 4 % 2 ^ 21 ∧ e.prio = numAt bs 5 1 ∧ e.powerClass = numAt bs 6 1
      ∧ e.sigsem = numAt bs 7 1 ∧ e.dl = bit 0 ∧ e.pinned = bit 1 ∧ e.overrun = numAt bs 8 4 / 4 % 4 ∧ e.missAbort = bit 4 ∧ e.sig = bit 5 ∧ e.irq = bit 6
      ∧ e.vector = numAt bs 8 4 / 256 % 256 ∧ e.expertTimeout = numAt bs 0x0C 4 ∧ e.deadline = numAt bs 0x10 8
      ∧ e.budget.cores = numAt bs 0x18 8 ∧ e.budget.matrix = numAt bs 0x20 8 ∧ e.budget.bank = numAt bs 0x28 8 ∧ e.budget.copy = numAt bs 0x30 8
      ∧ e.opchain.toNat = numAt bs 0x38 8 ∧ e.completion.toNat = numAt bs 0x40 8 ∧ e.opcount = numAt bs 0x48 4 ∧ e.handles.length = 8
      ∧ ∀ i h, e.handles[i]? = some h → h.toNat = numAt bs (0x50 + 4 * i) 4)
    ∧ (∀ e : Entry, let bs := e.record
        bs.length = 64 ∧ numAt bs 0 2 = e.status.getD 0 % 2 ^ 16 ∧ numAt bs 2 1 = e.firstFault % 256 ∧ numAt bs 3 1 = e.adm % 256 ∧ numAt bs 4 4 = min e.faults (2 ^ 32 - 1)
        ∧ numAt bs 8 8 = e.startBeat.getD e.endBeat % 2 ^ 64 ∧ numAt bs 0x10 8 = e.endBeat % 2 ^ 64 ∧ numAt bs 0x18 8 = e.used.cores % 2 ^ 64 ∧ numAt bs 0x20 8 = e.used.matrix % 2 ^ 64
        ∧ numAt bs 0x28 8 = e.used.bank % 2 ^ 64 ∧ numAt bs 0x30 8 = e.used.copy % 2 ^ 64 ∧ numAt bs 0x38 4 = min e.ballast (2 ^ 32 - 1) ∧ numAt bs 0x3C 4 = e.seqno % 2 ^ 32)
    -- checks 4 to 8, and the admission test
    ∧ (∀ e : Entry, let c := s.ctxAt e.ctx
        let budgets := [e.budget.cores, e.budget.matrix, e.budget.bank, e.budget.copy]
        let stale := ∃ h ∈ e.handles, h ≠ 0 ∧ c.liveHandle h = false
        let barred := e.dl = true ∧ ¬(s.accepts featDeadline = true ∧ ∀ i b, budgets[i]? = some b → b ≠ 0 → c.dlclass.getLsbD i = true)
        let past := e.dl = true ∧ e.deadline ≤ s.beat
        let empty := e.dl = true ∧ ∀ b ∈ budgets, b = 0
        let halted := (s.queue e.queue).halt = true
        (halted → s.rejection e = 6) ∧ (¬ halted → stale → s.rejection e = 7) ∧ (¬ halted → ¬ stale → barred → s.rejection e = 5)
        ∧ (¬ halted → ¬ stale → ¬ barred → past → s.rejection e = 3) ∧ (¬ halted → ¬ stale → ¬ barred → ¬ past → empty → s.rejection e = 4)
        ∧ (¬ halted → ¬ stale → ¬ barred → ¬ past → ¬ empty → s.rejection e = 0))
    ∧ (∀ e : Entry, e.dl = false → s.admission e = (0, []))
    ∧ (∀ e : Entry, e.dl = true →
        let all := s.entries.filter (fun x => x.dl && decide (s.beat < x.deadline)) ++ [e]
        let short := fun (num den blk ceil : Nat) (of : Meters → Nat) => ∃ d ∈ all.map (·.deadline),
          num * (d - s.beat) * ceil < 1000 * den * (((all.filter fun x => decide (x.deadline ≤ d)).map fun x => of x.budget - of x.used).sum + blk)
        let util := short 64 1 (64 * s.gov.pmaxCores) s.gov.ceilCores (·.cores) ∨ short 8 1 (8 * (s.gov.pmaxMatrix + 64)) s.gov.ceilMatrix (·.matrix)
          ∨ short 768 13 98304 s.gov.ceilBank (·.bank) ∨ short 16 1 16384 s.gov.ceilCopy (·.copy)
        let watts := fun (x : Entry) => [2, 4, 6, 8, 12, 16, 24, 32, 48, 64, 80, 96, 128, 160, 208, 220].getD x.powerClass 0
        let padm : Int := (min (10 * s.gov.board.sustain) (thermalBudget s.gov.board.peak s.gov.temperature) : Nat) - (10 * s.gov.beReserve : Nat)
        let power := ∃ d ∈ all.map (·.deadline), padm * (d - s.beat : Nat) < (10 * (all.map fun x => watts x * (min x.deadline d - s.beat)).sum : Nat)
        (util → s.admission e = (1, [])) ∧ (¬ util → power → s.admission e = (2, []))
        ∧ (¬ util → ¬ power → e.pinned = false → s.admission e = (0, []))
        ∧ (¬ util → ¬ power → e.pinned = true → (∀ slots, s.gov.rampFor e = some slots → s.admission e = (0, slots))
            ∧ (s.gov.rampFor e = none → s.admission e = (8, [])))
        ∧ ∀ slots, s.gov.rampFor e = some slots →
            let m := (watts e + s.gov.board.rampUp - 1) / s.gov.board.rampUp
            ∃ k, 1 ≤ k ∧ slots = (List.range m).map (fun i => s.gov.windowAt + (k + i) * s.gov.board.window)
              ∧ (∀ i, i < m → s.gov.taken (k + i) = false) ∧ (∀ l, 1 ≤ l → l < k → ∃ i, i < m ∧ s.gov.taken (l + i) = true)
              ∧ ∀ b ∈ [(e.budget.cores, 64, 1), (e.budget.matrix, 8, 1), (e.budget.bank, 768, 13), (e.budget.copy, 16, 1)],
                  s.gov.windowAt + (k + m - 1) * s.gov.board.window + (b.1 * b.2.2 + b.2.1 - 1) / b.2.1 ≤ e.deadline)
    -- the rows of an INGEST as they are placed: MXFP4 to K4, anything else as it is
    ∧ (∀ (r : IngestRec) bs, r.dfmt ≠ 1 → r.convert bs = (bs, 0))
    ∧ (∀ bs : List Byte, bs.length = 136 →
        let xs := (List.range 256).map fun i =>
          blockValue true (bs.getD (17 * (i / 32) + 16) 0).toNat ((bs.getD (17 * (i / 32) + i % 32 / 2) 0).toNat / 16 ^ (i % 2) % 16)
        ∀ scale q f, quantiseBlock true xs = (scale, q, f) →
          (mxToK4 bs).1.length = 129 ∧ (mxToK4 bs).1.getD 128 0 = BitVec.ofNat 8 scale
          ∧ (∀ i, i < 256 → ((mxToK4 bs).1.getD (i / 2) 0).toNat / 16 ^ (i % 2) % 16 = q.getD i 0)
          ∧ (mxToK4 bs).2 ≤ 1 ∧ ((mxToK4 bs).2 = 1 ↔ .nan ∉ xs ∧ (∃ x ∈ xs, x.isZero = false) ∧ ∀ e, blockExponent true xs e → e < -127 ∨ 127 < e))
    ∧ (∀ (peak : Nat) (x : Int), (x < 950 → thermalBudget peak x = 10 * peak) ∧ (1050 ≤ x → thermalBudget peak x = 5 * peak)
        ∧ (950 ≤ x → x < 1050 → thermalBudget peak x = 10 * peak - peak * (x - 950).toNat / 20))
    ∧ (∀ i, (i = .workEntryRead ∧ s.consumes n = true ∧ q.parked = none) ∨ (i = .entryReread ∧ s.rereads n = true) → ∀ t bs, s.readSlot n = (t, some bs) →
      let seq := numAt bs 0 4
      (seq = q.head → comesTo i s (((t.setQueue n { t.queue n with head := (q.head + 1) % 2 ^ 32, parked := none }).judgeEntry n bs).orFirm s))
      ∧ (seq ≠ q.head → seq = (q.head + 2 ^ 32 - q.ring) % 2 ^ 32 → comesTo i s ((t.setQueue n { t.queue n with parked := some t.beat }).orFirm s))
      ∧ (seq ≠ q.head → seq ≠ (q.head + 2 ^ 32 - q.ring) % 2 ^ 32 → comesTo i s ((t.contain n (entryIdOf n seq)).orFirm s)))
    ∧ (∀ bs, let e := parseEntry n q.ctx bs
        (s.entryShape e bs = false → s.judgeEntry n bs = s.contain n e.id)
        ∧ ∀ t, s.entryShape e bs = true → s.entryChain e = (t, true) →
            (t.rejection e ≠ 0 → s.judgeEntry n bs = t.reject e (t.rejection e))
            ∧ (t.rejection e = 0 → ∀ slots, t.admission e = (0, slots) → (s.judgeEntry n bs).entries = t.entries ++ [{ e with rampSlots := slots }]))
    ∧ (∀ e t, s.entry? id = some e → e.expands = true →
        (s.readRecord e = (t, none) → comesTo .operatorRecordExpand s ((t.contain e.queue e.id).orFirm s))
        ∧ ∀ r, s.readRecord e = (t, some r) → comesTo .operatorRecordExpand s (({ t with entries := onEntry t e.id fun e => e.place r } : State).orFirm s))
    ∧ (∀ t : State, (t.unserved = false → t.orFirm s = t) ∧ (t.unserved = true → t.orFirm s = { s with firmAt := t.served }))
    ∧ (∀ e r, waitsToBegin s e (.launch r) →
        (s.pensOk e.ctx r = false → comesTo .launch s (s.contain e.queue e.id))
        ∧ (s.pensOk e.ctx r = true → comesTo .launch s (s.launch e r)
            ∧ ∃ g, (s.launch e r).launches = s.launches ++ [g] ∧ g.body = r ∧ g.next = 0 ∧ g.entry = e.id ∧ g.ready = s.beat
              ∧ ∀ i num, (g.record i num).code = r.code ∧ (g.record i num).frame = r.frame + BitVec.ofNat 64 (i * r.stride) ∧ (g.record i num).index = i))
    ∧ (∀ e r, recordRuns s e (.launch r) → e.hwJoin = 0 → s.working e.id = false → ∃ t : State, comesTo .launchRetire s t
        ∧ t.launches = s.launches.filter (fun l => l.entry ≠ e.id) ∧ t.entries = onEntry s e.id Entry.retireOp)
    ∧ (∀ e r, waitsToBegin s e (.copy r) → s.powerFits e.id = false → comesTo .copy s (if s.asksSlots e then s.askSlots e [] else s))
    ∧ (∀ e r, waitsToBegin s e (.copy r) → s.powerFits e.id = true →
        let j := recordJob s e (.recordCopy r) .frontEnd
        comesTo .copy s (((s.startRecord e j).runRecordCopy j r).orFirm s))
    ∧ (∀ e r j, recordRuns s e (.copy r) → s.recordJob? e.id = some j →
        (j.phase = .done → comesTo .copyEnd s ((((s.removeJob j).writeResult e r.resultAt r.len).frontSignal r.sig e.id).retireRecord e.id))
        ∧ ∀ code, j.phase = .failed code → comesTo .copyEnd s
            (((((s.logRecord j code).removeJob j).writeResult e r.resultAt (j.copied r)).frontSignal r.err e.id).failEntry e.id code))
    ∧ (∀ e r, waitsToBegin s e (.ingest r) → (s.recordOk e (.ingest r) = false → comesTo .ingest s (s.contain e.queue e.id))
        ∧ (s.recordOk e (.ingest r) = true → s.ingestWaits e r = true → comesTo .ingest s (if s.asksSlots e then s.askSlots e [] else s)))
    ∧ (∀ e r, waitsToBegin s e (.ingest r) → s.recordOk e (.ingest r) = true → s.ingestWaits e r = false →
        ∃ (t : State) (j : Job), comesTo .ingest s ((t.runLayout j r r.resultAt).orFirm s) ∧ t.ctxs = pin (pin s.ctxs e.ctx (handleSlot r.src)) e.ctx (handleSlot r.dst)
          ∧ t.jobs = (s.yieldUnit .layout).jobs ++ [j] ∧ j.kind = .layout r r.resultAt ∧ j.entry = e.id)
    ∧ (∀ e r j, recordRuns s e (.ingest r) → s.recordJob? e.id = some j →
        (j.phase = .done → (r.expert = none ∨ r.defer = false) → comesTo .ingestEnd s
          (((((s.removeJob j).writeResult e r.resultAt (ingestResult r.placed j.mpcByte).toNat).frontSignal r.sig e.id).retireRecord e.id)))
        ∧ ∀ code, j.phase = .failed code → comesTo .ingestEnd s
            ((((s.removeJob j).frontSignal r.err e.id).logError code.toNat 5 0 e.id).failEntry e.id code))
    ∧ (∀ e r k h bs, waitsToBegin s e (.confCopy r) → s.recordOk e (.confCopy r) = true → vget none s.link.keys r.slot = some k → s.listed e r.src = some h →
        s.unserved = false → h.bus = true → s.busError h.base (r.len + 16) = false → bs = s.readBus h.base (r.len + 16) →
        ∃ t : State, comesTo .confCopy s t ∧ (∀ h, e.ctx < 64 → (h ∈ (t.ctxAt e.ctx).held ↔ h = (e.id, (s.ctxAt e.ctx).stageBase + r.stageOff, r.len) ∨ h ∈ (s.ctxAt e.ctx).held ∧ h.1 ≠ e.id))
          ∧ vget none t.link.keys r.slot = some { k with nextCtr := r.counter.toNat + 1 }
          ∧ ∀ f, t.entry? e.id = some f → f.op = some (.confCopy r, if (confPlain k r bs).isSome then .finishing 0 (BitVec.ofNat 64 r.len) else .finishing 0x23 0))
    ∧ (∀ e r x, s.entry? id = some e → e.op = some (.confCopy r, .finishing 0 x) → comesTo .confCopyTagCheck s
        ((((s.unhold e.ctx e.id).writeResult e r.resultAt x.toNat).retireRecord e.id).settleKeys))
    ∧ (∀ e r x, s.entry? id = some e → e.op = some (.confCopy r, .finishing 0x23 x) → comesTo .confCopyTagCheck s
        ((((((s.scrubHeld e.ctx e.id).writeResult e r.resultAt 0).logError 0x23 6 0 e.id).chargeFault e.id 0x23).endEntry e.id 5).settleKeys))
    ∧ (∀ e r, waitsToBegin s e (.handleSet r) → s.recordOk e (.handleSet r) = true →
        let c := s.ctxAt e.ctx
        let h : Handle := { SMap.get ({} : Handle) c.handles r.slot with st := .set, bus := r.bus, canRead := r.canRead, canWrite := r.canWrite, base := r.base, len := r.len, pins := 0 }
        ∃ t : State, comesTo .handleSet s ((t.writeResult e r.resultAt (2 ^ 16 * c.generation r.slot + r.slot)).retireRecord e.id)
          ∧ (e.ctx < 64 → SMap.get ({} : Handle) (t.ctxAt e.ctx).handles r.slot = h))
    ∧ (∀ e h, waitsToBegin s e (.handleFree h) →
        let c := s.ctxAt e.ctx
        let slot := h.toNat % 65536
        let x := SMap.get ({} : Handle) c.handles slot
        (c.liveHandle h = true → ∃ t : State, comesTo .handleFree s (t.retireRecord e.id) ∧ (e.ctx < 64 → SMap.get ({} : Handle) (t.ctxAt e.ctx).handles slot =
            if x.pins = 0 then { ({} : Handle) with gen := (x.gen + 1) % 65536 } else { x with st := .freeing }))
        ∧ (c.liveHandle h = false → ∃ t : State, comesTo .handleFree s (t.failEntry e.id 0x41) ∧ (t.queue e.queue).lastFault = 0x41
            ∧ t.errorCount = s.errorCount + 1))
    ∧ (∀ e, s.entry? id = some e → e.isOver = true → s.working e.id = false → ∃ t u : State, comesTo .entryCompletion s t
        ∧ u = s.complete (s.finalEntry e) ∧ t.link = u.link ∧ t.env = u.env ∧ (∀ f ∈ t.entries, f.id ≠ e.id) ∧ ∀ r ∈ t.gov.reserved, r.2 ≠ e.id)
    ∧ (∀ e c, s.entry? id = some e → e.overruns c = true → ∃ t : State, comesTo (.budgetOverrun c) s t ∧ t.errorCount = s.errorCount + 1
        ∧ ∀ f, t.entry? id = some f → f.firstFault ≠ 0
          ∧ (e.overrun = 0 → f.trapNew = true ∧ ∀ k : Fin 64, s.cores[k].running = true → s.cores[k].entry = id → t.cores[k].budgetTrap = true)
          ∧ (e.overrun = 1 → f.dl = false) ∧ (2 ≤ e.overrun → f.status = some 3))
    ∧ (∀ e, s.entry? id = some e → e.misses s.beat = true → ∃ t : State, comesTo .deadlineMiss s t ∧ t.errorCount = s.errorCount + 1
        ∧ ∀ f, t.entry? id = some f → f.firstFault ≠ 0 ∧ (e.missAbort = true → f.status = some 3)
          ∧ (e.missAbort = false → f.dl = false ∧ f.continued = true ∧ f.status = none))
    ∧ (s.gov.thermalAt ≤ s.beat → ∃ t : State, comesTo .thermalSample s t ∧ t.gov.temperature = s.env.temperature
        ∧ t.gov.budgetDw = thermalBudget s.gov.board.peak s.env.temperature ∧ s.beat < t.gov.thermalAt
        ∧ (s.env.temperature < 1050 → t.gov.clockStep = 0) ∧ (1050 ≤ s.env.temperature → 1 ≤ t.gov.clockStep ∧ t.gov.clockStep ≤ 4)
        ∧ t.gov.ceilingDw = min ((s.gov.windowStartMw + s.gov.board.rampUp * 1000) / 100) (min (10 * s.gov.board.peak) t.gov.budgetDw)
        ∧ (s.env.temperature < 1150 → t.gov.stopped = s.gov.stopped) ∧ (1150 ≤ s.env.temperature → t.gov.stopped = true ∧ t.link.fatal = true))
    ∧ (s.gov.sampleAt ≤ s.beat → ∃ t : State, comesTo .modelledPowerSample s t ∧ t.gov.modelledMw = s.settleBallast.modelledNow ∧ s.beat < t.gov.sampleAt
        ∧ ∀ e ∈ t.entries, e.drawnMw = sumMw (s.settleBallast.attributedMw e.id))
    ∧ (s.windowDue = true → comesTo .governorWindowStart s s.openWindow.punish.giveSlot.renewSlots.settleBallast
        ∧ s.openWindow.gov.windowAt = s.beat / s.gov.board.window * s.gov.board.window ∧ s.openWindow.gov.windowStartMw = s.modelledNow
        ∧ s.openWindow.gov.risenMw = 0 ∧ s.openWindow.gov.ceilingDw ≤ 10 * s.gov.board.peak ∧ s.openWindow.gov.ceilingDw ≤ s.gov.budgetDw)


/-! ### Words, steps, reset, and what holds of every instruction (R27, R101, R168, R176, R227, R238, R339) -/

namespace Sys2Proof.Claims
open Sys2Proof.Machine

/-- Words of the manual's worked lines (Tables 13.5, 14.7, 16.3; chapter 17), and one word of each other format, by its fields. -/
def coreWords : List (Nat × Instr) :=
  [(0x0704050300000000, .divs ⟨4, 5, false, 6, false, 0, false, 0, 0, 0⟩), (0x1A02030200000020, .cmp ⟨2, 3, false, 4, false, 0, false, 0, 2, 0⟩),
   (0x2703000000000030, .ldi ⟨3, 0, false, 0, 3, 0⟩), (0xE000000000000090, .trap ⟨0, 0, false, 0, 9, 0⟩),
   (0xE300060020000000, .cont ⟨0, 6, false, 4, 0, 0⟩), (0xE700050000000800, .ckpt ⟨0, 5, false, 0, 128, 0⟩),
   (0xE900070000000000, .mtc ⟨0, 7, false, 0, 0, 0⟩), (0xC000010000020000, .mlds ⟨0, 1, false, 0, 0, 1, 0, false, 0⟩),
   (0xC300030003840000, .mdrn ⟨0, 3, false, 0, 7, 2, 0, false, 0⟩), (0xC709000000000000, .mstat ⟨9, 0, false, 0, 0, 0, 0, false, 0⟩),
   (0x6CC1442280000120, .vcmp ⟨0xC1, 0x44, false, 0x45, false, 0, false, 0, 18, 0⟩),
   (0xA1424800D0000000, .vqnt ⟨0x42, 0x48, false, 0x1A, 0, 0⟩), (0xA1054840D0000000, .vqntSc ⟨5, 0x48, false, 0x81A, 0, 0⟩),
   (0xA243420508000000, .vdqnt ⟨0x43, 0x42, false, 0xA1, 0, 0⟩), (0x30000000FFFFFFF0, .br ⟨0, 0, 0, false, 0, false, 0xFFFFFFF, 0⟩),
   (0x3605048000000000, .loopm ⟨5, false, 2, 4, 0, 0⟩), (0x4001028000000080, .ld ⟨1, 2, true, 0, 0, 0, 0, 8, 0⟩),
   (0x1C00000000000000, .illegalOpcode 0x1C00000000000000), (0, .illegalOpcode 0)]

/-- Words of the bank program of chapter 17, and one that no row lists. -/
def bankWords : List (Nat × Instr) :=
  [(0x020000000105, .bset ⟨0, 1, 5⟩), (0x020000008106, .bset ⟨0, 129, 6⟩), (0x100002000000, .bcast ⟨2, 0, 0⟩),
   (0x120005000100, .dotK4 ⟨5, 1, 0⟩), (0x150002000000, .drn ⟨2, 0, 0⟩), (0x090001000009, .semsw ⟨1, 0, 9⟩),
   (0x060000000000, .haltw ⟨0, 0, 0⟩), (0x070000000000, .illegalWord 0x070000000000)]

/-- No matrix array has a job, a landing, a drained row still to write or a lunge run. -/
def arraysRest (s : State) : Prop :=
  ∀ y : Fin 8, s.yards[y].arr.landings = [] ∧ s.yards[y].arr.drained = [] ∧ s.yards[y].arr.lunge = none ∧ ∀ j ∈ s.jobs, j.unit ≠ .array y.val

/-- Everything of a core but its registers, what is in flight, the triple, the sequencer, the slot count, its takes and streams. -/
def quietCore (c d : Core) : Prop :=
  d.running = c.running ∧ d.cont = c.cont ∧ d.ctx = c.ctx ∧ d.entry = c.entry ∧ d.status = c.status ∧ d.cause = c.cause ∧ d.epc = c.epc
  ∧ d.epc1 = c.epc1 ∧ d.epc2 = c.epc2 ∧ d.brpend = c.brpend ∧ d.faultva = c.faultva ∧ d.tvec = c.tvec ∧ d.tscratch = c.tscratch
  ∧ d.mpcsave = c.mpcsave ∧ d.ckpttab = c.ckpttab ∧ d.lattab = c.lattab ∧ d.intsem = c.intsem ∧ d.tagmap = c.tagmap ∧ d.rplq = c.rplq
  ∧ d.penset = c.penset ∧ d.pencnt = c.pencnt ∧ d.joinblk = c.joinblk ∧ d.beathi = c.beathi ∧ d.lookahead = c.lookahead
  ∧ d.bankSlots = c.bankSlots ∧ d.deferred = c.deferred ∧ d.slot = c.slot + 1

end Sys2Proof.Claims

open Sys2Proof Sys2Proof.Machine Sys2Proof.Claims in
/-- R227, R339: words that the manual writes out, and words of the other formats, are the instructions they stand for. -/
def Obligations.DecodedWords : Prop :=
  (∀ x ∈ coreWords, decodeCore x.1 = x.2) ∧ ∀ x ∈ bankWords, decodeBank x.1 = x.2

open Sys2Proof Sys2Proof.Machine Sys2Proof.Claims in
/-- R124, R168, R176: a core's turn runs the instruction that its next word decodes to, or takes the fault of its fetch; a port's turn
runs the bank-command word at its address, or the one that has begun; an event of the agenda runs on its subject; a tick is a beat. The agenda (log 3), the placing of a word that cannot be served yet (log 54)
and that an event of the agenda which has an encoding only leaves a shorter agenda (log 66) are the model's own; so is that the fetch of a
word at an address that is no multiple of 8 is MISALIGNED (log 12). -/
def Obligations.StepRunsTheDecodedInstruction : Prop :=
  ∀ (s : State) (rest : List Action), s.gov.stopped = false →
    (∀ c, s.agenda = .core c :: rest →
      let t := { s with agenda := rest, subj := { s.subj with core := c }, served := 0 }
      let fetched := reach t (t.coreAccess .fetch) [{ va := t.core.f0.toNat, len := 8, align := 8 }]
      t.issues →
        (∀ u pas, fetched = (u, .ok pas) → let v := u.ordinaryRead pas.flatten
            (v.unserved = true → step s = .next t)
            ∧ (v.unserved = false → step s = exec (decodeCore (fromBytes (pas.flatten.map u.readByte))) v))
        ∧ (∀ u code va, fetched = (u, .error (code, va)) → step s = .next (u.takeTrap (memTrap 0 (code, va)))))
    ∧ (∀ j d job b p, s.agenda = .port j d :: rest →
        let t := { s with agenda := rest, subj := { s.subj with job := j, port := d }, served := 0 }
        let u := t.takeMcs job p
        t.job? j = some job → t.bankJob? j = some b → b.port? d = some p → u.portRuns job p = true →
          (∀ w, p.word = some w → step s = exec (decodeBank w.toNat) (u.setPort b.id { p with ran := some w }))
          ∧ (p.word = none →
              let first := p.pc.toNat / 64 * 64
              let spans : List Span := if p.pc.toNat % 64 ≤ 58 then [{ va := first, len := 64 }]
                else [{ va := first, len := 64 }, { va := (first + 64) % 2 ^ 64, len := 64 }]
              let fetched := reach u { bankAccess job.ctx p.die .read with lanes := true } spans
              (∀ x pas, fetched = (x, .ok pas) → let v := x.ordinaryRead pas.flatten
                let w := BitVec.ofNat 48 (fromBytes (((pas.flatten.drop (p.pc.toNat % 64)).take 6).map v.readByte))
                (v.unserved = true → step s = .next u)
                ∧ (v.unserved = false → step s = exec (decodeBank w.toNat) (v.setPort b.id { p with word := some w, ran := some w })))
              ∧ (∀ v code va, fetched = (v, .error (code, va)) → step s = .next ((WordEnd.suspend v p code va).settle b.id))))
    ∧ (∀ i u, s.agenda = .event i u :: rest → encode i = none → step s = exec i { s with agenda := rest, subj := u, served := 0 })
    ∧ (∀ i u, s.agenda = .event i u :: rest → encode i ≠ none → step s = .next { s with agenda := rest })
    ∧ (s.agenda = .tick :: rest → ∃ t, step s = .next t ∧ t.beat = s.beat + 1 ∧ t.agenda = rest ∧ t.queues = s.queues
        ∧ (arraysRest s → s.link.reads = [] → t.mem = s.mem ∧ t.wq = s.wq ∧ t.jobs = s.jobs ∧ t.sems = s.sems
            ∧ ∀ c : Fin 64, t.cores[c] = if s.cores[c].flight = [] then s.cores[c] else s.cores[c].landDue (s.beat + 1)))

open Sys2Proof Sys2Proof.Machine Sys2Proof.Claims in
/-- Reset (Tables 1.4, 2.3, 3.2, 4.4, 4.5, 5.3, 7.2; R9, R15, R25, R55, R141, R161, R172). Memory that lists nothing reads 0, and the
temperature is 25 °C: the model's own choices (logs 2 and 7), as are the registers, STATUS and the full bits of a core before its first
pop (log 1). -/
def Obligations.ResetState : Prop :=
  let s := State.reset
  s.beat = 0 ∧ s.boot.state = 0 ∧ s.boot.failCount = 0 ∧ s.boot.retained = false ∧ (∀ i : Fin 4, s.boot.drvFeat[i] = 0)
  ∧ s.gov.stopped = false ∧ s.gov.board = { window := 0, peak := 0, sustain := 0, rampUp := 0, rampDown := 0, fallback := false }
  ∧ s.gov.ceilCores = 900 ∧ s.gov.ceilMatrix = 900 ∧ s.gov.ceilBank = 900 ∧ s.gov.ceilCopy = 900 ∧ s.gov.beReserve = 12
  ∧ s.gov.pmaxMatrix = 0x10000 ∧ s.gov.pmaxCores = 5200 ∧ s.gov.temperature = 250
  ∧ s.link.tdi = .unlocked ∧ s.link.session = false ∧ (∀ i : Fin 16, s.link.keys[i] = none)
  ∧ (∀ n, (s.queue n).enable = false ∧ (s.queue n).halt = false)
  ∧ (∀ c, c < 64 → (s.ctxAt c).live = false ∧ (s.ctxAt c).root = 0)
  ∧ (∀ d : Fin 48, s.mcs[d].ordShare = 1 ∧ s.mcs[d].pauseCycles = 0)
  ∧ (∀ c : Fin 64, s.cores[c].running = false ∧ (∀ i, s.cores[c].getS i = 0 ∧ s.cores[c].getV i = 0)
      ∧ s.cores[c].getK 0 = BitVec.allOnes 128 ∧ s.cores[c].status = 0 ∧ s.cores[c].flight = [] ∧ ∀ i : Fin 96, s.cores[c].isFull (BitVec.ofNat 8 i.val) = true)
  ∧ (∀ (y : Fin 8) (i : Fin 8), s.yards[y].stages[i].full = false) ∧ (∀ (y : Fin 8) (i : Fin 64), s.yards[y].lfmt[i].owned = false)
  ∧ (∀ e, (SMap.get ({} : Expert) s.experts e).state = 0) ∧ (∀ e, (SMap.get ({} : Prefix) s.prefixes e).state = 0)
  ∧ s.entries = [] ∧ s.jobs = [] ∧ s.ready = [] ∧ (∀ a, s.readByte a = 0 ∧ s.arrayByte a = 0) ∧ s.memoryWf

open Sys2Proof Sys2Proof.Machine Sys2Proof.Claims in
/-- R227, R238, R339, R359: every well-formed instruction is read back from its word, and every word, well formed or not, is the word of
the instruction it decodes to, so that no bit of it is lost. -/
def Obligations.DecodeAndEncodeAgree : Prop :=
  (∀ i w, i.wellFormed = true → encode i = some (.core w) → w < 2 ^ 64 ∧ decodeCore w = i ∧ decodeTableWord 64 w = some i)
  ∧ (∀ i w, i.wellFormed = true → encode i = some (.bank w) → w < 2 ^ 48 ∧ decodeBank w = i ∧ decodeTableWord 48 w = some i)
  ∧ (∀ w, w < 2 ^ 64 → encode (decodeCore w) = some (.core w))
  ∧ (∀ w, w < 2 ^ 48 → encode (decodeBank w) = some (.bank w))

open Sys2Proof Sys2Proof.Machine Sys2Proof.Claims in
/-- R80, R101: every step keeps memory and host memory in their canonical form, and only bytes of package memory wait in the write
queues (the form is the model's, logs 2 and 9). -/
def Obligations.MemoryFormKept : Prop := ∀ s t : State, s.memoryWf → step s = .next t → t.memoryWf

open Sys2Proof Sys2Proof.Machine Sys2Proof.Claims in
/-- R163, R164, R166, R173, R176, R233, R238: the causes that keep an instruction from its effect, in their order, and what retiring one
leaves alone: everything outside its core and the semaphore file, and in its core every special register and each register that nothing
in flight writes. That a mask is awaited and held back as R166 has it of s and v registers is deduced (log 20). -/
def Obligations.IssueAndRetire : Prop :=
  ∀ (r : Req) (body : State → Issue) (s : State) (b : Option Branch) (o : Outcome),
    let late := s.core.awaits (predSpec r.pred) = true
    let live := r.feature = true ∧ r.ok = true ∧ ¬ late ∧ (r.perLane = true ∨ s.core.predHolds r.pred = true)
    let full := (∀ x ∈ r.srcs, s.core.isFull x.1 = true ∧ s.core.awaits x.1 = false)
      ∧ ∀ d ∈ r.dsts, s.core.isFull d = true ∧ s.core.maskPending d = false
    (r.feature = false → issue r body s = .next (s.takeTrap { code := 0x01 }))
    ∧ (r.feature = true → r.ok = false → issue r body s = .next (s.takeTrap { code := 0x02 }))
    ∧ (r.feature = true → r.ok = true → late → issue r body s = .next s)
    ∧ (r.feature = true → r.ok = true → ¬ late → r.perLane = false → s.core.predHolds r.pred = false →
        issue r body s = .next (s.finish { r with srcs := [] } none {}))
    ∧ (live → (∃ x ∈ r.srcs, x.2 = true ∧ s.core.isFull x.1 = false) → issue r body s = .next (s.takeTrap { code := 0x03 }))
    ∧ (live → (∀ x ∈ r.srcs, x.2 = true → s.core.isFull x.1 = true) → ¬ full → issue r body s = .next s)
    ∧ (live → full → ((∃ x ∈ r.srcs, s.core.streamRead x.1 = 2) ∨ ∃ d ∈ r.dsts, s.core.streamWrite d = 2) →
        issue r body s = .next (s.takeTrap { code := 0x0B }))
    ∧ (live → full → (∀ x ∈ r.srcs, s.core.streamRead x.1 ≠ 2) → (∀ d ∈ r.dsts, s.core.streamWrite d ≠ 2) →
        let faults := (r.srcs.map (·.1) ++ r.dsts).findSome? s.core.streamFault
        (∀ f, faults = some f → issue r body s = .next (s.raiseStream f))
        ∧ (faults = none →
            let waits := (∃ x ∈ r.srcs, s.core.streamRead x.1 = 1 ∨ s.streamHeld x.1 = true) ∨ (∃ d ∈ r.dsts, s.core.streamWrite d = 1) ∨ s.core.heldBack r = true
            (waits → issue r body s = .next s)
            ∧ (¬ waits → 12 ≤ s.core.flight.length → r.dsts ≠ [] → issue r body s =
                .next (if s.core.resultsToCome s.beat then s else s.setCore (s.core.emptySlot s.beat)))))
    ∧ (r.ready s = true → ∀ u p, body s = .retire u p → issue r body s = .next (u.finish r none p))
    ∧ (s.unstepped → o.stepped.getD false = false →
        let t := s.finish r b o
        onlyCore s t ∧ quietCore s.core t.core
        ∧ ∀ i, untouched s.core o (BitVec.ofNat 8 i) → (i < 64 → t.core.getS i = s.core.getS i)
            ∧ (0x40 ≤ i → i < 0x60 → t.core.getV (i - 0x40) = s.core.getV (i - 0x40))
            ∧ (0xC0 ≤ i → i < 0xC8 → t.core.getK (i - 0xC0) = s.core.getK (i - 0xC0)))

open Sys2Proof Sys2Proof.Machine Sys2Proof.Claims in
/-- R176, R179, R127: no instruction and no event ends the run: each answers a next state, from every state. The one stop of a step is
R24's: with all clocks stopped the device waits for a cold start. That this stop is the fault clocksStopped (log 66), and which moves wake
the clocks and how a cold start leaves the device (log 52), are the model's own. -/
def Obligations.EveryInstructionAnswers : Prop :=
  (∀ (i : Instr) (s : State), ∃ t, exec i s = .next t)
  ∧ (∀ (s : State), s.gov.stopped = false → ∃ t, step s = .next t)
  ∧ (∀ (s : State), s.gov.stopped = true → ((∃ t, step s = .next t) ∧ wakes s.nextMove.1 = true)
      ∨ step s = .fault .clocksStopped ∧ wakes s.nextMove.1 = false)
  ∧ (∀ (s : State) (i : Instr) (u : Subject) (rest : List Action), s.gov.stopped = true → s.agenda = .event i u :: rest → wakes (.event i u) = true →
      let r := { s with agenda := rest, subj := u, served := 0 }
      ∃ t, step s = .next t ∧ comesTo i r t
        ∧ (i = .powerOn ∨ i = .pcieFundamentalReset ∨ i = .bootCtlColdStart 0x4B59 ∧ ¬ shutOut r u.src →
            startedAnew r t ∧ t.gov.stopped = false ∧ t.boot.state = 1 ∧ t.boot.warm = false ∧ t.mem = [])
        ∧ (i = .powerLoss → t = { State.reset with env := s.env, subj := u, agenda := rest, fresh := s.fresh }))
  ∧ (∀ (s : State), s.gov.stopped = true → s.agenda = [] → s.boot.state = 0 → step s = exec .powerOn { s with served := 0 })
end

