-- ==== Sys2Proof/Laws/Memory.lean ====
section
/-! SUPPORT. Memory as sparse maps: a read after a write, and that every memory operation keeps the canonical form (log 2). -/

namespace Sys2Proof.Machine

/-! ### Sparse maps -/

section
variable {α : Type} [DecidableEq α]

theorem SMap.wfFrom_mono (d : α) : ∀ (m : SMap α) (lo lo' : Nat), lo' ≤ lo → SMap.wfFrom d lo m = true → SMap.wfFrom d lo' m = true
  | [], _, _, _, _ => rfl
  | (k', x) :: m, lo, lo', hl, h => by
    simp only [SMap.wfFrom, Bool.and_eq_true, decide_eq_true_eq] at *
    exact ⟨⟨by omega, h.1.2⟩, h.2⟩

/-- Keeping some pairs keeps the canonical form. -/
theorem SMap.wfFrom_filter (d : α) (p : Nat × α → Bool) : ∀ (m : SMap α) (lo : Nat), SMap.wfFrom d lo m = true →
    SMap.wfFrom d lo (m.filter p) = true
  | [], _, _ => rfl
  | (k, x) :: m, lo, h => by
    simp only [SMap.wfFrom, Bool.and_eq_true, decide_eq_true_eq] at h
    simp only [List.filter_cons]
    split
    · simp only [SMap.wfFrom, Bool.and_eq_true, decide_eq_true_eq]
      exact ⟨h.1, SMap.wfFrom_filter d p m _ h.2⟩
    · exact SMap.wfFrom_filter d p m _ (SMap.wfFrom_mono d m _ _ (by omega) h.2)

theorem SMap.wf_filter (d : α) (p : Nat × α → Bool) (m : SMap α) (h : SMap.wf d m = true) : SMap.wf d (m.filter p) = true :=
  SMap.wfFrom_filter d p m 0 h

theorem SMap.wfFrom_put (d : α) (k : Nat) (x : α) (hx : x ≠ d) : ∀ (m : SMap α) (lo : Nat), SMap.wfFrom d lo m = true → lo ≤ k →
    SMap.wfFrom d lo (SMap.put m k x) = true
  | [], lo, _, hk => by simp [SMap.put, SMap.wfFrom, hx, hk]
  | (k', y) :: m, lo, h, hk => by
    simp only [SMap.wfFrom, Bool.and_eq_true, decide_eq_true_eq] at h
    simp only [SMap.put]
    split
    · simp only [SMap.wfFrom, Bool.and_eq_true, decide_eq_true_eq]
      exact ⟨⟨hk, hx⟩, ⟨by omega, h.1.2⟩, h.2⟩
    · split
      · rename_i h2
        subst h2
        simp only [SMap.wfFrom, Bool.and_eq_true, decide_eq_true_eq]
        exact ⟨⟨hk, hx⟩, h.2⟩
      · simp only [SMap.wfFrom, Bool.and_eq_true, decide_eq_true_eq]
        exact ⟨h.1, SMap.wfFrom_put d k x hx m (k' + 1) h.2 (by omega)⟩

/-- Writing keeps the canonical form. -/
theorem SMap.wf_set (d : α) (m : SMap α) (k : Nat) (x : α) (h : SMap.wf d m = true) : SMap.wf d (SMap.set d m k x) = true := by
  unfold SMap.set
  split
  · exact SMap.wf_filter d _ m h
  · exact SMap.wfFrom_put d k x ‹_› m 0 h (Nat.zero_le _)

omit [DecidableEq α] in
theorem SMap.get_put_same (d : α) (k : Nat) (x : α) : ∀ m : SMap α, SMap.get d (SMap.put m k x) k = x
  | [] => by simp [SMap.put, SMap.get]
  | (k', y) :: m => by
    simp only [SMap.put]
    split
    · simp [SMap.get]
    · split
      · simp [SMap.get]
      · rename_i h
        simp only [SMap.get]
        rw [if_neg (Ne.symm h)]
        exact SMap.get_put_same d k x m

omit [DecidableEq α] in
theorem SMap.get_put_other (d : α) (k j : Nat) (x : α) (hj : j ≠ k) : ∀ m : SMap α, SMap.get d (SMap.put m k x) j = SMap.get d m j
  | [] => by simp [SMap.put, SMap.get, Ne.symm hj]
  | (k', y) :: m => by
    simp only [SMap.put]
    split
    · simp [SMap.get, Ne.symm hj]
    · split
      · rename_i h
        subst h
        simp [SMap.get, Ne.symm hj]
      · simp only [SMap.get]
        split
        · rfl
        · exact SMap.get_put_other d k j x hj m

omit [DecidableEq α] in
theorem SMap.get_without (d : α) (k j : Nat) : ∀ m : SMap α,
    SMap.get d (m.filter fun y => decide (y.1 ≠ k)) j = if j = k then d else SMap.get d m j
  | [] => by simp [SMap.get]
  | (k', y) :: m => by
    have ih := SMap.get_without d k j m
    simp only [List.filter_cons]
    split
    · rename_i h
      simp only [decide_eq_true_eq] at h
      simp only [SMap.get, ih]
      split
      · rename_i h2
        rw [if_neg (by omega)]
      · rfl
    · rename_i h
      simp only [decide_eq_true_eq, Decidable.not_not] at h
      rw [ih]
      split
      · rfl
      · simp only [SMap.get]
        rw [if_neg (by omega)]

/-- A read after a write to the same place gives the value written. -/
theorem SMap.get_set_same (d : α) (m : SMap α) (k : Nat) (x : α) : SMap.get d (SMap.set d m k x) k = x := by
  unfold SMap.set
  split
  · rw [SMap.get_without, if_pos rfl]
    exact Eq.symm ‹_›
  · exact SMap.get_put_same d k x m

/-- A write leaves every other place alone. -/
theorem SMap.get_set_other (d : α) (m : SMap α) (k j : Nat) (x : α) (hj : j ≠ k) : SMap.get d (SMap.set d m k x) j = SMap.get d m j := by
  unfold SMap.set
  split
  · rw [SMap.get_without, if_neg hj]
  · exact SMap.get_put_other d k j x hj m

end

/-! ### Memory -/

theorem Memory.wf_write (m : Memory) (a : Nat) (b : Byte) (h : Memory.wf m = true) : Memory.wf (Memory.write m a b) = true :=
  SMap.wf_set _ _ _ _ h

theorem Memory.read_write_same (m : Memory) (a : Nat) (b : Byte) : Memory.read (Memory.write m a b) a = b :=
  SMap.get_set_same _ _ _ _

theorem Memory.read_write_other (m : Memory) (a c : Nat) (b : Byte) (hc : c ≠ a) :
    Memory.read (Memory.write m a b) c = Memory.read m c := SMap.get_set_other _ _ _ _ _ hc

theorem Memory.wf_foldl (cs : List (Nat × Byte)) (m : Memory) (h : Memory.wf m = true) :
    Memory.wf (cs.foldl (fun m x => Memory.write m x.1 x.2) m) = true := by
  induction cs generalizing m with
  | nil => exact h
  | cons c cs ih => exact ih _ (Memory.wf_write m c.1 c.2 h)

theorem Memory.wf_writes (cs : List Host.Cell) (m : Memory) (h : Memory.wf m = true) :
    Memory.wf (cs.foldr (fun c m => Memory.write m c.1 c.2) m) = true := by
  induction cs with
  | nil => exact h
  | cons c cs ih => exact Memory.wf_write _ _ _ ih

/-- The newest byte of a queue that is written into the arrays is what a reader finds there. -/
theorem Memory.read_writes (a : Nat) (m : Memory) : ∀ cs : List Host.Cell,
    Memory.read (cs.foldr (fun c m => Memory.write m c.1 c.2) m) a = (queuedByte cs a).getD (Memory.read m a)
  | [] => rfl
  | (a', b) :: cs => by
    simp only [List.foldr_cons, queuedByte]
    split
    · rename_i hx
      subst hx
      exact Memory.read_write_same _ _ _
    · rename_i hx
      rw [Memory.read_write_other _ _ _ _ (by omega)]
      exact Memory.read_writes a m cs

theorem putBus_wf : ∀ (bs : List Byte) (m : List Host.Cell) (a : Nat), SMap.wf (0 : Byte) m = true → SMap.wf (0 : Byte) (putBus m a bs) = true
  | [], _, _, h => h
  | _ :: bs, _, _, h => putBus_wf bs _ _ (SMap.wf_set _ _ _ _ h)

theorem queuedByte_filter_ne (wq : List Host.Cell) (a c : Nat) (h : c ≠ a) :
    queuedByte (wq.filter fun x => decide (x.1 ≠ a)) c = queuedByte wq c := by
  induction wq with
  | nil => rfl
  | cons x wq ih =>
    obtain ⟨k, b⟩ := x
    simp only [List.filter_cons]
    split
    · simp only [queuedByte, ih]
    · rename_i hk
      have : k = a := by simpa using hk
      simp only [queuedByte]
      rw [if_neg (by omega), ih]

theorem queuedByte_of_not (wq : List Host.Cell) (a : Nat) (h : ∀ c ∈ wq, c.1 ≠ a) : queuedByte wq a = none := by
  induction wq with
  | nil => rfl
  | cons x wq ih =>
    obtain ⟨k, b⟩ := x
    simp only [queuedByte]
    rw [if_neg (h _ List.mem_cons_self)]
    exact ih fun c hc => h c (List.mem_cons_of_mem _ hc)

/-! ### The operations of State -/

/-- The state right after power is applied has memory in its canonical form. -/
theorem State.reset_memoryWf : State.reset.memoryWf := ⟨rfl, rfl, by simp [State.reset]⟩

/-- States that agree on memory agree on its form. -/
theorem State.memoryWf_congr {s t : State} (hm : t.mem = s.mem) (hq : t.wq = s.wq) (he : t.env.hostMem = s.env.hostMem) (h : s.memoryWf) :
    t.memoryWf := by
  unfold State.memoryWf at *
  rwa [hm, hq, he]

theorem State.memoryWf_writeByte (s : State) (a : Nat) (b : Byte) (h : s.memoryWf) : (s.writeByte a b).memoryWf := by
  unfold State.writeByte
  split
  · exact h
  · split
    · rename_i hr
      refine ⟨h.1, h.2.1, fun c hc => ?_⟩
      rcases List.mem_cons.1 hc with rfl | hc
      · exact hr
      · exact h.2.2 c hc
    · exact ⟨Memory.wf_write _ _ _ h.1, h.2⟩
    · exact h

theorem State.memoryWf_writeArray (s : State) (a : Nat) (b : Byte) (h : s.memoryWf) : (s.writeArray a b).memoryWf := by
  unfold State.writeArray
  split
  · exact h
  · exact ⟨Memory.wf_write _ _ _ h.1, h.2.1, fun c hc => h.2.2 c ((List.mem_filter.1 hc).1)⟩

theorem State.memoryWf_writeBytes : ∀ (bs : List Byte) (s : State) (a : Nat), s.memoryWf → (s.writeBytes a bs).memoryWf
  | [], _, _, h => h
  | b :: bs, s, a, h => State.memoryWf_writeBytes bs _ _ (s.memoryWf_writeByte a b h)

theorem State.memoryWf_putBytes (s : State) (pas : List Nat) (bs : List Byte) (h : s.memoryWf) : (s.putBytes pas bs).memoryWf := by
  unfold State.putBytes
  induction pas.zip bs generalizing s with
  | nil => exact h
  | cons x xs ih => exact ih _ (s.memoryWf_writeByte _ _ h)

theorem State.memoryWf_flush (s : State) (now : Nat → Bool) (h : s.memoryWf) : (s.flush now).memoryWf :=
  ⟨Memory.wf_writes _ _ h.1, h.2.1, fun c hc => h.2.2 c (List.mem_filter.1 hc).1⟩

theorem State.memoryWf_drainWrites (s : State) (h : s.memoryWf) : s.drainWrites.memoryWf := s.memoryWf_flush _ h

theorem State.memoryWf_drainLine (s : State) (h : s.memoryWf) : s.drainLine.memoryWf := by
  unfold State.drainLine
  split
  · exact h
  · split
    · exact h
    · exact ⟨Memory.wf_foldl _ _ h.1, h.2.1, fun c hc => h.2.2 c (List.mem_of_mem_take hc)⟩

theorem State.memoryWf_writeBus (s : State) (a : Nat) (bs : List Byte) (h : s.memoryWf) : (s.writeBus a bs).memoryWf :=
  ⟨h.1, putBus_wf _ _ _ h.2.1, h.2.2⟩

theorem State.memoryWf_scrub (s : State) (a n : Nat) (h : s.memoryWf) : (s.scrub a n).memoryWf :=
  ⟨SMap.wf_filter _ _ _ h.1, h.2.1, fun c hc => h.2.2 c ((List.mem_filter.1 hc).1)⟩

theorem State.memoryWf_scrubHeld (s : State) (ctx entry : Nat) (h : s.memoryWf) : (s.scrubHeld ctx entry).memoryWf := by
  unfold State.scrubHeld
  exact ⟨SMap.wf_filter _ _ _ h.1, h.2.1, fun c hc => h.2.2 c ((List.mem_filter.1 hc).1)⟩

/-- The bytes of the loft cleared at a start (R32). -/
theorem Memory.wf_clear (m : Memory) (a n : Nat) (h : Memory.wf m = true) : Memory.wf (Memory.clear m a n) = true :=
  SMap.wf_filter _ _ _ h

/-! ### What a byte reads after a write -/

@[simp] theorem State.heldAt_writeByte (s : State) (a c : Nat) (b : Byte) : (s.writeByte a b).heldAt c = s.heldAt c := by
  unfold State.writeByte
  split
  · rfl
  · split <;> rfl

/-- A write to memory that is not held is what a reader finds. -/
theorem State.readByte_writeByte_same (s : State) (a : Nat) (b : Byte) (h : s.memoryWf) (hh : s.heldAt a = false)
    (hr : regionOf a = .package ∨ regionOf a = .loft) : (s.writeByte a b).readByte a = b := by
  rcases hr with hr | hr
  · have hw : s.writeByte a b = { s with wq := (a, b) :: s.wq } := by
      unfold State.writeByte
      rw [if_neg (by simp [hh]), hr]
    have hk : (s.writeByte a b).heldAt a = false := by rw [State.heldAt_writeByte, hh]
    unfold State.readByte
    rw [hk, hw]
    simp [queuedByte]
  · have hw : s.writeByte a b = { s with mem := Memory.write s.mem a b } := by
      unfold State.writeByte
      rw [if_neg (by simp [hh]), hr]
    have hk : (s.writeByte a b).heldAt a = false := by rw [State.heldAt_writeByte, hh]
    have hq : queuedByte s.wq a = none := queuedByte_of_not _ _ fun c hc he => by
      have := h.2.2 c hc
      rw [he, hr] at this
      exact absurd this (by decide)
    unfold State.readByte
    rw [hk, hw]
    simp [hq, Memory.read_write_same]

/-- A write leaves every other byte alone. -/
theorem State.readByte_writeByte_other (s : State) (a c : Nat) (b : Byte) (hc : c ≠ a) :
    (s.writeByte a b).readByte c = s.readByte c := by
  unfold State.readByte
  rw [State.heldAt_writeByte]
  congr 1
  unfold State.writeByte
  split
  · rfl
  · split
    · simp only [queuedByte]
      rw [if_neg (by omega)]
    · rw [Memory.read_write_other _ _ _ _ hc]
    · rfl

/-- What a queue holds for an address, of the entries that a test on addresses keeps. -/
theorem queuedByte_filter (keep : Nat → Bool) (a : Nat) : ∀ wq : List Host.Cell,
    queuedByte (wq.filter fun c => keep c.1) a = if keep a then queuedByte wq a else none
  | [] => by simp [queuedByte]
  | (k, b) :: wq => by
    simp only [List.filter_cons, queuedByte]
    have ih := queuedByte_filter keep a wq
    by_cases hk : keep k
    · rw [if_pos hk]
      simp only [queuedByte]
      by_cases he : k = a
      · simp [he, he ▸ hk]
      · simp [he, ih]
    · rw [if_neg hk, ih]
      by_cases he : k = a
      · subst he
        simp [hk]
      · simp [he]

/-- Waiting writes that enter the arrays change nothing that a reader at the coherence point gets (R101). -/
theorem State.readByte_flush (s : State) (now : Nat → Bool) (a : Nat) : (s.flush now).readByte a = s.readByte a := by
  have hh : (s.flush now).heldAt a = s.heldAt a := rfl
  unfold State.readByte
  rw [hh]
  congr 1
  unfold State.flush
  simp only [Memory.read_writes, queuedByte_filter now, queuedByte_filter fun x => !(now x)]
  by_cases hn : now a <;> simp [hn]

/-- Draining the write queues changes nothing that a reader at the coherence point gets (R101). -/
theorem State.readByte_drainWrites (s : State) (a : Nat) : s.drainWrites.readByte a = s.readByte a := s.readByte_flush _ a

/-- After a drain the arrays hold what a reader at the coherence point gets, but for a bank in refresh (R13). -/
theorem State.arrayByte_drainWrites (s : State) (a : Nat) (hr : s.refreshing a = false) : s.drainWrites.arrayByte a = s.readByte a := by
  rw [← s.readByte_drainWrites a]
  have hq : queuedByte s.drainWrites.wq a = none := by
    show queuedByte (s.wq.filter fun c => !(!(s.refreshing c.1))) a = none
    rw [queuedByte_filter fun x => !(!(s.refreshing x))]
    simp [hr]
  unfold State.arrayByte State.readByte
  rw [hq]
  rfl

end Sys2Proof.Machine
end

