-- ==== Sys2Proof/Laws/Access.lean ====
section
/-! SUPPORT. What checking accesses can change (R84, R96, R97), how many addresses it gives, and what storing bytes leaves. -/

namespace Sys2Proof.Machine

/-! ### Parts of an access -/

theorem upFrom_length (a n : Nat) : (upFrom a n).length = n := by simp [upFrom]

theorem pieces_sum : ∀ (fuel va n : Nat), n ≤ 4096 * (fuel - 1) + (4096 - va % 4096) → (fuel = 0 → n = 0) →
    ((pieces fuel va n).map (·.2)).sum = n
  | 0, _, n, _, h0 => by simp [pieces, h0 rfl]
  | fuel + 1, va, n, h, _ => by
    simp only [pieces]
    split
    · simp [*]
    · split
      · simp
      · rename_i h1 h2
        have hm : (va + (4096 - va % 4096)) % 2 ^ 64 % 4096 = 0 := by
          rw [Nat.mod_mod_of_dvd _ (by decide : 4096 ∣ 2 ^ 64)]
          omega
        rw [List.map_cons, List.sum_cons, pieces_sum fuel _ _ (by rw [hm]; omega) (by omega)]
        dsimp only
        omega

/-- The parts of an access hold its bytes. -/
theorem piecesOf_sum (va n : Nat) : ((piecesOf va n).map (·.2)).sum = n :=
  pieces_sum _ _ _ (by have := Nat.mod_lt va (by decide : 4096 > 0); omega) (by omega)

theorem translateAll_lens : ∀ (xs : List (Nat × Nat)) (s : State) (a : Access), (translateAll s a xs).2.map (·.len) = xs.map (·.2)
  | [], _, _ => rfl
  | (va, n) :: xs, s, a => by
    simp only [translateAll, List.map_cons]
    rw [translateAll_lens xs]

theorem least_none {xs : List Nat} (h : least xs = none) : xs = [] := by
  cases xs with
  | nil => rfl
  | cons x xs => simp only [least] at h; split at h <;> simp at h

/-- A number of faults without a least one is none. -/
theorem partsFault_none {ps : List Part} (h : partsFault ps = none) :
    ∀ p ∈ ps, p.res ≠ .error codeTranslation ∧ p.res ≠ .error codePermission ∧ p.res ≠ .error codeMemtype := by
  unfold partsFault at h
  split at h
  · simp at h
  · rename_i h1
    split at h
    · simp at h
    · rename_i h2
      have h3 : least (faultsWith codeMemtype ps) = none := by simpa using h
      have key : ∀ code, least (faultsWith code ps) = none → ∀ p ∈ ps, p.res ≠ .error code := by
        intro code hc p hp he
        have := least_none hc
        unfold faultsWith at this
        rw [List.filterMap_eq_nil_iff] at this
        have := this p hp
        simp [he] at this
      exact fun p hp => ⟨key _ h1 p hp, key _ h2 p hp, key _ h3 p hp⟩

/-! ### What translation changes -/

/-- One state came from another by translations: only memory's marks, the translation caches and what counts the columns that walks fetch
differ, and memory keeps its form. -/
def State.walked (s t : State) : Prop :=
  t = { s with mem := t.mem, wq := t.wq, yards := t.yards, mcs := t.mcs, eccCount := t.eccCount, served := t.served,
               readBeat := t.readBeat, readChannels := t.readChannels }
  ∧ (∀ y : Fin 8, t.yards[y] = { s.yards[y] with tlb := t.yards[y].tlb })
  ∧ (∀ d : Fin 48, t.mcs[d] = { s.mcs[d] with tlb := t.mcs[d].tlb, correctedEcc := t.mcs[d].correctedEcc })
  ∧ (s.memoryWf → t.memoryWf)

theorem State.walked_refl (s : State) : s.walked s := ⟨rfl, fun _ => rfl, fun _ => rfl, id⟩

theorem State.walked_trans {s t u : State} (h : s.walked t) (g : t.walked u) : s.walked u := by
  refine ⟨?_, fun y => ?_, fun d => ?_, fun hs => g.2.2.2 (h.2.2.2 hs)⟩
  · rw [g.1, h.1]
  · rw [g.2.1 y, h.2.1 y]
  · rw [g.2.2.1 d, h.2.2.1 d]

theorem State.walked_core {s t : State} (h : s.walked t) : t.core = s.core := by
  rw [h.1]
  rfl

theorem State.walked_subj {s t : State} (h : s.walked t) : t.subj = s.subj := by rw [h.1]

theorem State.walked_ctxs {s t : State} (h : s.walked t) : t.ctxs = s.ctxs := by rw [h.1]

theorem State.walked_writeByte (s : State) (a : Nat) (b : Byte) : s.walked (s.writeByte a b) := by
  refine ⟨?_, ?_, ?_, s.memoryWf_writeByte a b⟩ <;> unfold State.writeByte <;> split
  all_goals first
    | rfl
    | exact fun _ => rfl
    | (split <;> first | rfl | exact fun _ => rfl)

theorem State.walked_writeBytes : ∀ (bs : List Byte) (s : State) (a : Nat), s.walked (s.writeBytes a bs)
  | [], s, _ => s.walked_refl
  | b :: bs, s, a => State.walked_trans (s.walked_writeByte a b) (State.walked_writeBytes bs _ _)

theorem State.walked_setTlb (s : State) (c : CacheId) (x : List Tlb) : s.walked (s.setTlb c x) := by
  cases c with
  | yard y =>
    refine ⟨rfl, fun z => ?_, fun _ => rfl, State.memoryWf_congr rfl rfl rfl⟩
    simp only [State.setTlb, Fin.getElem_fin, Vector.getElem_set]
    split
    · rename_i he
      simp [he]
    · rfl
  | mcs d =>
    refine ⟨rfl, fun _ => rfl, fun z => ?_, State.memoryWf_congr rfl rfl rfl⟩
    simp only [State.setTlb, Fin.getElem_fin, Vector.getElem_set]
    split
    · rename_i he
      simp [he]
    · rfl

theorem State.walked_countColumn (s : State) (c : Nat) : s.walked (s.countColumn c) := by
  refine ⟨rfl, fun _ => rfl, fun z => ?_, State.memoryWf_congr rfl rfl rfl⟩
  simp only [State.countColumn, vset, vget]
  split
  · simp only [Fin.getElem_fin, Vector.getElem_set]
    split
    · rename_i he
      simp [he]
    · rfl
  · rfl

/-- Counting the errors that ECC corrects changes only the counts (R12, R131). -/
theorem State.walked_countEcc (s : State) (cs : List Nat) : s.walked (s.countEcc cs) := by
  unfold State.countEcc
  generalize cs.filter s.env.softColumns.contains = xs
  induction xs generalizing s with
  | nil => exact s.walked_refl
  | cons c xs ih => exact State.walked_trans (s.walked_countColumn c) (ih _)

/-- An ordinary read changes only what counts the columns that it fetches (R12, R13, R73). -/
theorem State.walked_ordinaryRead (s : State) (pas : List Nat) : s.walked (s.ordinaryRead pas) := by
  unfold State.ordinaryRead
  split
  · exact s.walked_refl
  · exact State.walked_trans (s.walked_countEcc _) ⟨rfl, fun _ => rfl, fun _ => rfl, State.memoryWf_congr rfl rfl rfl⟩

theorem walkInto_walked (s : State) (c : CacheId) (ctx va : Nat) (write : Bool) : s.walked (walkInto s c ctx va write).1 := by
  unfold walkInto
  have hr := s.walked_ordinaryRead (walkReads s va 3 (vget {} s.ctxs ctx).root)
  generalize s.ordinaryRead (walkReads s va 3 (vget {} s.ctxs ctx).root) = t at hr
  dsimp only
  refine State.walked_trans hr ?_
  split
  · exact t.walked_refl
  · have key : ∀ (p : Prop) [Decidable p] (a : Nat) (bs : List Byte), t.walked (if p then t else t.writeBytes a bs) := by
      intro p _ a bs
      split
      · exact t.walked_refl
      · exact State.walked_writeBytes _ _ _
    exact State.walked_trans (key _ _ _) (State.walked_setTlb _ _ _)

theorem lookup_walked (s : State) (c : CacheId) (ctx va : Nat) (write : Bool) : s.walked (lookup s c ctx va write).1 := by
  unfold lookup
  split
  · split
    · exact walkInto_walked _ _ _ _ _
    · exact State.walked_setTlb _ _ _
  · exact walkInto_walked _ _ _ _ _

theorem translate_walked (s : State) (a : Access) (va : Nat) : s.walked (translate s a va).1 := by
  unfold translate
  have hl := lookup_walked s a.cache a.ctx va a.need.writes
  split
  · exact s.walked_refl
  · split
    · rename_i t heq
      rw [heq] at hl
      exact hl
    · rename_i t x heq
      rw [heq] at hl
      dsimp only
      split
      · exact hl
      · split <;> exact hl

theorem translateAll_walked : ∀ (xs : List (Nat × Nat)) (s : State) (a : Access), s.walked (translateAll s a xs).1
  | [], s, _ => s.walked_refl
  | (va, _) :: xs, s, a => State.walked_trans (translate_walked s a va) (translateAll_walked xs _ a)

theorem markDirty_walked : ∀ (ps : List Part) (s : State) (a : Access), s.walked (markDirty s a ps)
  | [], s, _ => s.walked_refl
  | p :: ps, s, a => by
    unfold markDirty
    split
    · split
      · exact markDirty_walked ps s a
      · exact State.walked_trans (walkInto_walked _ _ _ _ _) (markDirty_walked ps _ a)
    · exact markDirty_walked ps s a

/-- Checking accesses changes only marks and caches. -/
theorem reach_walked (s : State) (a : Access) (spans : List Span) : s.walked (reach s a spans).1 := by
  unfold reach
  have h := translateAll_walked (spans.flatMap fun x => piecesOf x.va x.len) s a
  split
  rename_i t all heq
  rw [heq] at h
  dsimp only
  split
  · exact h
  · dsimp only
    split
    · exact State.walked_trans h (markDirty_walked _ _ _)
    · exact h

/-! ### How many addresses checking gives -/

theorem translate_codes (s : State) (a : Access) (va : Nat) (c : BitVec 8) (h : (translate s a va).2 = .error c) :
    c = codeTranslation ∨ c = codePermission ∨ c = codeMemtype := by
  unfold translate at h
  split at h
  · simp only [Except.error.injEq] at h
    exact .inl h.symm
  · split at h
    · simp only [Except.error.injEq] at h
      exact .inl h.symm
    · dsimp only at h
      split at h
      · simp only [Except.error.injEq] at h
        exact .inr (.inl h.symm)
      · split at h
        · simp only [Except.error.injEq] at h
          exact .inr (.inr h.symm)
        · simp at h

theorem translateAll_codes : ∀ (xs : List (Nat × Nat)) (s : State) (a : Access), ∀ p ∈ (translateAll s a xs).2, ∀ c, p.res = .error c →
    c = codeTranslation ∨ c = codePermission ∨ c = codeMemtype
  | [], _, _, p, hp, _, _ => by simp [translateAll] at hp
  | (va, n) :: xs, s, a, p, hp, c, hc => by
    simp only [translateAll, List.mem_cons] at hp
    rcases hp with rfl | hp
    · exact translate_codes s a va c hc
    · exact translateAll_codes xs _ a p hp c hc

theorem partBytes_length : ∀ ps : List Part, (∀ p ∈ ps, ∀ c, p.res ≠ .error c) → (partBytes ps).length = (ps.map (·.len)).sum
  | [], _ => rfl
  | p :: ps, h => by
    have ih := partBytes_length ps fun q hq => h q (List.mem_cons_of_mem _ hq)
    unfold partBytes at *
    rw [List.flatMap_cons, List.length_append, ih, List.map_cons, List.sum_cons]
    congr 1
    split
    · simp [upFrom]
    · rename_i c hc
      exact absurd hc (h p List.mem_cons_self c)

theorem partsBySpan_spans : ∀ (xs : List Span) (ps : List Part), (partsBySpan xs ps).map (·.1) = xs
  | [], _ => rfl
  | x :: xs, ps => by simp [partsBySpan, partsBySpan_spans xs]

theorem partsBySpan_mem : ∀ (xs : List Span) (ps : List Part), ∀ q ∈ partsBySpan xs ps, ∀ p ∈ q.2, p ∈ ps
  | [], _, q, hq => by simp [partsBySpan] at hq
  | x :: xs, ps, q, hq => by
    simp only [partsBySpan, List.mem_cons] at hq
    rcases hq with rfl | hq
    · exact fun p hp => List.mem_of_mem_take hp
    · exact fun p hp => List.mem_of_mem_drop (partsBySpan_mem xs _ q hq p hp)

theorem partsBySpan_lens : ∀ (xs : List Span) (ps : List Part), (∀ q ∈ partsBySpan xs ps, ∀ p ∈ q.2, ∀ c, p.res ≠ .error c) →
    ps.map (·.len) = (xs.flatMap fun x => piecesOf x.va x.len).map (·.2) →
    ∀ q ∈ partsBySpan xs ps, (partBytes q.2).length = q.1.len
  | [], _, _, _, q, hq => by simp [partsBySpan] at hq
  | x :: xs, ps, h, hl, q, hq => by
    simp only [partsBySpan, List.mem_cons] at hq
    rw [List.flatMap_cons, List.map_append] at hl
    have h1 : (ps.take (piecesOf x.va x.len).length).map (·.len) = (piecesOf x.va x.len).map (·.2) := by
      rw [List.map_take, hl]
      exact List.take_left' (by simp)
    have h2 : (ps.drop (piecesOf x.va x.len).length).map (·.len) = (xs.flatMap fun x => piecesOf x.va x.len).map (·.2) := by
      rw [List.map_drop, hl]
      exact List.drop_left' (by simp)
    rcases hq with rfl | hq
    · rw [partBytes_length _ (fun p hp => h _ List.mem_cons_self p hp), h1, piecesOf_sum]
    · exact partsBySpan_lens xs _ (fun r hr => h r (List.mem_cons_of_mem _ hr)) h2 q hq

theorem lowestFault_none : ∀ {xs : List (BitVec 8 × Nat)}, lowestFault xs = none → xs = []
  | [], _ => rfl
  | _ :: xs, h => by
    unfold lowestFault at h
    split at h <;> simp at h

/-- Spans that meet no fault have no part that fails. -/
theorem reach_none {all : List Part} {each : List (Span × List Part)} {lanes : Bool}
    (h : (if lanes then lowestFault (each.filterMap spanFault) else wholeFault all each) = none) (hm : ∀ q ∈ each, ∀ p ∈ q.2, p ∈ all) :
    ∀ q ∈ each, ∀ p ∈ q.2, p.res ≠ .error codeTranslation ∧ p.res ≠ .error codePermission ∧ p.res ≠ .error codeMemtype := by
  intro q hq p hp
  split at h
  · have hn : spanFault q = none := by
      have := lowestFault_none h
      rw [List.filterMap_eq_nil_iff] at this
      exact this q hq
    unfold spanFault at hn
    split at hn
    · simp at hn
    · rename_i hf
      exact partsFault_none hf p hp
  · unfold wholeFault at h
    split at h
    · simp at h
    · rename_i hf
      exact partsFault_none hf p (hm q hq p hp)

/-- Accesses that may be made have one address for each of their bytes. -/
theorem reach_lengths {s t : State} {a : Access} {spans : List Span} {pas : List (List Nat)} (h : reach s a spans = (t, .ok pas)) :
    pas.map (·.length) = spans.map (·.len) := by
  unfold reach at h
  generalize hta : translateAll s a (spans.flatMap fun x => piecesOf x.va x.len) = r at h
  obtain ⟨u, all⟩ := r
  dsimp only at h
  split at h
  · simp at h
  · rename_i hf
    simp only [Prod.mk.injEq, Except.ok.injEq] at h
    have hall : all = (translateAll s a (spans.flatMap fun x => piecesOf x.va x.len)).2 := by rw [hta]
    have hm := partsBySpan_mem spans all
    have hn := reach_none hf hm
    have hok : ∀ q ∈ partsBySpan spans all, ∀ p ∈ q.2, ∀ c, p.res ≠ .error c := by
      intro q hq p hp c hc
      have hn := hn q hq p hp
      rcases translateAll_codes _ s a p (hall ▸ hm q hq p hp) c hc with rfl | rfl | rfl
      · exact hn.1 hc
      · exact hn.2.1 hc
      · exact hn.2.2 hc
    have hl : all.map (·.len) = (spans.flatMap fun x => piecesOf x.va x.len).map (·.2) := by
      rw [hall]
      exact translateAll_lens _ _ _
    have hp := partsBySpan_lens spans all hok hl
    rw [← h.2, List.map_map]
    conv => rhs; rw [← partsBySpan_spans spans all, List.map_map]
    exact List.map_congr_left hp

/-! ### Storing bytes -/

theorem State.putBytes_cons (s : State) (a : Nat) (b : Byte) (as : List Nat) (bs : List Byte) :
    s.putBytes (a :: as) (b :: bs) = (s.writeByte a b).putBytes as bs := rfl

theorem State.walked_putBytes : ∀ (as : List Nat) (bs : List Byte) (s : State), s.walked (s.putBytes as bs)
  | [], _, s => s.walked_refl
  | _ :: _, [], s => s.walked_refl
  | a :: as, b :: bs, s => State.walked_trans (s.walked_writeByte a b) (State.walked_putBytes as bs _)

/-- Bytes outside the stored ones read as before. -/
theorem State.readByte_putBytes_other (c : Nat) : ∀ (as : List Nat) (bs : List Byte) (s : State), c ∉ as →
    (s.putBytes as bs).readByte c = s.readByte c
  | [], _, _, _ => rfl
  | _ :: _, [], _, _ => rfl
  | a :: as, b :: bs, s, hc => by
    rw [State.putBytes_cons, State.readByte_putBytes_other c as bs _ (fun hm => hc (List.mem_cons_of_mem _ hm)),
      State.readByte_writeByte_other s a c b (fun e => hc (e ▸ List.mem_cons_self))]

theorem State.heldAt_putBytes (c : Nat) : ∀ (as : List Nat) (bs : List Byte) (s : State), (s.putBytes as bs).heldAt c = s.heldAt c
  | [], _, _ => rfl
  | _ :: _, [], _ => rfl
  | a :: as, b :: bs, s => by rw [State.putBytes_cons, State.heldAt_putBytes c as bs, State.heldAt_writeByte]

/-- The byte stored last at an address is what a reader finds there. -/
theorem State.readByte_putBytes_last (c : Nat) : ∀ (as : List Nat) (bs : List Byte) (s : State) (j : Nat) (b : Byte), s.memoryWf →
    as[j]? = some c → bs[j]? = some b → c ∉ as.drop (j + 1) → s.heldAt c = false → (regionOf c = .package ∨ regionOf c = .loft) →
    (s.putBytes as bs).readByte c = b
  | [], _, _, _, _, _, ha, _, _, _, _ => by simp at ha
  | _ :: _, [], _, _, _, _, _, hb, _, _, _ => by simp at hb
  | a :: as, x :: bs, s, 0, b, h, ha, hb, hn, hh, hr => by
    simp only [List.getElem?_cons_zero, Option.some.injEq] at ha hb
    subst ha hb
    rw [State.putBytes_cons, State.readByte_putBytes_other _ _ _ _ (by simpa using hn),
      State.readByte_writeByte_same s _ _ h hh hr]
  | a :: as, x :: bs, s, j + 1, b, h, ha, hb, hn, hh, hr => by
    rw [State.putBytes_cons]
    exact State.readByte_putBytes_last c as bs _ j b (s.memoryWf_writeByte a x h) (by simpa using ha) (by simpa using hb)
      (by simpa using hn) (by rw [State.heldAt_writeByte]; exact hh) hr

end Sys2Proof.Machine
end

