-- ==== Sys2Proof/Laws/State.lean ====
section
/-! SUPPORT. What each update of State leaves as it was: one lemma per update and field, so that no proof unfolds a record
update. -/

namespace Sys2Proof.Machine

@[simp] theorem State.setCore_beat (s : State) (c : Core) : (s.setCore c).beat = s.beat := rfl
@[simp] theorem State.setCore_boot (s : State) (c : Core) : (s.setCore c).boot = s.boot := rfl
@[simp] theorem State.setCore_link (s : State) (c : Core) : (s.setCore c).link = s.link := rfl
@[simp] theorem State.setCore_env (s : State) (c : Core) : (s.setCore c).env = s.env := rfl
@[simp] theorem State.setCore_gov (s : State) (c : Core) : (s.setCore c).gov = s.gov := rfl
@[simp] theorem State.setCore_mem (s : State) (c : Core) : (s.setCore c).mem = s.mem := rfl
@[simp] theorem State.setCore_wq (s : State) (c : Core) : (s.setCore c).wq = s.wq := rfl
@[simp] theorem State.setCore_queues (s : State) (c : Core) : (s.setCore c).queues = s.queues := rfl
@[simp] theorem State.setCore_ctxs (s : State) (c : Core) : (s.setCore c).ctxs = s.ctxs := rfl
@[simp] theorem State.setCore_sems (s : State) (c : Core) : (s.setCore c).sems = s.sems := rfl
@[simp] theorem State.setCore_pens (s : State) (c : Core) : (s.setCore c).pens = s.pens := rfl
@[simp] theorem State.setCore_yards (s : State) (c : Core) : (s.setCore c).yards = s.yards := rfl
@[simp] theorem State.setCore_mcs (s : State) (c : Core) : (s.setCore c).mcs = s.mcs := rfl
@[simp] theorem State.setCore_pauses (s : State) (c : Core) : (s.setCore c).pauses = s.pauses := rfl
@[simp] theorem State.setCore_entries (s : State) (c : Core) : (s.setCore c).entries = s.entries := rfl
@[simp] theorem State.setCore_launches (s : State) (c : Core) : (s.setCore c).launches = s.launches := rfl
@[simp] theorem State.setCore_ready (s : State) (c : Core) : (s.setCore c).ready = s.ready := rfl
@[simp] theorem State.setCore_jobs (s : State) (c : Core) : (s.setCore c).jobs = s.jobs := rfl
@[simp] theorem State.setCore_bankJobs (s : State) (c : Core) : (s.setCore c).bankJobs = s.bankJobs := rfl
@[simp] theorem State.setCore_experts (s : State) (c : Core) : (s.setCore c).experts = s.experts := rfl
@[simp] theorem State.setCore_prefixes (s : State) (c : Core) : (s.setCore c).prefixes = s.prefixes := rfl
@[simp] theorem State.setCore_prefixRefs (s : State) (c : Core) : (s.setCore c).prefixRefs = s.prefixRefs := rfl
@[simp] theorem State.setCore_blockTabs (s : State) (c : Core) : (s.setCore c).blockTabs = s.blockTabs := rfl
@[simp] theorem State.setCore_errors (s : State) (c : Core) : (s.setCore c).errors = s.errors := rfl
@[simp] theorem State.setCore_errorCount (s : State) (c : Core) : (s.setCore c).errorCount = s.errorCount := rfl
@[simp] theorem State.setCore_eccCount (s : State) (c : Core) : (s.setCore c).eccCount = s.eccCount := rfl
@[simp] theorem State.setCore_served (s : State) (c : Core) : (s.setCore c).served = s.served := rfl
@[simp] theorem State.setCore_readBeat (s : State) (c : Core) : (s.setCore c).readBeat = s.readBeat := rfl
@[simp] theorem State.setCore_readChannels (s : State) (c : Core) : (s.setCore c).readChannels = s.readChannels := rfl
@[simp] theorem State.setCore_firmAt (s : State) (c : Core) : (s.setCore c).firmAt = s.firmAt := rfl
@[simp] theorem State.setCore_sidecars (s : State) (c : Core) : (s.setCore c).sidecars = s.sidecars := rfl
@[simp] theorem State.setCore_fresh (s : State) (c : Core) : (s.setCore c).fresh = s.fresh := rfl
@[simp] theorem State.setCore_subj (s : State) (c : Core) : (s.setCore c).subj = s.subj := rfl
@[simp] theorem State.setCore_round (s : State) (c : Core) : (s.setCore c).round = s.round := rfl
@[simp] theorem State.setCore_agenda (s : State) (c : Core) : (s.setCore c).agenda = s.agenda := rfl

@[simp] theorem State.modCore_beat (s : State) (f : Core → Core) : (s.modCore f).beat = s.beat := rfl
@[simp] theorem State.modCore_boot (s : State) (f : Core → Core) : (s.modCore f).boot = s.boot := rfl
@[simp] theorem State.modCore_link (s : State) (f : Core → Core) : (s.modCore f).link = s.link := rfl
@[simp] theorem State.modCore_env (s : State) (f : Core → Core) : (s.modCore f).env = s.env := rfl
@[simp] theorem State.modCore_gov (s : State) (f : Core → Core) : (s.modCore f).gov = s.gov := rfl
@[simp] theorem State.modCore_mem (s : State) (f : Core → Core) : (s.modCore f).mem = s.mem := rfl
@[simp] theorem State.modCore_wq (s : State) (f : Core → Core) : (s.modCore f).wq = s.wq := rfl
@[simp] theorem State.modCore_queues (s : State) (f : Core → Core) : (s.modCore f).queues = s.queues := rfl
@[simp] theorem State.modCore_ctxs (s : State) (f : Core → Core) : (s.modCore f).ctxs = s.ctxs := rfl
@[simp] theorem State.modCore_sems (s : State) (f : Core → Core) : (s.modCore f).sems = s.sems := rfl
@[simp] theorem State.modCore_pens (s : State) (f : Core → Core) : (s.modCore f).pens = s.pens := rfl
@[simp] theorem State.modCore_yards (s : State) (f : Core → Core) : (s.modCore f).yards = s.yards := rfl
@[simp] theorem State.modCore_mcs (s : State) (f : Core → Core) : (s.modCore f).mcs = s.mcs := rfl
@[simp] theorem State.modCore_pauses (s : State) (f : Core → Core) : (s.modCore f).pauses = s.pauses := rfl
@[simp] theorem State.modCore_entries (s : State) (f : Core → Core) : (s.modCore f).entries = s.entries := rfl
@[simp] theorem State.modCore_launches (s : State) (f : Core → Core) : (s.modCore f).launches = s.launches := rfl
@[simp] theorem State.modCore_ready (s : State) (f : Core → Core) : (s.modCore f).ready = s.ready := rfl
@[simp] theorem State.modCore_jobs (s : State) (f : Core → Core) : (s.modCore f).jobs = s.jobs := rfl
@[simp] theorem State.modCore_bankJobs (s : State) (f : Core → Core) : (s.modCore f).bankJobs = s.bankJobs := rfl
@[simp] theorem State.modCore_experts (s : State) (f : Core → Core) : (s.modCore f).experts = s.experts := rfl
@[simp] theorem State.modCore_prefixes (s : State) (f : Core → Core) : (s.modCore f).prefixes = s.prefixes := rfl
@[simp] theorem State.modCore_prefixRefs (s : State) (f : Core → Core) : (s.modCore f).prefixRefs = s.prefixRefs := rfl
@[simp] theorem State.modCore_blockTabs (s : State) (f : Core → Core) : (s.modCore f).blockTabs = s.blockTabs := rfl
@[simp] theorem State.modCore_errors (s : State) (f : Core → Core) : (s.modCore f).errors = s.errors := rfl
@[simp] theorem State.modCore_errorCount (s : State) (f : Core → Core) : (s.modCore f).errorCount = s.errorCount := rfl
@[simp] theorem State.modCore_eccCount (s : State) (f : Core → Core) : (s.modCore f).eccCount = s.eccCount := rfl
@[simp] theorem State.modCore_served (s : State) (f : Core → Core) : (s.modCore f).served = s.served := rfl
@[simp] theorem State.modCore_readBeat (s : State) (f : Core → Core) : (s.modCore f).readBeat = s.readBeat := rfl
@[simp] theorem State.modCore_readChannels (s : State) (f : Core → Core) : (s.modCore f).readChannels = s.readChannels := rfl
@[simp] theorem State.modCore_firmAt (s : State) (f : Core → Core) : (s.modCore f).firmAt = s.firmAt := rfl
@[simp] theorem State.modCore_sidecars (s : State) (f : Core → Core) : (s.modCore f).sidecars = s.sidecars := rfl
@[simp] theorem State.modCore_fresh (s : State) (f : Core → Core) : (s.modCore f).fresh = s.fresh := rfl
@[simp] theorem State.modCore_subj (s : State) (f : Core → Core) : (s.modCore f).subj = s.subj := rfl
@[simp] theorem State.modCore_round (s : State) (f : Core → Core) : (s.modCore f).round = s.round := rfl
@[simp] theorem State.modCore_agenda (s : State) (f : Core → Core) : (s.modCore f).agenda = s.agenda := rfl

@[simp] theorem State.modCoreAt_beat (s : State) (i : Nat) (f : Core → Core) : (s.modCoreAt i f).beat = s.beat := rfl
@[simp] theorem State.modCoreAt_boot (s : State) (i : Nat) (f : Core → Core) : (s.modCoreAt i f).boot = s.boot := rfl
@[simp] theorem State.modCoreAt_link (s : State) (i : Nat) (f : Core → Core) : (s.modCoreAt i f).link = s.link := rfl
@[simp] theorem State.modCoreAt_env (s : State) (i : Nat) (f : Core → Core) : (s.modCoreAt i f).env = s.env := rfl
@[simp] theorem State.modCoreAt_gov (s : State) (i : Nat) (f : Core → Core) : (s.modCoreAt i f).gov = s.gov := rfl
@[simp] theorem State.modCoreAt_mem (s : State) (i : Nat) (f : Core → Core) : (s.modCoreAt i f).mem = s.mem := rfl
@[simp] theorem State.modCoreAt_wq (s : State) (i : Nat) (f : Core → Core) : (s.modCoreAt i f).wq = s.wq := rfl
@[simp] theorem State.modCoreAt_queues (s : State) (i : Nat) (f : Core → Core) : (s.modCoreAt i f).queues = s.queues := rfl
@[simp] theorem State.modCoreAt_ctxs (s : State) (i : Nat) (f : Core → Core) : (s.modCoreAt i f).ctxs = s.ctxs := rfl
@[simp] theorem State.modCoreAt_sems (s : State) (i : Nat) (f : Core → Core) : (s.modCoreAt i f).sems = s.sems := rfl
@[simp] theorem State.modCoreAt_pens (s : State) (i : Nat) (f : Core → Core) : (s.modCoreAt i f).pens = s.pens := rfl
@[simp] theorem State.modCoreAt_yards (s : State) (i : Nat) (f : Core → Core) : (s.modCoreAt i f).yards = s.yards := rfl
@[simp] theorem State.modCoreAt_mcs (s : State) (i : Nat) (f : Core → Core) : (s.modCoreAt i f).mcs = s.mcs := rfl
@[simp] theorem State.modCoreAt_pauses (s : State) (i : Nat) (f : Core → Core) : (s.modCoreAt i f).pauses = s.pauses := rfl
@[simp] theorem State.modCoreAt_entries (s : State) (i : Nat) (f : Core → Core) : (s.modCoreAt i f).entries = s.entries := rfl
@[simp] theorem State.modCoreAt_launches (s : State) (i : Nat) (f : Core → Core) : (s.modCoreAt i f).launches = s.launches := rfl
@[simp] theorem State.modCoreAt_ready (s : State) (i : Nat) (f : Core → Core) : (s.modCoreAt i f).ready = s.ready := rfl
@[simp] theorem State.modCoreAt_jobs (s : State) (i : Nat) (f : Core → Core) : (s.modCoreAt i f).jobs = s.jobs := rfl
@[simp] theorem State.modCoreAt_bankJobs (s : State) (i : Nat) (f : Core → Core) : (s.modCoreAt i f).bankJobs = s.bankJobs := rfl
@[simp] theorem State.modCoreAt_experts (s : State) (i : Nat) (f : Core → Core) : (s.modCoreAt i f).experts = s.experts := rfl
@[simp] theorem State.modCoreAt_prefixes (s : State) (i : Nat) (f : Core → Core) : (s.modCoreAt i f).prefixes = s.prefixes := rfl
@[simp] theorem State.modCoreAt_prefixRefs (s : State) (i : Nat) (f : Core → Core) : (s.modCoreAt i f).prefixRefs = s.prefixRefs := rfl
@[simp] theorem State.modCoreAt_blockTabs (s : State) (i : Nat) (f : Core → Core) : (s.modCoreAt i f).blockTabs = s.blockTabs := rfl
@[simp] theorem State.modCoreAt_errors (s : State) (i : Nat) (f : Core → Core) : (s.modCoreAt i f).errors = s.errors := rfl
@[simp] theorem State.modCoreAt_errorCount (s : State) (i : Nat) (f : Core → Core) : (s.modCoreAt i f).errorCount = s.errorCount := rfl
@[simp] theorem State.modCoreAt_eccCount (s : State) (i : Nat) (f : Core → Core) : (s.modCoreAt i f).eccCount = s.eccCount := rfl
@[simp] theorem State.modCoreAt_served (s : State) (i : Nat) (f : Core → Core) : (s.modCoreAt i f).served = s.served := rfl
@[simp] theorem State.modCoreAt_readBeat (s : State) (i : Nat) (f : Core → Core) : (s.modCoreAt i f).readBeat = s.readBeat := rfl
@[simp] theorem State.modCoreAt_readChannels (s : State) (i : Nat) (f : Core → Core) : (s.modCoreAt i f).readChannels = s.readChannels := rfl
@[simp] theorem State.modCoreAt_firmAt (s : State) (i : Nat) (f : Core → Core) : (s.modCoreAt i f).firmAt = s.firmAt := rfl
@[simp] theorem State.modCoreAt_sidecars (s : State) (i : Nat) (f : Core → Core) : (s.modCoreAt i f).sidecars = s.sidecars := rfl
@[simp] theorem State.modCoreAt_fresh (s : State) (i : Nat) (f : Core → Core) : (s.modCoreAt i f).fresh = s.fresh := rfl
@[simp] theorem State.modCoreAt_subj (s : State) (i : Nat) (f : Core → Core) : (s.modCoreAt i f).subj = s.subj := rfl
@[simp] theorem State.modCoreAt_round (s : State) (i : Nat) (f : Core → Core) : (s.modCoreAt i f).round = s.round := rfl
@[simp] theorem State.modCoreAt_agenda (s : State) (i : Nat) (f : Core → Core) : (s.modCoreAt i f).agenda = s.agenda := rfl

@[simp] theorem State.onCore_beat (s : State) (c : Fin 64) : (s.onCore c).beat = s.beat := rfl
@[simp] theorem State.onCore_boot (s : State) (c : Fin 64) : (s.onCore c).boot = s.boot := rfl
@[simp] theorem State.onCore_link (s : State) (c : Fin 64) : (s.onCore c).link = s.link := rfl
@[simp] theorem State.onCore_env (s : State) (c : Fin 64) : (s.onCore c).env = s.env := rfl
@[simp] theorem State.onCore_gov (s : State) (c : Fin 64) : (s.onCore c).gov = s.gov := rfl
@[simp] theorem State.onCore_mem (s : State) (c : Fin 64) : (s.onCore c).mem = s.mem := rfl
@[simp] theorem State.onCore_wq (s : State) (c : Fin 64) : (s.onCore c).wq = s.wq := rfl
@[simp] theorem State.onCore_queues (s : State) (c : Fin 64) : (s.onCore c).queues = s.queues := rfl
@[simp] theorem State.onCore_ctxs (s : State) (c : Fin 64) : (s.onCore c).ctxs = s.ctxs := rfl
@[simp] theorem State.onCore_sems (s : State) (c : Fin 64) : (s.onCore c).sems = s.sems := rfl
@[simp] theorem State.onCore_pens (s : State) (c : Fin 64) : (s.onCore c).pens = s.pens := rfl
@[simp] theorem State.onCore_yards (s : State) (c : Fin 64) : (s.onCore c).yards = s.yards := rfl
@[simp] theorem State.onCore_cores (s : State) (c : Fin 64) : (s.onCore c).cores = s.cores := rfl
@[simp] theorem State.onCore_mcs (s : State) (c : Fin 64) : (s.onCore c).mcs = s.mcs := rfl
@[simp] theorem State.onCore_pauses (s : State) (c : Fin 64) : (s.onCore c).pauses = s.pauses := rfl
@[simp] theorem State.onCore_entries (s : State) (c : Fin 64) : (s.onCore c).entries = s.entries := rfl
@[simp] theorem State.onCore_launches (s : State) (c : Fin 64) : (s.onCore c).launches = s.launches := rfl
@[simp] theorem State.onCore_ready (s : State) (c : Fin 64) : (s.onCore c).ready = s.ready := rfl
@[simp] theorem State.onCore_jobs (s : State) (c : Fin 64) : (s.onCore c).jobs = s.jobs := rfl
@[simp] theorem State.onCore_bankJobs (s : State) (c : Fin 64) : (s.onCore c).bankJobs = s.bankJobs := rfl
@[simp] theorem State.onCore_experts (s : State) (c : Fin 64) : (s.onCore c).experts = s.experts := rfl
@[simp] theorem State.onCore_prefixes (s : State) (c : Fin 64) : (s.onCore c).prefixes = s.prefixes := rfl
@[simp] theorem State.onCore_prefixRefs (s : State) (c : Fin 64) : (s.onCore c).prefixRefs = s.prefixRefs := rfl
@[simp] theorem State.onCore_blockTabs (s : State) (c : Fin 64) : (s.onCore c).blockTabs = s.blockTabs := rfl
@[simp] theorem State.onCore_errors (s : State) (c : Fin 64) : (s.onCore c).errors = s.errors := rfl
@[simp] theorem State.onCore_errorCount (s : State) (c : Fin 64) : (s.onCore c).errorCount = s.errorCount := rfl
@[simp] theorem State.onCore_eccCount (s : State) (c : Fin 64) : (s.onCore c).eccCount = s.eccCount := rfl
@[simp] theorem State.onCore_readBeat (s : State) (c : Fin 64) : (s.onCore c).readBeat = s.readBeat := rfl
@[simp] theorem State.onCore_readChannels (s : State) (c : Fin 64) : (s.onCore c).readChannels = s.readChannels := rfl
@[simp] theorem State.onCore_firmAt (s : State) (c : Fin 64) : (s.onCore c).firmAt = s.firmAt := rfl
@[simp] theorem State.onCore_sidecars (s : State) (c : Fin 64) : (s.onCore c).sidecars = s.sidecars := rfl
@[simp] theorem State.onCore_fresh (s : State) (c : Fin 64) : (s.onCore c).fresh = s.fresh := rfl
@[simp] theorem State.onCore_round (s : State) (c : Fin 64) : (s.onCore c).round = s.round := rfl
@[simp] theorem State.onCore_agenda (s : State) (c : Fin 64) : (s.onCore c).agenda = s.agenda := rfl

@[simp] theorem State.setQueue_beat (s : State) (n : Nat) (q : WorkQueue) : (s.setQueue n q).beat = s.beat := rfl
@[simp] theorem State.setQueue_boot (s : State) (n : Nat) (q : WorkQueue) : (s.setQueue n q).boot = s.boot := rfl
@[simp] theorem State.setQueue_link (s : State) (n : Nat) (q : WorkQueue) : (s.setQueue n q).link = s.link := rfl
@[simp] theorem State.setQueue_env (s : State) (n : Nat) (q : WorkQueue) : (s.setQueue n q).env = s.env := rfl
@[simp] theorem State.setQueue_gov (s : State) (n : Nat) (q : WorkQueue) : (s.setQueue n q).gov = s.gov := rfl
@[simp] theorem State.setQueue_mem (s : State) (n : Nat) (q : WorkQueue) : (s.setQueue n q).mem = s.mem := rfl
@[simp] theorem State.setQueue_wq (s : State) (n : Nat) (q : WorkQueue) : (s.setQueue n q).wq = s.wq := rfl
@[simp] theorem State.setQueue_ctxs (s : State) (n : Nat) (q : WorkQueue) : (s.setQueue n q).ctxs = s.ctxs := rfl
@[simp] theorem State.setQueue_sems (s : State) (n : Nat) (q : WorkQueue) : (s.setQueue n q).sems = s.sems := rfl
@[simp] theorem State.setQueue_pens (s : State) (n : Nat) (q : WorkQueue) : (s.setQueue n q).pens = s.pens := rfl
@[simp] theorem State.setQueue_yards (s : State) (n : Nat) (q : WorkQueue) : (s.setQueue n q).yards = s.yards := rfl
@[simp] theorem State.setQueue_cores (s : State) (n : Nat) (q : WorkQueue) : (s.setQueue n q).cores = s.cores := rfl
@[simp] theorem State.setQueue_mcs (s : State) (n : Nat) (q : WorkQueue) : (s.setQueue n q).mcs = s.mcs := rfl
@[simp] theorem State.setQueue_pauses (s : State) (n : Nat) (q : WorkQueue) : (s.setQueue n q).pauses = s.pauses := rfl
@[simp] theorem State.setQueue_entries (s : State) (n : Nat) (q : WorkQueue) : (s.setQueue n q).entries = s.entries := rfl
@[simp] theorem State.setQueue_launches (s : State) (n : Nat) (q : WorkQueue) : (s.setQueue n q).launches = s.launches := rfl
@[simp] theorem State.setQueue_ready (s : State) (n : Nat) (q : WorkQueue) : (s.setQueue n q).ready = s.ready := rfl
@[simp] theorem State.setQueue_jobs (s : State) (n : Nat) (q : WorkQueue) : (s.setQueue n q).jobs = s.jobs := rfl
@[simp] theorem State.setQueue_bankJobs (s : State) (n : Nat) (q : WorkQueue) : (s.setQueue n q).bankJobs = s.bankJobs := rfl
@[simp] theorem State.setQueue_experts (s : State) (n : Nat) (q : WorkQueue) : (s.setQueue n q).experts = s.experts := rfl
@[simp] theorem State.setQueue_prefixes (s : State) (n : Nat) (q : WorkQueue) : (s.setQueue n q).prefixes = s.prefixes := rfl
@[simp] theorem State.setQueue_prefixRefs (s : State) (n : Nat) (q : WorkQueue) : (s.setQueue n q).prefixRefs = s.prefixRefs := rfl
@[simp] theorem State.setQueue_blockTabs (s : State) (n : Nat) (q : WorkQueue) : (s.setQueue n q).blockTabs = s.blockTabs := rfl
@[simp] theorem State.setQueue_errors (s : State) (n : Nat) (q : WorkQueue) : (s.setQueue n q).errors = s.errors := rfl
@[simp] theorem State.setQueue_errorCount (s : State) (n : Nat) (q : WorkQueue) : (s.setQueue n q).errorCount = s.errorCount := rfl
@[simp] theorem State.setQueue_eccCount (s : State) (n : Nat) (q : WorkQueue) : (s.setQueue n q).eccCount = s.eccCount := rfl
@[simp] theorem State.setQueue_served (s : State) (n : Nat) (q : WorkQueue) : (s.setQueue n q).served = s.served := rfl
@[simp] theorem State.setQueue_readBeat (s : State) (n : Nat) (q : WorkQueue) : (s.setQueue n q).readBeat = s.readBeat := rfl
@[simp] theorem State.setQueue_readChannels (s : State) (n : Nat) (q : WorkQueue) : (s.setQueue n q).readChannels = s.readChannels := rfl
@[simp] theorem State.setQueue_firmAt (s : State) (n : Nat) (q : WorkQueue) : (s.setQueue n q).firmAt = s.firmAt := rfl
@[simp] theorem State.setQueue_sidecars (s : State) (n : Nat) (q : WorkQueue) : (s.setQueue n q).sidecars = s.sidecars := rfl
@[simp] theorem State.setQueue_fresh (s : State) (n : Nat) (q : WorkQueue) : (s.setQueue n q).fresh = s.fresh := rfl
@[simp] theorem State.setQueue_subj (s : State) (n : Nat) (q : WorkQueue) : (s.setQueue n q).subj = s.subj := rfl
@[simp] theorem State.setQueue_round (s : State) (n : Nat) (q : WorkQueue) : (s.setQueue n q).round = s.round := rfl
@[simp] theorem State.setQueue_agenda (s : State) (n : Nat) (q : WorkQueue) : (s.setQueue n q).agenda = s.agenda := rfl

@[simp] theorem State.setCtx_beat (s : State) (c : Nat) (x : Context) : (s.setCtx c x).beat = s.beat := rfl
@[simp] theorem State.setCtx_boot (s : State) (c : Nat) (x : Context) : (s.setCtx c x).boot = s.boot := rfl
@[simp] theorem State.setCtx_link (s : State) (c : Nat) (x : Context) : (s.setCtx c x).link = s.link := rfl
@[simp] theorem State.setCtx_env (s : State) (c : Nat) (x : Context) : (s.setCtx c x).env = s.env := rfl
@[simp] theorem State.setCtx_gov (s : State) (c : Nat) (x : Context) : (s.setCtx c x).gov = s.gov := rfl
@[simp] theorem State.setCtx_mem (s : State) (c : Nat) (x : Context) : (s.setCtx c x).mem = s.mem := rfl
@[simp] theorem State.setCtx_wq (s : State) (c : Nat) (x : Context) : (s.setCtx c x).wq = s.wq := rfl
@[simp] theorem State.setCtx_queues (s : State) (c : Nat) (x : Context) : (s.setCtx c x).queues = s.queues := rfl
@[simp] theorem State.setCtx_sems (s : State) (c : Nat) (x : Context) : (s.setCtx c x).sems = s.sems := rfl
@[simp] theorem State.setCtx_pens (s : State) (c : Nat) (x : Context) : (s.setCtx c x).pens = s.pens := rfl
@[simp] theorem State.setCtx_yards (s : State) (c : Nat) (x : Context) : (s.setCtx c x).yards = s.yards := rfl
@[simp] theorem State.setCtx_cores (s : State) (c : Nat) (x : Context) : (s.setCtx c x).cores = s.cores := rfl
@[simp] theorem State.setCtx_mcs (s : State) (c : Nat) (x : Context) : (s.setCtx c x).mcs = s.mcs := rfl
@[simp] theorem State.setCtx_pauses (s : State) (c : Nat) (x : Context) : (s.setCtx c x).pauses = s.pauses := rfl
@[simp] theorem State.setCtx_entries (s : State) (c : Nat) (x : Context) : (s.setCtx c x).entries = s.entries := rfl
@[simp] theorem State.setCtx_launches (s : State) (c : Nat) (x : Context) : (s.setCtx c x).launches = s.launches := rfl
@[simp] theorem State.setCtx_ready (s : State) (c : Nat) (x : Context) : (s.setCtx c x).ready = s.ready := rfl
@[simp] theorem State.setCtx_jobs (s : State) (c : Nat) (x : Context) : (s.setCtx c x).jobs = s.jobs := rfl
@[simp] theorem State.setCtx_bankJobs (s : State) (c : Nat) (x : Context) : (s.setCtx c x).bankJobs = s.bankJobs := rfl
@[simp] theorem State.setCtx_experts (s : State) (c : Nat) (x : Context) : (s.setCtx c x).experts = s.experts := rfl
@[simp] theorem State.setCtx_prefixes (s : State) (c : Nat) (x : Context) : (s.setCtx c x).prefixes = s.prefixes := rfl
@[simp] theorem State.setCtx_prefixRefs (s : State) (c : Nat) (x : Context) : (s.setCtx c x).prefixRefs = s.prefixRefs := rfl
@[simp] theorem State.setCtx_blockTabs (s : State) (c : Nat) (x : Context) : (s.setCtx c x).blockTabs = s.blockTabs := rfl
@[simp] theorem State.setCtx_errors (s : State) (c : Nat) (x : Context) : (s.setCtx c x).errors = s.errors := rfl
@[simp] theorem State.setCtx_errorCount (s : State) (c : Nat) (x : Context) : (s.setCtx c x).errorCount = s.errorCount := rfl
@[simp] theorem State.setCtx_eccCount (s : State) (c : Nat) (x : Context) : (s.setCtx c x).eccCount = s.eccCount := rfl
@[simp] theorem State.setCtx_served (s : State) (c : Nat) (x : Context) : (s.setCtx c x).served = s.served := rfl
@[simp] theorem State.setCtx_readBeat (s : State) (c : Nat) (x : Context) : (s.setCtx c x).readBeat = s.readBeat := rfl
@[simp] theorem State.setCtx_readChannels (s : State) (c : Nat) (x : Context) : (s.setCtx c x).readChannels = s.readChannels := rfl
@[simp] theorem State.setCtx_firmAt (s : State) (c : Nat) (x : Context) : (s.setCtx c x).firmAt = s.firmAt := rfl
@[simp] theorem State.setCtx_sidecars (s : State) (c : Nat) (x : Context) : (s.setCtx c x).sidecars = s.sidecars := rfl
@[simp] theorem State.setCtx_fresh (s : State) (c : Nat) (x : Context) : (s.setCtx c x).fresh = s.fresh := rfl
@[simp] theorem State.setCtx_subj (s : State) (c : Nat) (x : Context) : (s.setCtx c x).subj = s.subj := rfl
@[simp] theorem State.setCtx_round (s : State) (c : Nat) (x : Context) : (s.setCtx c x).round = s.round := rfl
@[simp] theorem State.setCtx_agenda (s : State) (c : Nat) (x : Context) : (s.setCtx c x).agenda = s.agenda := rfl

@[simp] theorem State.setSem_beat (s : State) (n : Nat) (x : Sem) : (s.setSem n x).beat = s.beat := rfl
@[simp] theorem State.setSem_boot (s : State) (n : Nat) (x : Sem) : (s.setSem n x).boot = s.boot := rfl
@[simp] theorem State.setSem_link (s : State) (n : Nat) (x : Sem) : (s.setSem n x).link = s.link := rfl
@[simp] theorem State.setSem_env (s : State) (n : Nat) (x : Sem) : (s.setSem n x).env = s.env := rfl
@[simp] theorem State.setSem_gov (s : State) (n : Nat) (x : Sem) : (s.setSem n x).gov = s.gov := rfl
@[simp] theorem State.setSem_mem (s : State) (n : Nat) (x : Sem) : (s.setSem n x).mem = s.mem := rfl
@[simp] theorem State.setSem_wq (s : State) (n : Nat) (x : Sem) : (s.setSem n x).wq = s.wq := rfl
@[simp] theorem State.setSem_queues (s : State) (n : Nat) (x : Sem) : (s.setSem n x).queues = s.queues := rfl
@[simp] theorem State.setSem_ctxs (s : State) (n : Nat) (x : Sem) : (s.setSem n x).ctxs = s.ctxs := rfl
@[simp] theorem State.setSem_pens (s : State) (n : Nat) (x : Sem) : (s.setSem n x).pens = s.pens := rfl
@[simp] theorem State.setSem_yards (s : State) (n : Nat) (x : Sem) : (s.setSem n x).yards = s.yards := rfl
@[simp] theorem State.setSem_cores (s : State) (n : Nat) (x : Sem) : (s.setSem n x).cores = s.cores := rfl
@[simp] theorem State.setSem_mcs (s : State) (n : Nat) (x : Sem) : (s.setSem n x).mcs = s.mcs := rfl
@[simp] theorem State.setSem_pauses (s : State) (n : Nat) (x : Sem) : (s.setSem n x).pauses = s.pauses := rfl
@[simp] theorem State.setSem_entries (s : State) (n : Nat) (x : Sem) : (s.setSem n x).entries = s.entries := rfl
@[simp] theorem State.setSem_launches (s : State) (n : Nat) (x : Sem) : (s.setSem n x).launches = s.launches := rfl
@[simp] theorem State.setSem_ready (s : State) (n : Nat) (x : Sem) : (s.setSem n x).ready = s.ready := rfl
@[simp] theorem State.setSem_jobs (s : State) (n : Nat) (x : Sem) : (s.setSem n x).jobs = s.jobs := rfl
@[simp] theorem State.setSem_bankJobs (s : State) (n : Nat) (x : Sem) : (s.setSem n x).bankJobs = s.bankJobs := rfl
@[simp] theorem State.setSem_experts (s : State) (n : Nat) (x : Sem) : (s.setSem n x).experts = s.experts := rfl
@[simp] theorem State.setSem_prefixes (s : State) (n : Nat) (x : Sem) : (s.setSem n x).prefixes = s.prefixes := rfl
@[simp] theorem State.setSem_prefixRefs (s : State) (n : Nat) (x : Sem) : (s.setSem n x).prefixRefs = s.prefixRefs := rfl
@[simp] theorem State.setSem_blockTabs (s : State) (n : Nat) (x : Sem) : (s.setSem n x).blockTabs = s.blockTabs := rfl
@[simp] theorem State.setSem_errors (s : State) (n : Nat) (x : Sem) : (s.setSem n x).errors = s.errors := rfl
@[simp] theorem State.setSem_errorCount (s : State) (n : Nat) (x : Sem) : (s.setSem n x).errorCount = s.errorCount := rfl
@[simp] theorem State.setSem_eccCount (s : State) (n : Nat) (x : Sem) : (s.setSem n x).eccCount = s.eccCount := rfl
@[simp] theorem State.setSem_served (s : State) (n : Nat) (x : Sem) : (s.setSem n x).served = s.served := rfl
@[simp] theorem State.setSem_readBeat (s : State) (n : Nat) (x : Sem) : (s.setSem n x).readBeat = s.readBeat := rfl
@[simp] theorem State.setSem_readChannels (s : State) (n : Nat) (x : Sem) : (s.setSem n x).readChannels = s.readChannels := rfl
@[simp] theorem State.setSem_firmAt (s : State) (n : Nat) (x : Sem) : (s.setSem n x).firmAt = s.firmAt := rfl
@[simp] theorem State.setSem_sidecars (s : State) (n : Nat) (x : Sem) : (s.setSem n x).sidecars = s.sidecars := rfl
@[simp] theorem State.setSem_fresh (s : State) (n : Nat) (x : Sem) : (s.setSem n x).fresh = s.fresh := rfl
@[simp] theorem State.setSem_subj (s : State) (n : Nat) (x : Sem) : (s.setSem n x).subj = s.subj := rfl
@[simp] theorem State.setSem_round (s : State) (n : Nat) (x : Sem) : (s.setSem n x).round = s.round := rfl
@[simp] theorem State.setSem_agenda (s : State) (n : Nat) (x : Sem) : (s.setSem n x).agenda = s.agenda := rfl

@[simp] theorem State.settleSem_beat (s : State) (n : Nat) : (s.settleSem n).beat = s.beat := rfl
@[simp] theorem State.settleSem_boot (s : State) (n : Nat) : (s.settleSem n).boot = s.boot := rfl
@[simp] theorem State.settleSem_link (s : State) (n : Nat) : (s.settleSem n).link = s.link := rfl
@[simp] theorem State.settleSem_env (s : State) (n : Nat) : (s.settleSem n).env = s.env := rfl
@[simp] theorem State.settleSem_gov (s : State) (n : Nat) : (s.settleSem n).gov = s.gov := rfl
@[simp] theorem State.settleSem_mem (s : State) (n : Nat) : (s.settleSem n).mem = s.mem := rfl
@[simp] theorem State.settleSem_wq (s : State) (n : Nat) : (s.settleSem n).wq = s.wq := rfl
@[simp] theorem State.settleSem_queues (s : State) (n : Nat) : (s.settleSem n).queues = s.queues := rfl
@[simp] theorem State.settleSem_ctxs (s : State) (n : Nat) : (s.settleSem n).ctxs = s.ctxs := rfl
@[simp] theorem State.settleSem_pens (s : State) (n : Nat) : (s.settleSem n).pens = s.pens := rfl
@[simp] theorem State.settleSem_yards (s : State) (n : Nat) : (s.settleSem n).yards = s.yards := rfl
@[simp] theorem State.settleSem_cores (s : State) (n : Nat) : (s.settleSem n).cores = s.cores := rfl
@[simp] theorem State.settleSem_mcs (s : State) (n : Nat) : (s.settleSem n).mcs = s.mcs := rfl
@[simp] theorem State.settleSem_pauses (s : State) (n : Nat) : (s.settleSem n).pauses = s.pauses := rfl
@[simp] theorem State.settleSem_entries (s : State) (n : Nat) : (s.settleSem n).entries = s.entries := rfl
@[simp] theorem State.settleSem_launches (s : State) (n : Nat) : (s.settleSem n).launches = s.launches := rfl
@[simp] theorem State.settleSem_jobs (s : State) (n : Nat) : (s.settleSem n).jobs = s.jobs := rfl
@[simp] theorem State.settleSem_bankJobs (s : State) (n : Nat) : (s.settleSem n).bankJobs = s.bankJobs := rfl
@[simp] theorem State.settleSem_experts (s : State) (n : Nat) : (s.settleSem n).experts = s.experts := rfl
@[simp] theorem State.settleSem_prefixes (s : State) (n : Nat) : (s.settleSem n).prefixes = s.prefixes := rfl
@[simp] theorem State.settleSem_prefixRefs (s : State) (n : Nat) : (s.settleSem n).prefixRefs = s.prefixRefs := rfl
@[simp] theorem State.settleSem_blockTabs (s : State) (n : Nat) : (s.settleSem n).blockTabs = s.blockTabs := rfl
@[simp] theorem State.settleSem_errors (s : State) (n : Nat) : (s.settleSem n).errors = s.errors := rfl
@[simp] theorem State.settleSem_errorCount (s : State) (n : Nat) : (s.settleSem n).errorCount = s.errorCount := rfl
@[simp] theorem State.settleSem_eccCount (s : State) (n : Nat) : (s.settleSem n).eccCount = s.eccCount := rfl
@[simp] theorem State.settleSem_served (s : State) (n : Nat) : (s.settleSem n).served = s.served := rfl
@[simp] theorem State.settleSem_readBeat (s : State) (n : Nat) : (s.settleSem n).readBeat = s.readBeat := rfl
@[simp] theorem State.settleSem_readChannels (s : State) (n : Nat) : (s.settleSem n).readChannels = s.readChannels := rfl
@[simp] theorem State.settleSem_firmAt (s : State) (n : Nat) : (s.settleSem n).firmAt = s.firmAt := rfl
@[simp] theorem State.settleSem_sidecars (s : State) (n : Nat) : (s.settleSem n).sidecars = s.sidecars := rfl
@[simp] theorem State.settleSem_fresh (s : State) (n : Nat) : (s.settleSem n).fresh = s.fresh := rfl
@[simp] theorem State.settleSem_subj (s : State) (n : Nat) : (s.settleSem n).subj = s.subj := rfl
@[simp] theorem State.settleSem_round (s : State) (n : Nat) : (s.settleSem n).round = s.round := rfl
@[simp] theorem State.settleSem_agenda (s : State) (n : Nat) : (s.settleSem n).agenda = s.agenda := rfl

@[simp] theorem State.noticeTake_beat (s : State) (n id : Nat) : (s.noticeTake n id).beat = s.beat := rfl
@[simp] theorem State.noticeTake_boot (s : State) (n id : Nat) : (s.noticeTake n id).boot = s.boot := rfl
@[simp] theorem State.noticeTake_link (s : State) (n id : Nat) : (s.noticeTake n id).link = s.link := rfl
@[simp] theorem State.noticeTake_env (s : State) (n id : Nat) : (s.noticeTake n id).env = s.env := rfl
@[simp] theorem State.noticeTake_gov (s : State) (n id : Nat) : (s.noticeTake n id).gov = s.gov := rfl
@[simp] theorem State.noticeTake_mem (s : State) (n id : Nat) : (s.noticeTake n id).mem = s.mem := rfl
@[simp] theorem State.noticeTake_wq (s : State) (n id : Nat) : (s.noticeTake n id).wq = s.wq := rfl
@[simp] theorem State.noticeTake_queues (s : State) (n id : Nat) : (s.noticeTake n id).queues = s.queues := rfl
@[simp] theorem State.noticeTake_ctxs (s : State) (n id : Nat) : (s.noticeTake n id).ctxs = s.ctxs := rfl
@[simp] theorem State.noticeTake_pens (s : State) (n id : Nat) : (s.noticeTake n id).pens = s.pens := rfl
@[simp] theorem State.noticeTake_yards (s : State) (n id : Nat) : (s.noticeTake n id).yards = s.yards := rfl
@[simp] theorem State.noticeTake_cores (s : State) (n id : Nat) : (s.noticeTake n id).cores = s.cores := rfl
@[simp] theorem State.noticeTake_mcs (s : State) (n id : Nat) : (s.noticeTake n id).mcs = s.mcs := rfl
@[simp] theorem State.noticeTake_pauses (s : State) (n id : Nat) : (s.noticeTake n id).pauses = s.pauses := rfl
@[simp] theorem State.noticeTake_entries (s : State) (n id : Nat) : (s.noticeTake n id).entries = s.entries := rfl
@[simp] theorem State.noticeTake_launches (s : State) (n id : Nat) : (s.noticeTake n id).launches = s.launches := rfl
@[simp] theorem State.noticeTake_ready (s : State) (n id : Nat) : (s.noticeTake n id).ready = s.ready := rfl
@[simp] theorem State.noticeTake_jobs (s : State) (n id : Nat) : (s.noticeTake n id).jobs = s.jobs := rfl
@[simp] theorem State.noticeTake_bankJobs (s : State) (n id : Nat) : (s.noticeTake n id).bankJobs = s.bankJobs := rfl
@[simp] theorem State.noticeTake_experts (s : State) (n id : Nat) : (s.noticeTake n id).experts = s.experts := rfl
@[simp] theorem State.noticeTake_prefixes (s : State) (n id : Nat) : (s.noticeTake n id).prefixes = s.prefixes := rfl
@[simp] theorem State.noticeTake_prefixRefs (s : State) (n id : Nat) : (s.noticeTake n id).prefixRefs = s.prefixRefs := rfl
@[simp] theorem State.noticeTake_blockTabs (s : State) (n id : Nat) : (s.noticeTake n id).blockTabs = s.blockTabs := rfl
@[simp] theorem State.noticeTake_errors (s : State) (n id : Nat) : (s.noticeTake n id).errors = s.errors := rfl
@[simp] theorem State.noticeTake_errorCount (s : State) (n id : Nat) : (s.noticeTake n id).errorCount = s.errorCount := rfl
@[simp] theorem State.noticeTake_eccCount (s : State) (n id : Nat) : (s.noticeTake n id).eccCount = s.eccCount := rfl
@[simp] theorem State.noticeTake_served (s : State) (n id : Nat) : (s.noticeTake n id).served = s.served := rfl
@[simp] theorem State.noticeTake_readBeat (s : State) (n id : Nat) : (s.noticeTake n id).readBeat = s.readBeat := rfl
@[simp] theorem State.noticeTake_readChannels (s : State) (n id : Nat) : (s.noticeTake n id).readChannels = s.readChannels := rfl
@[simp] theorem State.noticeTake_firmAt (s : State) (n id : Nat) : (s.noticeTake n id).firmAt = s.firmAt := rfl
@[simp] theorem State.noticeTake_sidecars (s : State) (n id : Nat) : (s.noticeTake n id).sidecars = s.sidecars := rfl
@[simp] theorem State.noticeTake_fresh (s : State) (n id : Nat) : (s.noticeTake n id).fresh = s.fresh := rfl
@[simp] theorem State.noticeTake_subj (s : State) (n id : Nat) : (s.noticeTake n id).subj = s.subj := rfl
@[simp] theorem State.noticeTake_round (s : State) (n id : Nat) : (s.noticeTake n id).round = s.round := rfl
@[simp] theorem State.noticeTake_agenda (s : State) (n id : Nat) : (s.noticeTake n id).agenda = s.agenda := rfl

@[simp] theorem State.dropTake_beat (s : State) (n id : Nat) : (s.dropTake n id).beat = s.beat := rfl
@[simp] theorem State.dropTake_boot (s : State) (n id : Nat) : (s.dropTake n id).boot = s.boot := rfl
@[simp] theorem State.dropTake_link (s : State) (n id : Nat) : (s.dropTake n id).link = s.link := rfl
@[simp] theorem State.dropTake_env (s : State) (n id : Nat) : (s.dropTake n id).env = s.env := rfl
@[simp] theorem State.dropTake_gov (s : State) (n id : Nat) : (s.dropTake n id).gov = s.gov := rfl
@[simp] theorem State.dropTake_mem (s : State) (n id : Nat) : (s.dropTake n id).mem = s.mem := rfl
@[simp] theorem State.dropTake_wq (s : State) (n id : Nat) : (s.dropTake n id).wq = s.wq := rfl
@[simp] theorem State.dropTake_queues (s : State) (n id : Nat) : (s.dropTake n id).queues = s.queues := rfl
@[simp] theorem State.dropTake_ctxs (s : State) (n id : Nat) : (s.dropTake n id).ctxs = s.ctxs := rfl
@[simp] theorem State.dropTake_pens (s : State) (n id : Nat) : (s.dropTake n id).pens = s.pens := rfl
@[simp] theorem State.dropTake_yards (s : State) (n id : Nat) : (s.dropTake n id).yards = s.yards := rfl
@[simp] theorem State.dropTake_cores (s : State) (n id : Nat) : (s.dropTake n id).cores = s.cores := rfl
@[simp] theorem State.dropTake_mcs (s : State) (n id : Nat) : (s.dropTake n id).mcs = s.mcs := rfl
@[simp] theorem State.dropTake_pauses (s : State) (n id : Nat) : (s.dropTake n id).pauses = s.pauses := rfl
@[simp] theorem State.dropTake_entries (s : State) (n id : Nat) : (s.dropTake n id).entries = s.entries := rfl
@[simp] theorem State.dropTake_launches (s : State) (n id : Nat) : (s.dropTake n id).launches = s.launches := rfl
@[simp] theorem State.dropTake_jobs (s : State) (n id : Nat) : (s.dropTake n id).jobs = s.jobs := rfl
@[simp] theorem State.dropTake_bankJobs (s : State) (n id : Nat) : (s.dropTake n id).bankJobs = s.bankJobs := rfl
@[simp] theorem State.dropTake_experts (s : State) (n id : Nat) : (s.dropTake n id).experts = s.experts := rfl
@[simp] theorem State.dropTake_prefixes (s : State) (n id : Nat) : (s.dropTake n id).prefixes = s.prefixes := rfl
@[simp] theorem State.dropTake_prefixRefs (s : State) (n id : Nat) : (s.dropTake n id).prefixRefs = s.prefixRefs := rfl
@[simp] theorem State.dropTake_blockTabs (s : State) (n id : Nat) : (s.dropTake n id).blockTabs = s.blockTabs := rfl
@[simp] theorem State.dropTake_errors (s : State) (n id : Nat) : (s.dropTake n id).errors = s.errors := rfl
@[simp] theorem State.dropTake_errorCount (s : State) (n id : Nat) : (s.dropTake n id).errorCount = s.errorCount := rfl
@[simp] theorem State.dropTake_eccCount (s : State) (n id : Nat) : (s.dropTake n id).eccCount = s.eccCount := rfl
@[simp] theorem State.dropTake_served (s : State) (n id : Nat) : (s.dropTake n id).served = s.served := rfl
@[simp] theorem State.dropTake_readBeat (s : State) (n id : Nat) : (s.dropTake n id).readBeat = s.readBeat := rfl
@[simp] theorem State.dropTake_readChannels (s : State) (n id : Nat) : (s.dropTake n id).readChannels = s.readChannels := rfl
@[simp] theorem State.dropTake_firmAt (s : State) (n id : Nat) : (s.dropTake n id).firmAt = s.firmAt := rfl
@[simp] theorem State.dropTake_sidecars (s : State) (n id : Nat) : (s.dropTake n id).sidecars = s.sidecars := rfl
@[simp] theorem State.dropTake_fresh (s : State) (n id : Nat) : (s.dropTake n id).fresh = s.fresh := rfl
@[simp] theorem State.dropTake_subj (s : State) (n id : Nat) : (s.dropTake n id).subj = s.subj := rfl
@[simp] theorem State.dropTake_round (s : State) (n id : Nat) : (s.dropTake n id).round = s.round := rfl
@[simp] theorem State.dropTake_agenda (s : State) (n id : Nat) : (s.dropTake n id).agenda = s.agenda := rfl

@[simp] theorem State.setPen_beat (s : State) (p : Nat) (x : Pen) : (s.setPen p x).beat = s.beat := rfl
@[simp] theorem State.setPen_boot (s : State) (p : Nat) (x : Pen) : (s.setPen p x).boot = s.boot := rfl
@[simp] theorem State.setPen_link (s : State) (p : Nat) (x : Pen) : (s.setPen p x).link = s.link := rfl
@[simp] theorem State.setPen_env (s : State) (p : Nat) (x : Pen) : (s.setPen p x).env = s.env := rfl
@[simp] theorem State.setPen_gov (s : State) (p : Nat) (x : Pen) : (s.setPen p x).gov = s.gov := rfl
@[simp] theorem State.setPen_mem (s : State) (p : Nat) (x : Pen) : (s.setPen p x).mem = s.mem := rfl
@[simp] theorem State.setPen_wq (s : State) (p : Nat) (x : Pen) : (s.setPen p x).wq = s.wq := rfl
@[simp] theorem State.setPen_queues (s : State) (p : Nat) (x : Pen) : (s.setPen p x).queues = s.queues := rfl
@[simp] theorem State.setPen_ctxs (s : State) (p : Nat) (x : Pen) : (s.setPen p x).ctxs = s.ctxs := rfl
@[simp] theorem State.setPen_sems (s : State) (p : Nat) (x : Pen) : (s.setPen p x).sems = s.sems := rfl
@[simp] theorem State.setPen_yards (s : State) (p : Nat) (x : Pen) : (s.setPen p x).yards = s.yards := rfl
@[simp] theorem State.setPen_cores (s : State) (p : Nat) (x : Pen) : (s.setPen p x).cores = s.cores := rfl
@[simp] theorem State.setPen_mcs (s : State) (p : Nat) (x : Pen) : (s.setPen p x).mcs = s.mcs := rfl
@[simp] theorem State.setPen_pauses (s : State) (p : Nat) (x : Pen) : (s.setPen p x).pauses = s.pauses := rfl
@[simp] theorem State.setPen_entries (s : State) (p : Nat) (x : Pen) : (s.setPen p x).entries = s.entries := rfl
@[simp] theorem State.setPen_launches (s : State) (p : Nat) (x : Pen) : (s.setPen p x).launches = s.launches := rfl
@[simp] theorem State.setPen_ready (s : State) (p : Nat) (x : Pen) : (s.setPen p x).ready = s.ready := rfl
@[simp] theorem State.setPen_jobs (s : State) (p : Nat) (x : Pen) : (s.setPen p x).jobs = s.jobs := rfl
@[simp] theorem State.setPen_bankJobs (s : State) (p : Nat) (x : Pen) : (s.setPen p x).bankJobs = s.bankJobs := rfl
@[simp] theorem State.setPen_experts (s : State) (p : Nat) (x : Pen) : (s.setPen p x).experts = s.experts := rfl
@[simp] theorem State.setPen_prefixes (s : State) (p : Nat) (x : Pen) : (s.setPen p x).prefixes = s.prefixes := rfl
@[simp] theorem State.setPen_prefixRefs (s : State) (p : Nat) (x : Pen) : (s.setPen p x).prefixRefs = s.prefixRefs := rfl
@[simp] theorem State.setPen_blockTabs (s : State) (p : Nat) (x : Pen) : (s.setPen p x).blockTabs = s.blockTabs := rfl
@[simp] theorem State.setPen_errors (s : State) (p : Nat) (x : Pen) : (s.setPen p x).errors = s.errors := rfl
@[simp] theorem State.setPen_errorCount (s : State) (p : Nat) (x : Pen) : (s.setPen p x).errorCount = s.errorCount := rfl
@[simp] theorem State.setPen_eccCount (s : State) (p : Nat) (x : Pen) : (s.setPen p x).eccCount = s.eccCount := rfl
@[simp] theorem State.setPen_served (s : State) (p : Nat) (x : Pen) : (s.setPen p x).served = s.served := rfl
@[simp] theorem State.setPen_readBeat (s : State) (p : Nat) (x : Pen) : (s.setPen p x).readBeat = s.readBeat := rfl
@[simp] theorem State.setPen_readChannels (s : State) (p : Nat) (x : Pen) : (s.setPen p x).readChannels = s.readChannels := rfl
@[simp] theorem State.setPen_firmAt (s : State) (p : Nat) (x : Pen) : (s.setPen p x).firmAt = s.firmAt := rfl
@[simp] theorem State.setPen_sidecars (s : State) (p : Nat) (x : Pen) : (s.setPen p x).sidecars = s.sidecars := rfl
@[simp] theorem State.setPen_fresh (s : State) (p : Nat) (x : Pen) : (s.setPen p x).fresh = s.fresh := rfl
@[simp] theorem State.setPen_subj (s : State) (p : Nat) (x : Pen) : (s.setPen p x).subj = s.subj := rfl
@[simp] theorem State.setPen_round (s : State) (p : Nat) (x : Pen) : (s.setPen p x).round = s.round := rfl
@[simp] theorem State.setPen_agenda (s : State) (p : Nat) (x : Pen) : (s.setPen p x).agenda = s.agenda := rfl

@[simp] theorem State.setStage_beat (s : State) (k : Nat) (x : Stage) : (s.setStage k x).beat = s.beat := rfl
@[simp] theorem State.setStage_boot (s : State) (k : Nat) (x : Stage) : (s.setStage k x).boot = s.boot := rfl
@[simp] theorem State.setStage_link (s : State) (k : Nat) (x : Stage) : (s.setStage k x).link = s.link := rfl
@[simp] theorem State.setStage_env (s : State) (k : Nat) (x : Stage) : (s.setStage k x).env = s.env := rfl
@[simp] theorem State.setStage_gov (s : State) (k : Nat) (x : Stage) : (s.setStage k x).gov = s.gov := rfl
@[simp] theorem State.setStage_mem (s : State) (k : Nat) (x : Stage) : (s.setStage k x).mem = s.mem := rfl
@[simp] theorem State.setStage_wq (s : State) (k : Nat) (x : Stage) : (s.setStage k x).wq = s.wq := rfl
@[simp] theorem State.setStage_queues (s : State) (k : Nat) (x : Stage) : (s.setStage k x).queues = s.queues := rfl
@[simp] theorem State.setStage_ctxs (s : State) (k : Nat) (x : Stage) : (s.setStage k x).ctxs = s.ctxs := rfl
@[simp] theorem State.setStage_sems (s : State) (k : Nat) (x : Stage) : (s.setStage k x).sems = s.sems := rfl
@[simp] theorem State.setStage_pens (s : State) (k : Nat) (x : Stage) : (s.setStage k x).pens = s.pens := rfl
@[simp] theorem State.setStage_cores (s : State) (k : Nat) (x : Stage) : (s.setStage k x).cores = s.cores := rfl
@[simp] theorem State.setStage_mcs (s : State) (k : Nat) (x : Stage) : (s.setStage k x).mcs = s.mcs := rfl
@[simp] theorem State.setStage_pauses (s : State) (k : Nat) (x : Stage) : (s.setStage k x).pauses = s.pauses := rfl
@[simp] theorem State.setStage_entries (s : State) (k : Nat) (x : Stage) : (s.setStage k x).entries = s.entries := rfl
@[simp] theorem State.setStage_launches (s : State) (k : Nat) (x : Stage) : (s.setStage k x).launches = s.launches := rfl
@[simp] theorem State.setStage_ready (s : State) (k : Nat) (x : Stage) : (s.setStage k x).ready = s.ready := rfl
@[simp] theorem State.setStage_jobs (s : State) (k : Nat) (x : Stage) : (s.setStage k x).jobs = s.jobs := rfl
@[simp] theorem State.setStage_bankJobs (s : State) (k : Nat) (x : Stage) : (s.setStage k x).bankJobs = s.bankJobs := rfl
@[simp] theorem State.setStage_experts (s : State) (k : Nat) (x : Stage) : (s.setStage k x).experts = s.experts := rfl
@[simp] theorem State.setStage_prefixes (s : State) (k : Nat) (x : Stage) : (s.setStage k x).prefixes = s.prefixes := rfl
@[simp] theorem State.setStage_prefixRefs (s : State) (k : Nat) (x : Stage) : (s.setStage k x).prefixRefs = s.prefixRefs := rfl
@[simp] theorem State.setStage_blockTabs (s : State) (k : Nat) (x : Stage) : (s.setStage k x).blockTabs = s.blockTabs := rfl
@[simp] theorem State.setStage_errors (s : State) (k : Nat) (x : Stage) : (s.setStage k x).errors = s.errors := rfl
@[simp] theorem State.setStage_errorCount (s : State) (k : Nat) (x : Stage) : (s.setStage k x).errorCount = s.errorCount := rfl
@[simp] theorem State.setStage_eccCount (s : State) (k : Nat) (x : Stage) : (s.setStage k x).eccCount = s.eccCount := rfl
@[simp] theorem State.setStage_served (s : State) (k : Nat) (x : Stage) : (s.setStage k x).served = s.served := rfl
@[simp] theorem State.setStage_readBeat (s : State) (k : Nat) (x : Stage) : (s.setStage k x).readBeat = s.readBeat := rfl
@[simp] theorem State.setStage_readChannels (s : State) (k : Nat) (x : Stage) : (s.setStage k x).readChannels = s.readChannels := rfl
@[simp] theorem State.setStage_firmAt (s : State) (k : Nat) (x : Stage) : (s.setStage k x).firmAt = s.firmAt := rfl
@[simp] theorem State.setStage_sidecars (s : State) (k : Nat) (x : Stage) : (s.setStage k x).sidecars = s.sidecars := rfl
@[simp] theorem State.setStage_fresh (s : State) (k : Nat) (x : Stage) : (s.setStage k x).fresh = s.fresh := rfl
@[simp] theorem State.setStage_subj (s : State) (k : Nat) (x : Stage) : (s.setStage k x).subj = s.subj := rfl
@[simp] theorem State.setStage_round (s : State) (k : Nat) (x : Stage) : (s.setStage k x).round = s.round := rfl
@[simp] theorem State.setStage_agenda (s : State) (k : Nat) (x : Stage) : (s.setStage k x).agenda = s.agenda := rfl

@[simp] theorem State.setArr_beat (s : State) (y : Fin 8) (a : MatArray) : (s.setArr y a).beat = s.beat := rfl
@[simp] theorem State.setArr_boot (s : State) (y : Fin 8) (a : MatArray) : (s.setArr y a).boot = s.boot := rfl
@[simp] theorem State.setArr_link (s : State) (y : Fin 8) (a : MatArray) : (s.setArr y a).link = s.link := rfl
@[simp] theorem State.setArr_env (s : State) (y : Fin 8) (a : MatArray) : (s.setArr y a).env = s.env := rfl
@[simp] theorem State.setArr_gov (s : State) (y : Fin 8) (a : MatArray) : (s.setArr y a).gov = s.gov := rfl
@[simp] theorem State.setArr_mem (s : State) (y : Fin 8) (a : MatArray) : (s.setArr y a).mem = s.mem := rfl
@[simp] theorem State.setArr_wq (s : State) (y : Fin 8) (a : MatArray) : (s.setArr y a).wq = s.wq := rfl
@[simp] theorem State.setArr_queues (s : State) (y : Fin 8) (a : MatArray) : (s.setArr y a).queues = s.queues := rfl
@[simp] theorem State.setArr_ctxs (s : State) (y : Fin 8) (a : MatArray) : (s.setArr y a).ctxs = s.ctxs := rfl
@[simp] theorem State.setArr_sems (s : State) (y : Fin 8) (a : MatArray) : (s.setArr y a).sems = s.sems := rfl
@[simp] theorem State.setArr_pens (s : State) (y : Fin 8) (a : MatArray) : (s.setArr y a).pens = s.pens := rfl
@[simp] theorem State.setArr_cores (s : State) (y : Fin 8) (a : MatArray) : (s.setArr y a).cores = s.cores := rfl
@[simp] theorem State.setArr_mcs (s : State) (y : Fin 8) (a : MatArray) : (s.setArr y a).mcs = s.mcs := rfl
@[simp] theorem State.setArr_pauses (s : State) (y : Fin 8) (a : MatArray) : (s.setArr y a).pauses = s.pauses := rfl
@[simp] theorem State.setArr_entries (s : State) (y : Fin 8) (a : MatArray) : (s.setArr y a).entries = s.entries := rfl
@[simp] theorem State.setArr_launches (s : State) (y : Fin 8) (a : MatArray) : (s.setArr y a).launches = s.launches := rfl
@[simp] theorem State.setArr_ready (s : State) (y : Fin 8) (a : MatArray) : (s.setArr y a).ready = s.ready := rfl
@[simp] theorem State.setArr_jobs (s : State) (y : Fin 8) (a : MatArray) : (s.setArr y a).jobs = s.jobs := rfl
@[simp] theorem State.setArr_bankJobs (s : State) (y : Fin 8) (a : MatArray) : (s.setArr y a).bankJobs = s.bankJobs := rfl
@[simp] theorem State.setArr_experts (s : State) (y : Fin 8) (a : MatArray) : (s.setArr y a).experts = s.experts := rfl
@[simp] theorem State.setArr_prefixes (s : State) (y : Fin 8) (a : MatArray) : (s.setArr y a).prefixes = s.prefixes := rfl
@[simp] theorem State.setArr_prefixRefs (s : State) (y : Fin 8) (a : MatArray) : (s.setArr y a).prefixRefs = s.prefixRefs := rfl
@[simp] theorem State.setArr_blockTabs (s : State) (y : Fin 8) (a : MatArray) : (s.setArr y a).blockTabs = s.blockTabs := rfl
@[simp] theorem State.setArr_errors (s : State) (y : Fin 8) (a : MatArray) : (s.setArr y a).errors = s.errors := rfl
@[simp] theorem State.setArr_errorCount (s : State) (y : Fin 8) (a : MatArray) : (s.setArr y a).errorCount = s.errorCount := rfl
@[simp] theorem State.setArr_eccCount (s : State) (y : Fin 8) (a : MatArray) : (s.setArr y a).eccCount = s.eccCount := rfl
@[simp] theorem State.setArr_served (s : State) (y : Fin 8) (a : MatArray) : (s.setArr y a).served = s.served := rfl
@[simp] theorem State.setArr_readBeat (s : State) (y : Fin 8) (a : MatArray) : (s.setArr y a).readBeat = s.readBeat := rfl
@[simp] theorem State.setArr_readChannels (s : State) (y : Fin 8) (a : MatArray) : (s.setArr y a).readChannels = s.readChannels := rfl
@[simp] theorem State.setArr_firmAt (s : State) (y : Fin 8) (a : MatArray) : (s.setArr y a).firmAt = s.firmAt := rfl
@[simp] theorem State.setArr_sidecars (s : State) (y : Fin 8) (a : MatArray) : (s.setArr y a).sidecars = s.sidecars := rfl
@[simp] theorem State.setArr_fresh (s : State) (y : Fin 8) (a : MatArray) : (s.setArr y a).fresh = s.fresh := rfl
@[simp] theorem State.setArr_subj (s : State) (y : Fin 8) (a : MatArray) : (s.setArr y a).subj = s.subj := rfl
@[simp] theorem State.setArr_round (s : State) (y : Fin 8) (a : MatArray) : (s.setArr y a).round = s.round := rfl
@[simp] theorem State.setArr_agenda (s : State) (y : Fin 8) (a : MatArray) : (s.setArr y a).agenda = s.agenda := rfl

@[simp] theorem State.modArr_beat (s : State) (y : Fin 8) (f : MatArray → MatArray) : (s.modArr y f).beat = s.beat := rfl
@[simp] theorem State.modArr_boot (s : State) (y : Fin 8) (f : MatArray → MatArray) : (s.modArr y f).boot = s.boot := rfl
@[simp] theorem State.modArr_link (s : State) (y : Fin 8) (f : MatArray → MatArray) : (s.modArr y f).link = s.link := rfl
@[simp] theorem State.modArr_env (s : State) (y : Fin 8) (f : MatArray → MatArray) : (s.modArr y f).env = s.env := rfl
@[simp] theorem State.modArr_gov (s : State) (y : Fin 8) (f : MatArray → MatArray) : (s.modArr y f).gov = s.gov := rfl
@[simp] theorem State.modArr_mem (s : State) (y : Fin 8) (f : MatArray → MatArray) : (s.modArr y f).mem = s.mem := rfl
@[simp] theorem State.modArr_wq (s : State) (y : Fin 8) (f : MatArray → MatArray) : (s.modArr y f).wq = s.wq := rfl
@[simp] theorem State.modArr_queues (s : State) (y : Fin 8) (f : MatArray → MatArray) : (s.modArr y f).queues = s.queues := rfl
@[simp] theorem State.modArr_ctxs (s : State) (y : Fin 8) (f : MatArray → MatArray) : (s.modArr y f).ctxs = s.ctxs := rfl
@[simp] theorem State.modArr_sems (s : State) (y : Fin 8) (f : MatArray → MatArray) : (s.modArr y f).sems = s.sems := rfl
@[simp] theorem State.modArr_pens (s : State) (y : Fin 8) (f : MatArray → MatArray) : (s.modArr y f).pens = s.pens := rfl
@[simp] theorem State.modArr_cores (s : State) (y : Fin 8) (f : MatArray → MatArray) : (s.modArr y f).cores = s.cores := rfl
@[simp] theorem State.modArr_mcs (s : State) (y : Fin 8) (f : MatArray → MatArray) : (s.modArr y f).mcs = s.mcs := rfl
@[simp] theorem State.modArr_pauses (s : State) (y : Fin 8) (f : MatArray → MatArray) : (s.modArr y f).pauses = s.pauses := rfl
@[simp] theorem State.modArr_entries (s : State) (y : Fin 8) (f : MatArray → MatArray) : (s.modArr y f).entries = s.entries := rfl
@[simp] theorem State.modArr_launches (s : State) (y : Fin 8) (f : MatArray → MatArray) : (s.modArr y f).launches = s.launches := rfl
@[simp] theorem State.modArr_ready (s : State) (y : Fin 8) (f : MatArray → MatArray) : (s.modArr y f).ready = s.ready := rfl
@[simp] theorem State.modArr_jobs (s : State) (y : Fin 8) (f : MatArray → MatArray) : (s.modArr y f).jobs = s.jobs := rfl
@[simp] theorem State.modArr_bankJobs (s : State) (y : Fin 8) (f : MatArray → MatArray) : (s.modArr y f).bankJobs = s.bankJobs := rfl
@[simp] theorem State.modArr_experts (s : State) (y : Fin 8) (f : MatArray → MatArray) : (s.modArr y f).experts = s.experts := rfl
@[simp] theorem State.modArr_prefixes (s : State) (y : Fin 8) (f : MatArray → MatArray) : (s.modArr y f).prefixes = s.prefixes := rfl
@[simp] theorem State.modArr_prefixRefs (s : State) (y : Fin 8) (f : MatArray → MatArray) : (s.modArr y f).prefixRefs = s.prefixRefs := rfl
@[simp] theorem State.modArr_blockTabs (s : State) (y : Fin 8) (f : MatArray → MatArray) : (s.modArr y f).blockTabs = s.blockTabs := rfl
@[simp] theorem State.modArr_errors (s : State) (y : Fin 8) (f : MatArray → MatArray) : (s.modArr y f).errors = s.errors := rfl
@[simp] theorem State.modArr_errorCount (s : State) (y : Fin 8) (f : MatArray → MatArray) : (s.modArr y f).errorCount = s.errorCount := rfl
@[simp] theorem State.modArr_eccCount (s : State) (y : Fin 8) (f : MatArray → MatArray) : (s.modArr y f).eccCount = s.eccCount := rfl
@[simp] theorem State.modArr_served (s : State) (y : Fin 8) (f : MatArray → MatArray) : (s.modArr y f).served = s.served := rfl
@[simp] theorem State.modArr_readBeat (s : State) (y : Fin 8) (f : MatArray → MatArray) : (s.modArr y f).readBeat = s.readBeat := rfl
@[simp] theorem State.modArr_readChannels (s : State) (y : Fin 8) (f : MatArray → MatArray) : (s.modArr y f).readChannels = s.readChannels := rfl
@[simp] theorem State.modArr_firmAt (s : State) (y : Fin 8) (f : MatArray → MatArray) : (s.modArr y f).firmAt = s.firmAt := rfl
@[simp] theorem State.modArr_sidecars (s : State) (y : Fin 8) (f : MatArray → MatArray) : (s.modArr y f).sidecars = s.sidecars := rfl
@[simp] theorem State.modArr_fresh (s : State) (y : Fin 8) (f : MatArray → MatArray) : (s.modArr y f).fresh = s.fresh := rfl
@[simp] theorem State.modArr_subj (s : State) (y : Fin 8) (f : MatArray → MatArray) : (s.modArr y f).subj = s.subj := rfl
@[simp] theorem State.modArr_round (s : State) (y : Fin 8) (f : MatArray → MatArray) : (s.modArr y f).round = s.round := rfl
@[simp] theorem State.modArr_agenda (s : State) (y : Fin 8) (f : MatArray → MatArray) : (s.modArr y f).agenda = s.agenda := rfl

@[simp] theorem State.setLunge_beat (s : State) (y : Fin 8) (l : Option Lunge) : (s.setLunge y l).beat = s.beat := rfl
@[simp] theorem State.setLunge_boot (s : State) (y : Fin 8) (l : Option Lunge) : (s.setLunge y l).boot = s.boot := rfl
@[simp] theorem State.setLunge_link (s : State) (y : Fin 8) (l : Option Lunge) : (s.setLunge y l).link = s.link := rfl
@[simp] theorem State.setLunge_env (s : State) (y : Fin 8) (l : Option Lunge) : (s.setLunge y l).env = s.env := rfl
@[simp] theorem State.setLunge_gov (s : State) (y : Fin 8) (l : Option Lunge) : (s.setLunge y l).gov = s.gov := rfl
@[simp] theorem State.setLunge_mem (s : State) (y : Fin 8) (l : Option Lunge) : (s.setLunge y l).mem = s.mem := rfl
@[simp] theorem State.setLunge_wq (s : State) (y : Fin 8) (l : Option Lunge) : (s.setLunge y l).wq = s.wq := rfl
@[simp] theorem State.setLunge_queues (s : State) (y : Fin 8) (l : Option Lunge) : (s.setLunge y l).queues = s.queues := rfl
@[simp] theorem State.setLunge_ctxs (s : State) (y : Fin 8) (l : Option Lunge) : (s.setLunge y l).ctxs = s.ctxs := rfl
@[simp] theorem State.setLunge_sems (s : State) (y : Fin 8) (l : Option Lunge) : (s.setLunge y l).sems = s.sems := rfl
@[simp] theorem State.setLunge_pens (s : State) (y : Fin 8) (l : Option Lunge) : (s.setLunge y l).pens = s.pens := rfl
@[simp] theorem State.setLunge_cores (s : State) (y : Fin 8) (l : Option Lunge) : (s.setLunge y l).cores = s.cores := rfl
@[simp] theorem State.setLunge_mcs (s : State) (y : Fin 8) (l : Option Lunge) : (s.setLunge y l).mcs = s.mcs := rfl
@[simp] theorem State.setLunge_pauses (s : State) (y : Fin 8) (l : Option Lunge) : (s.setLunge y l).pauses = s.pauses := rfl
@[simp] theorem State.setLunge_entries (s : State) (y : Fin 8) (l : Option Lunge) : (s.setLunge y l).entries = s.entries := rfl
@[simp] theorem State.setLunge_launches (s : State) (y : Fin 8) (l : Option Lunge) : (s.setLunge y l).launches = s.launches := rfl
@[simp] theorem State.setLunge_ready (s : State) (y : Fin 8) (l : Option Lunge) : (s.setLunge y l).ready = s.ready := rfl
@[simp] theorem State.setLunge_jobs (s : State) (y : Fin 8) (l : Option Lunge) : (s.setLunge y l).jobs = s.jobs := rfl
@[simp] theorem State.setLunge_bankJobs (s : State) (y : Fin 8) (l : Option Lunge) : (s.setLunge y l).bankJobs = s.bankJobs := rfl
@[simp] theorem State.setLunge_experts (s : State) (y : Fin 8) (l : Option Lunge) : (s.setLunge y l).experts = s.experts := rfl
@[simp] theorem State.setLunge_prefixes (s : State) (y : Fin 8) (l : Option Lunge) : (s.setLunge y l).prefixes = s.prefixes := rfl
@[simp] theorem State.setLunge_prefixRefs (s : State) (y : Fin 8) (l : Option Lunge) : (s.setLunge y l).prefixRefs = s.prefixRefs := rfl
@[simp] theorem State.setLunge_blockTabs (s : State) (y : Fin 8) (l : Option Lunge) : (s.setLunge y l).blockTabs = s.blockTabs := rfl
@[simp] theorem State.setLunge_errors (s : State) (y : Fin 8) (l : Option Lunge) : (s.setLunge y l).errors = s.errors := rfl
@[simp] theorem State.setLunge_errorCount (s : State) (y : Fin 8) (l : Option Lunge) : (s.setLunge y l).errorCount = s.errorCount := rfl
@[simp] theorem State.setLunge_eccCount (s : State) (y : Fin 8) (l : Option Lunge) : (s.setLunge y l).eccCount = s.eccCount := rfl
@[simp] theorem State.setLunge_served (s : State) (y : Fin 8) (l : Option Lunge) : (s.setLunge y l).served = s.served := rfl
@[simp] theorem State.setLunge_readBeat (s : State) (y : Fin 8) (l : Option Lunge) : (s.setLunge y l).readBeat = s.readBeat := rfl
@[simp] theorem State.setLunge_readChannels (s : State) (y : Fin 8) (l : Option Lunge) : (s.setLunge y l).readChannels = s.readChannels := rfl
@[simp] theorem State.setLunge_firmAt (s : State) (y : Fin 8) (l : Option Lunge) : (s.setLunge y l).firmAt = s.firmAt := rfl
@[simp] theorem State.setLunge_sidecars (s : State) (y : Fin 8) (l : Option Lunge) : (s.setLunge y l).sidecars = s.sidecars := rfl
@[simp] theorem State.setLunge_fresh (s : State) (y : Fin 8) (l : Option Lunge) : (s.setLunge y l).fresh = s.fresh := rfl
@[simp] theorem State.setLunge_subj (s : State) (y : Fin 8) (l : Option Lunge) : (s.setLunge y l).subj = s.subj := rfl
@[simp] theorem State.setLunge_round (s : State) (y : Fin 8) (l : Option Lunge) : (s.setLunge y l).round = s.round := rfl
@[simp] theorem State.setLunge_agenda (s : State) (y : Fin 8) (l : Option Lunge) : (s.setLunge y l).agenda = s.agenda := rfl

@[simp] theorem State.setMcs_beat (s : State) (d : Nat) (m : Mcs) : (s.setMcs d m).beat = s.beat := rfl
@[simp] theorem State.setMcs_boot (s : State) (d : Nat) (m : Mcs) : (s.setMcs d m).boot = s.boot := rfl
@[simp] theorem State.setMcs_link (s : State) (d : Nat) (m : Mcs) : (s.setMcs d m).link = s.link := rfl
@[simp] theorem State.setMcs_env (s : State) (d : Nat) (m : Mcs) : (s.setMcs d m).env = s.env := rfl
@[simp] theorem State.setMcs_gov (s : State) (d : Nat) (m : Mcs) : (s.setMcs d m).gov = s.gov := rfl
@[simp] theorem State.setMcs_mem (s : State) (d : Nat) (m : Mcs) : (s.setMcs d m).mem = s.mem := rfl
@[simp] theorem State.setMcs_wq (s : State) (d : Nat) (m : Mcs) : (s.setMcs d m).wq = s.wq := rfl
@[simp] theorem State.setMcs_queues (s : State) (d : Nat) (m : Mcs) : (s.setMcs d m).queues = s.queues := rfl
@[simp] theorem State.setMcs_ctxs (s : State) (d : Nat) (m : Mcs) : (s.setMcs d m).ctxs = s.ctxs := rfl
@[simp] theorem State.setMcs_sems (s : State) (d : Nat) (m : Mcs) : (s.setMcs d m).sems = s.sems := rfl
@[simp] theorem State.setMcs_pens (s : State) (d : Nat) (m : Mcs) : (s.setMcs d m).pens = s.pens := rfl
@[simp] theorem State.setMcs_yards (s : State) (d : Nat) (m : Mcs) : (s.setMcs d m).yards = s.yards := rfl
@[simp] theorem State.setMcs_cores (s : State) (d : Nat) (m : Mcs) : (s.setMcs d m).cores = s.cores := rfl
@[simp] theorem State.setMcs_pauses (s : State) (d : Nat) (m : Mcs) : (s.setMcs d m).pauses = s.pauses := rfl
@[simp] theorem State.setMcs_entries (s : State) (d : Nat) (m : Mcs) : (s.setMcs d m).entries = s.entries := rfl
@[simp] theorem State.setMcs_launches (s : State) (d : Nat) (m : Mcs) : (s.setMcs d m).launches = s.launches := rfl
@[simp] theorem State.setMcs_ready (s : State) (d : Nat) (m : Mcs) : (s.setMcs d m).ready = s.ready := rfl
@[simp] theorem State.setMcs_jobs (s : State) (d : Nat) (m : Mcs) : (s.setMcs d m).jobs = s.jobs := rfl
@[simp] theorem State.setMcs_bankJobs (s : State) (d : Nat) (m : Mcs) : (s.setMcs d m).bankJobs = s.bankJobs := rfl
@[simp] theorem State.setMcs_experts (s : State) (d : Nat) (m : Mcs) : (s.setMcs d m).experts = s.experts := rfl
@[simp] theorem State.setMcs_prefixes (s : State) (d : Nat) (m : Mcs) : (s.setMcs d m).prefixes = s.prefixes := rfl
@[simp] theorem State.setMcs_prefixRefs (s : State) (d : Nat) (m : Mcs) : (s.setMcs d m).prefixRefs = s.prefixRefs := rfl
@[simp] theorem State.setMcs_blockTabs (s : State) (d : Nat) (m : Mcs) : (s.setMcs d m).blockTabs = s.blockTabs := rfl
@[simp] theorem State.setMcs_errors (s : State) (d : Nat) (m : Mcs) : (s.setMcs d m).errors = s.errors := rfl
@[simp] theorem State.setMcs_errorCount (s : State) (d : Nat) (m : Mcs) : (s.setMcs d m).errorCount = s.errorCount := rfl
@[simp] theorem State.setMcs_eccCount (s : State) (d : Nat) (m : Mcs) : (s.setMcs d m).eccCount = s.eccCount := rfl
@[simp] theorem State.setMcs_served (s : State) (d : Nat) (m : Mcs) : (s.setMcs d m).served = s.served := rfl
@[simp] theorem State.setMcs_readBeat (s : State) (d : Nat) (m : Mcs) : (s.setMcs d m).readBeat = s.readBeat := rfl
@[simp] theorem State.setMcs_readChannels (s : State) (d : Nat) (m : Mcs) : (s.setMcs d m).readChannels = s.readChannels := rfl
@[simp] theorem State.setMcs_firmAt (s : State) (d : Nat) (m : Mcs) : (s.setMcs d m).firmAt = s.firmAt := rfl
@[simp] theorem State.setMcs_sidecars (s : State) (d : Nat) (m : Mcs) : (s.setMcs d m).sidecars = s.sidecars := rfl
@[simp] theorem State.setMcs_fresh (s : State) (d : Nat) (m : Mcs) : (s.setMcs d m).fresh = s.fresh := rfl
@[simp] theorem State.setMcs_subj (s : State) (d : Nat) (m : Mcs) : (s.setMcs d m).subj = s.subj := rfl
@[simp] theorem State.setMcs_round (s : State) (d : Nat) (m : Mcs) : (s.setMcs d m).round = s.round := rfl
@[simp] theorem State.setMcs_agenda (s : State) (d : Nat) (m : Mcs) : (s.setMcs d m).agenda = s.agenda := rfl

@[simp] theorem State.setPort_beat (s : State) (id : Nat) (p : Port) : (s.setPort id p).beat = s.beat := rfl
@[simp] theorem State.setPort_boot (s : State) (id : Nat) (p : Port) : (s.setPort id p).boot = s.boot := rfl
@[simp] theorem State.setPort_link (s : State) (id : Nat) (p : Port) : (s.setPort id p).link = s.link := rfl
@[simp] theorem State.setPort_env (s : State) (id : Nat) (p : Port) : (s.setPort id p).env = s.env := rfl
@[simp] theorem State.setPort_gov (s : State) (id : Nat) (p : Port) : (s.setPort id p).gov = s.gov := rfl
@[simp] theorem State.setPort_mem (s : State) (id : Nat) (p : Port) : (s.setPort id p).mem = s.mem := rfl
@[simp] theorem State.setPort_wq (s : State) (id : Nat) (p : Port) : (s.setPort id p).wq = s.wq := rfl
@[simp] theorem State.setPort_queues (s : State) (id : Nat) (p : Port) : (s.setPort id p).queues = s.queues := rfl
@[simp] theorem State.setPort_ctxs (s : State) (id : Nat) (p : Port) : (s.setPort id p).ctxs = s.ctxs := rfl
@[simp] theorem State.setPort_sems (s : State) (id : Nat) (p : Port) : (s.setPort id p).sems = s.sems := rfl
@[simp] theorem State.setPort_pens (s : State) (id : Nat) (p : Port) : (s.setPort id p).pens = s.pens := rfl
@[simp] theorem State.setPort_yards (s : State) (id : Nat) (p : Port) : (s.setPort id p).yards = s.yards := rfl
@[simp] theorem State.setPort_cores (s : State) (id : Nat) (p : Port) : (s.setPort id p).cores = s.cores := rfl
@[simp] theorem State.setPort_mcs (s : State) (id : Nat) (p : Port) : (s.setPort id p).mcs = s.mcs := rfl
@[simp] theorem State.setPort_pauses (s : State) (id : Nat) (p : Port) : (s.setPort id p).pauses = s.pauses := rfl
@[simp] theorem State.setPort_entries (s : State) (id : Nat) (p : Port) : (s.setPort id p).entries = s.entries := rfl
@[simp] theorem State.setPort_launches (s : State) (id : Nat) (p : Port) : (s.setPort id p).launches = s.launches := rfl
@[simp] theorem State.setPort_ready (s : State) (id : Nat) (p : Port) : (s.setPort id p).ready = s.ready := rfl
@[simp] theorem State.setPort_jobs (s : State) (id : Nat) (p : Port) : (s.setPort id p).jobs = s.jobs := rfl
@[simp] theorem State.setPort_experts (s : State) (id : Nat) (p : Port) : (s.setPort id p).experts = s.experts := rfl
@[simp] theorem State.setPort_prefixes (s : State) (id : Nat) (p : Port) : (s.setPort id p).prefixes = s.prefixes := rfl
@[simp] theorem State.setPort_prefixRefs (s : State) (id : Nat) (p : Port) : (s.setPort id p).prefixRefs = s.prefixRefs := rfl
@[simp] theorem State.setPort_blockTabs (s : State) (id : Nat) (p : Port) : (s.setPort id p).blockTabs = s.blockTabs := rfl
@[simp] theorem State.setPort_errors (s : State) (id : Nat) (p : Port) : (s.setPort id p).errors = s.errors := rfl
@[simp] theorem State.setPort_errorCount (s : State) (id : Nat) (p : Port) : (s.setPort id p).errorCount = s.errorCount := rfl
@[simp] theorem State.setPort_eccCount (s : State) (id : Nat) (p : Port) : (s.setPort id p).eccCount = s.eccCount := rfl
@[simp] theorem State.setPort_served (s : State) (id : Nat) (p : Port) : (s.setPort id p).served = s.served := rfl
@[simp] theorem State.setPort_readBeat (s : State) (id : Nat) (p : Port) : (s.setPort id p).readBeat = s.readBeat := rfl
@[simp] theorem State.setPort_readChannels (s : State) (id : Nat) (p : Port) : (s.setPort id p).readChannels = s.readChannels := rfl
@[simp] theorem State.setPort_firmAt (s : State) (id : Nat) (p : Port) : (s.setPort id p).firmAt = s.firmAt := rfl
@[simp] theorem State.setPort_sidecars (s : State) (id : Nat) (p : Port) : (s.setPort id p).sidecars = s.sidecars := rfl
@[simp] theorem State.setPort_fresh (s : State) (id : Nat) (p : Port) : (s.setPort id p).fresh = s.fresh := rfl
@[simp] theorem State.setPort_subj (s : State) (id : Nat) (p : Port) : (s.setPort id p).subj = s.subj := rfl
@[simp] theorem State.setPort_round (s : State) (id : Nat) (p : Port) : (s.setPort id p).round = s.round := rfl
@[simp] theorem State.setPort_agenda (s : State) (id : Nat) (p : Port) : (s.setPort id p).agenda = s.agenda := rfl

@[simp] theorem State.modBank_beat (s : State) (id : Nat) (f : BankJob → BankJob) : (s.modBank id f).beat = s.beat := rfl
@[simp] theorem State.modBank_boot (s : State) (id : Nat) (f : BankJob → BankJob) : (s.modBank id f).boot = s.boot := rfl
@[simp] theorem State.modBank_link (s : State) (id : Nat) (f : BankJob → BankJob) : (s.modBank id f).link = s.link := rfl
@[simp] theorem State.modBank_env (s : State) (id : Nat) (f : BankJob → BankJob) : (s.modBank id f).env = s.env := rfl
@[simp] theorem State.modBank_gov (s : State) (id : Nat) (f : BankJob → BankJob) : (s.modBank id f).gov = s.gov := rfl
@[simp] theorem State.modBank_mem (s : State) (id : Nat) (f : BankJob → BankJob) : (s.modBank id f).mem = s.mem := rfl
@[simp] theorem State.modBank_wq (s : State) (id : Nat) (f : BankJob → BankJob) : (s.modBank id f).wq = s.wq := rfl
@[simp] theorem State.modBank_queues (s : State) (id : Nat) (f : BankJob → BankJob) : (s.modBank id f).queues = s.queues := rfl
@[simp] theorem State.modBank_ctxs (s : State) (id : Nat) (f : BankJob → BankJob) : (s.modBank id f).ctxs = s.ctxs := rfl
@[simp] theorem State.modBank_sems (s : State) (id : Nat) (f : BankJob → BankJob) : (s.modBank id f).sems = s.sems := rfl
@[simp] theorem State.modBank_pens (s : State) (id : Nat) (f : BankJob → BankJob) : (s.modBank id f).pens = s.pens := rfl
@[simp] theorem State.modBank_yards (s : State) (id : Nat) (f : BankJob → BankJob) : (s.modBank id f).yards = s.yards := rfl
@[simp] theorem State.modBank_cores (s : State) (id : Nat) (f : BankJob → BankJob) : (s.modBank id f).cores = s.cores := rfl
@[simp] theorem State.modBank_mcs (s : State) (id : Nat) (f : BankJob → BankJob) : (s.modBank id f).mcs = s.mcs := rfl
@[simp] theorem State.modBank_pauses (s : State) (id : Nat) (f : BankJob → BankJob) : (s.modBank id f).pauses = s.pauses := rfl
@[simp] theorem State.modBank_entries (s : State) (id : Nat) (f : BankJob → BankJob) : (s.modBank id f).entries = s.entries := rfl
@[simp] theorem State.modBank_launches (s : State) (id : Nat) (f : BankJob → BankJob) : (s.modBank id f).launches = s.launches := rfl
@[simp] theorem State.modBank_ready (s : State) (id : Nat) (f : BankJob → BankJob) : (s.modBank id f).ready = s.ready := rfl
@[simp] theorem State.modBank_jobs (s : State) (id : Nat) (f : BankJob → BankJob) : (s.modBank id f).jobs = s.jobs := rfl
@[simp] theorem State.modBank_experts (s : State) (id : Nat) (f : BankJob → BankJob) : (s.modBank id f).experts = s.experts := rfl
@[simp] theorem State.modBank_prefixes (s : State) (id : Nat) (f : BankJob → BankJob) : (s.modBank id f).prefixes = s.prefixes := rfl
@[simp] theorem State.modBank_prefixRefs (s : State) (id : Nat) (f : BankJob → BankJob) : (s.modBank id f).prefixRefs = s.prefixRefs := rfl
@[simp] theorem State.modBank_blockTabs (s : State) (id : Nat) (f : BankJob → BankJob) : (s.modBank id f).blockTabs = s.blockTabs := rfl
@[simp] theorem State.modBank_errors (s : State) (id : Nat) (f : BankJob → BankJob) : (s.modBank id f).errors = s.errors := rfl
@[simp] theorem State.modBank_errorCount (s : State) (id : Nat) (f : BankJob → BankJob) : (s.modBank id f).errorCount = s.errorCount := rfl
@[simp] theorem State.modBank_eccCount (s : State) (id : Nat) (f : BankJob → BankJob) : (s.modBank id f).eccCount = s.eccCount := rfl
@[simp] theorem State.modBank_served (s : State) (id : Nat) (f : BankJob → BankJob) : (s.modBank id f).served = s.served := rfl
@[simp] theorem State.modBank_readBeat (s : State) (id : Nat) (f : BankJob → BankJob) : (s.modBank id f).readBeat = s.readBeat := rfl
@[simp] theorem State.modBank_readChannels (s : State) (id : Nat) (f : BankJob → BankJob) : (s.modBank id f).readChannels = s.readChannels := rfl
@[simp] theorem State.modBank_firmAt (s : State) (id : Nat) (f : BankJob → BankJob) : (s.modBank id f).firmAt = s.firmAt := rfl
@[simp] theorem State.modBank_sidecars (s : State) (id : Nat) (f : BankJob → BankJob) : (s.modBank id f).sidecars = s.sidecars := rfl
@[simp] theorem State.modBank_fresh (s : State) (id : Nat) (f : BankJob → BankJob) : (s.modBank id f).fresh = s.fresh := rfl
@[simp] theorem State.modBank_subj (s : State) (id : Nat) (f : BankJob → BankJob) : (s.modBank id f).subj = s.subj := rfl
@[simp] theorem State.modBank_round (s : State) (id : Nat) (f : BankJob → BankJob) : (s.modBank id f).round = s.round := rfl
@[simp] theorem State.modBank_agenda (s : State) (id : Nat) (f : BankJob → BankJob) : (s.modBank id f).agenda = s.agenda := rfl

@[simp] theorem State.modJob_beat (s : State) (id : Nat) (f : Job → Job) : (s.modJob id f).beat = s.beat := rfl
@[simp] theorem State.modJob_boot (s : State) (id : Nat) (f : Job → Job) : (s.modJob id f).boot = s.boot := rfl
@[simp] theorem State.modJob_link (s : State) (id : Nat) (f : Job → Job) : (s.modJob id f).link = s.link := rfl
@[simp] theorem State.modJob_env (s : State) (id : Nat) (f : Job → Job) : (s.modJob id f).env = s.env := rfl
@[simp] theorem State.modJob_gov (s : State) (id : Nat) (f : Job → Job) : (s.modJob id f).gov = s.gov := rfl
@[simp] theorem State.modJob_mem (s : State) (id : Nat) (f : Job → Job) : (s.modJob id f).mem = s.mem := rfl
@[simp] theorem State.modJob_wq (s : State) (id : Nat) (f : Job → Job) : (s.modJob id f).wq = s.wq := rfl
@[simp] theorem State.modJob_queues (s : State) (id : Nat) (f : Job → Job) : (s.modJob id f).queues = s.queues := rfl
@[simp] theorem State.modJob_ctxs (s : State) (id : Nat) (f : Job → Job) : (s.modJob id f).ctxs = s.ctxs := rfl
@[simp] theorem State.modJob_sems (s : State) (id : Nat) (f : Job → Job) : (s.modJob id f).sems = s.sems := rfl
@[simp] theorem State.modJob_pens (s : State) (id : Nat) (f : Job → Job) : (s.modJob id f).pens = s.pens := rfl
@[simp] theorem State.modJob_yards (s : State) (id : Nat) (f : Job → Job) : (s.modJob id f).yards = s.yards := rfl
@[simp] theorem State.modJob_cores (s : State) (id : Nat) (f : Job → Job) : (s.modJob id f).cores = s.cores := rfl
@[simp] theorem State.modJob_mcs (s : State) (id : Nat) (f : Job → Job) : (s.modJob id f).mcs = s.mcs := rfl
@[simp] theorem State.modJob_pauses (s : State) (id : Nat) (f : Job → Job) : (s.modJob id f).pauses = s.pauses := rfl
@[simp] theorem State.modJob_entries (s : State) (id : Nat) (f : Job → Job) : (s.modJob id f).entries = s.entries := rfl
@[simp] theorem State.modJob_launches (s : State) (id : Nat) (f : Job → Job) : (s.modJob id f).launches = s.launches := rfl
@[simp] theorem State.modJob_ready (s : State) (id : Nat) (f : Job → Job) : (s.modJob id f).ready = s.ready := rfl
@[simp] theorem State.modJob_bankJobs (s : State) (id : Nat) (f : Job → Job) : (s.modJob id f).bankJobs = s.bankJobs := rfl
@[simp] theorem State.modJob_experts (s : State) (id : Nat) (f : Job → Job) : (s.modJob id f).experts = s.experts := rfl
@[simp] theorem State.modJob_prefixes (s : State) (id : Nat) (f : Job → Job) : (s.modJob id f).prefixes = s.prefixes := rfl
@[simp] theorem State.modJob_prefixRefs (s : State) (id : Nat) (f : Job → Job) : (s.modJob id f).prefixRefs = s.prefixRefs := rfl
@[simp] theorem State.modJob_blockTabs (s : State) (id : Nat) (f : Job → Job) : (s.modJob id f).blockTabs = s.blockTabs := rfl
@[simp] theorem State.modJob_errors (s : State) (id : Nat) (f : Job → Job) : (s.modJob id f).errors = s.errors := rfl
@[simp] theorem State.modJob_errorCount (s : State) (id : Nat) (f : Job → Job) : (s.modJob id f).errorCount = s.errorCount := rfl
@[simp] theorem State.modJob_eccCount (s : State) (id : Nat) (f : Job → Job) : (s.modJob id f).eccCount = s.eccCount := rfl
@[simp] theorem State.modJob_served (s : State) (id : Nat) (f : Job → Job) : (s.modJob id f).served = s.served := rfl
@[simp] theorem State.modJob_readBeat (s : State) (id : Nat) (f : Job → Job) : (s.modJob id f).readBeat = s.readBeat := rfl
@[simp] theorem State.modJob_readChannels (s : State) (id : Nat) (f : Job → Job) : (s.modJob id f).readChannels = s.readChannels := rfl
@[simp] theorem State.modJob_firmAt (s : State) (id : Nat) (f : Job → Job) : (s.modJob id f).firmAt = s.firmAt := rfl
@[simp] theorem State.modJob_sidecars (s : State) (id : Nat) (f : Job → Job) : (s.modJob id f).sidecars = s.sidecars := rfl
@[simp] theorem State.modJob_fresh (s : State) (id : Nat) (f : Job → Job) : (s.modJob id f).fresh = s.fresh := rfl
@[simp] theorem State.modJob_subj (s : State) (id : Nat) (f : Job → Job) : (s.modJob id f).subj = s.subj := rfl
@[simp] theorem State.modJob_round (s : State) (id : Nat) (f : Job → Job) : (s.modJob id f).round = s.round := rfl
@[simp] theorem State.modJob_agenda (s : State) (id : Nat) (f : Job → Job) : (s.modJob id f).agenda = s.agenda := rfl

@[simp] theorem State.modEntry_beat (s : State) (id : Nat) (f : Entry → Entry) : (s.modEntry id f).beat = s.beat := rfl
@[simp] theorem State.modEntry_boot (s : State) (id : Nat) (f : Entry → Entry) : (s.modEntry id f).boot = s.boot := rfl
@[simp] theorem State.modEntry_link (s : State) (id : Nat) (f : Entry → Entry) : (s.modEntry id f).link = s.link := rfl
@[simp] theorem State.modEntry_env (s : State) (id : Nat) (f : Entry → Entry) : (s.modEntry id f).env = s.env := rfl
@[simp] theorem State.modEntry_gov (s : State) (id : Nat) (f : Entry → Entry) : (s.modEntry id f).gov = s.gov := rfl
@[simp] theorem State.modEntry_mem (s : State) (id : Nat) (f : Entry → Entry) : (s.modEntry id f).mem = s.mem := rfl
@[simp] theorem State.modEntry_wq (s : State) (id : Nat) (f : Entry → Entry) : (s.modEntry id f).wq = s.wq := rfl
@[simp] theorem State.modEntry_queues (s : State) (id : Nat) (f : Entry → Entry) : (s.modEntry id f).queues = s.queues := rfl
@[simp] theorem State.modEntry_ctxs (s : State) (id : Nat) (f : Entry → Entry) : (s.modEntry id f).ctxs = s.ctxs := rfl
@[simp] theorem State.modEntry_sems (s : State) (id : Nat) (f : Entry → Entry) : (s.modEntry id f).sems = s.sems := rfl
@[simp] theorem State.modEntry_pens (s : State) (id : Nat) (f : Entry → Entry) : (s.modEntry id f).pens = s.pens := rfl
@[simp] theorem State.modEntry_yards (s : State) (id : Nat) (f : Entry → Entry) : (s.modEntry id f).yards = s.yards := rfl
@[simp] theorem State.modEntry_cores (s : State) (id : Nat) (f : Entry → Entry) : (s.modEntry id f).cores = s.cores := rfl
@[simp] theorem State.modEntry_mcs (s : State) (id : Nat) (f : Entry → Entry) : (s.modEntry id f).mcs = s.mcs := rfl
@[simp] theorem State.modEntry_pauses (s : State) (id : Nat) (f : Entry → Entry) : (s.modEntry id f).pauses = s.pauses := rfl
@[simp] theorem State.modEntry_launches (s : State) (id : Nat) (f : Entry → Entry) : (s.modEntry id f).launches = s.launches := rfl
@[simp] theorem State.modEntry_ready (s : State) (id : Nat) (f : Entry → Entry) : (s.modEntry id f).ready = s.ready := rfl
@[simp] theorem State.modEntry_jobs (s : State) (id : Nat) (f : Entry → Entry) : (s.modEntry id f).jobs = s.jobs := rfl
@[simp] theorem State.modEntry_bankJobs (s : State) (id : Nat) (f : Entry → Entry) : (s.modEntry id f).bankJobs = s.bankJobs := rfl
@[simp] theorem State.modEntry_experts (s : State) (id : Nat) (f : Entry → Entry) : (s.modEntry id f).experts = s.experts := rfl
@[simp] theorem State.modEntry_prefixes (s : State) (id : Nat) (f : Entry → Entry) : (s.modEntry id f).prefixes = s.prefixes := rfl
@[simp] theorem State.modEntry_prefixRefs (s : State) (id : Nat) (f : Entry → Entry) : (s.modEntry id f).prefixRefs = s.prefixRefs := rfl
@[simp] theorem State.modEntry_blockTabs (s : State) (id : Nat) (f : Entry → Entry) : (s.modEntry id f).blockTabs = s.blockTabs := rfl
@[simp] theorem State.modEntry_errors (s : State) (id : Nat) (f : Entry → Entry) : (s.modEntry id f).errors = s.errors := rfl
@[simp] theorem State.modEntry_errorCount (s : State) (id : Nat) (f : Entry → Entry) : (s.modEntry id f).errorCount = s.errorCount := rfl
@[simp] theorem State.modEntry_eccCount (s : State) (id : Nat) (f : Entry → Entry) : (s.modEntry id f).eccCount = s.eccCount := rfl
@[simp] theorem State.modEntry_served (s : State) (id : Nat) (f : Entry → Entry) : (s.modEntry id f).served = s.served := rfl
@[simp] theorem State.modEntry_readBeat (s : State) (id : Nat) (f : Entry → Entry) : (s.modEntry id f).readBeat = s.readBeat := rfl
@[simp] theorem State.modEntry_readChannels (s : State) (id : Nat) (f : Entry → Entry) : (s.modEntry id f).readChannels = s.readChannels := rfl
@[simp] theorem State.modEntry_firmAt (s : State) (id : Nat) (f : Entry → Entry) : (s.modEntry id f).firmAt = s.firmAt := rfl
@[simp] theorem State.modEntry_sidecars (s : State) (id : Nat) (f : Entry → Entry) : (s.modEntry id f).sidecars = s.sidecars := rfl
@[simp] theorem State.modEntry_fresh (s : State) (id : Nat) (f : Entry → Entry) : (s.modEntry id f).fresh = s.fresh := rfl
@[simp] theorem State.modEntry_subj (s : State) (id : Nat) (f : Entry → Entry) : (s.modEntry id f).subj = s.subj := rfl
@[simp] theorem State.modEntry_round (s : State) (id : Nat) (f : Entry → Entry) : (s.modEntry id f).round = s.round := rfl
@[simp] theorem State.modEntry_agenda (s : State) (id : Nat) (f : Entry → Entry) : (s.modEntry id f).agenda = s.agenda := rfl

@[simp] theorem State.chargeFault_beat (s : State) (id code : Nat) : (s.chargeFault id code).beat = s.beat := rfl
@[simp] theorem State.chargeFault_boot (s : State) (id code : Nat) : (s.chargeFault id code).boot = s.boot := rfl
@[simp] theorem State.chargeFault_link (s : State) (id code : Nat) : (s.chargeFault id code).link = s.link := rfl
@[simp] theorem State.chargeFault_env (s : State) (id code : Nat) : (s.chargeFault id code).env = s.env := rfl
@[simp] theorem State.chargeFault_gov (s : State) (id code : Nat) : (s.chargeFault id code).gov = s.gov := rfl
@[simp] theorem State.chargeFault_mem (s : State) (id code : Nat) : (s.chargeFault id code).mem = s.mem := rfl
@[simp] theorem State.chargeFault_wq (s : State) (id code : Nat) : (s.chargeFault id code).wq = s.wq := rfl
@[simp] theorem State.chargeFault_queues (s : State) (id code : Nat) : (s.chargeFault id code).queues = s.queues := rfl
@[simp] theorem State.chargeFault_ctxs (s : State) (id code : Nat) : (s.chargeFault id code).ctxs = s.ctxs := rfl
@[simp] theorem State.chargeFault_sems (s : State) (id code : Nat) : (s.chargeFault id code).sems = s.sems := rfl
@[simp] theorem State.chargeFault_pens (s : State) (id code : Nat) : (s.chargeFault id code).pens = s.pens := rfl
@[simp] theorem State.chargeFault_yards (s : State) (id code : Nat) : (s.chargeFault id code).yards = s.yards := rfl
@[simp] theorem State.chargeFault_cores (s : State) (id code : Nat) : (s.chargeFault id code).cores = s.cores := rfl
@[simp] theorem State.chargeFault_mcs (s : State) (id code : Nat) : (s.chargeFault id code).mcs = s.mcs := rfl
@[simp] theorem State.chargeFault_pauses (s : State) (id code : Nat) : (s.chargeFault id code).pauses = s.pauses := rfl
@[simp] theorem State.chargeFault_launches (s : State) (id code : Nat) : (s.chargeFault id code).launches = s.launches := rfl
@[simp] theorem State.chargeFault_ready (s : State) (id code : Nat) : (s.chargeFault id code).ready = s.ready := rfl
@[simp] theorem State.chargeFault_jobs (s : State) (id code : Nat) : (s.chargeFault id code).jobs = s.jobs := rfl
@[simp] theorem State.chargeFault_bankJobs (s : State) (id code : Nat) : (s.chargeFault id code).bankJobs = s.bankJobs := rfl
@[simp] theorem State.chargeFault_experts (s : State) (id code : Nat) : (s.chargeFault id code).experts = s.experts := rfl
@[simp] theorem State.chargeFault_prefixes (s : State) (id code : Nat) : (s.chargeFault id code).prefixes = s.prefixes := rfl
@[simp] theorem State.chargeFault_prefixRefs (s : State) (id code : Nat) : (s.chargeFault id code).prefixRefs = s.prefixRefs := rfl
@[simp] theorem State.chargeFault_blockTabs (s : State) (id code : Nat) : (s.chargeFault id code).blockTabs = s.blockTabs := rfl
@[simp] theorem State.chargeFault_errors (s : State) (id code : Nat) : (s.chargeFault id code).errors = s.errors := rfl
@[simp] theorem State.chargeFault_errorCount (s : State) (id code : Nat) : (s.chargeFault id code).errorCount = s.errorCount := rfl
@[simp] theorem State.chargeFault_eccCount (s : State) (id code : Nat) : (s.chargeFault id code).eccCount = s.eccCount := rfl
@[simp] theorem State.chargeFault_served (s : State) (id code : Nat) : (s.chargeFault id code).served = s.served := rfl
@[simp] theorem State.chargeFault_readBeat (s : State) (id code : Nat) : (s.chargeFault id code).readBeat = s.readBeat := rfl
@[simp] theorem State.chargeFault_readChannels (s : State) (id code : Nat) : (s.chargeFault id code).readChannels = s.readChannels := rfl
@[simp] theorem State.chargeFault_firmAt (s : State) (id code : Nat) : (s.chargeFault id code).firmAt = s.firmAt := rfl
@[simp] theorem State.chargeFault_sidecars (s : State) (id code : Nat) : (s.chargeFault id code).sidecars = s.sidecars := rfl
@[simp] theorem State.chargeFault_fresh (s : State) (id code : Nat) : (s.chargeFault id code).fresh = s.fresh := rfl
@[simp] theorem State.chargeFault_subj (s : State) (id code : Nat) : (s.chargeFault id code).subj = s.subj := rfl
@[simp] theorem State.chargeFault_round (s : State) (id code : Nat) : (s.chargeFault id code).round = s.round := rfl
@[simp] theorem State.chargeFault_agenda (s : State) (id code : Nat) : (s.chargeFault id code).agenda = s.agenda := rfl

@[simp] theorem State.setExpert_beat (s : State) (x : Nat) (e : Expert) : (s.setExpert x e).beat = s.beat := rfl
@[simp] theorem State.setExpert_boot (s : State) (x : Nat) (e : Expert) : (s.setExpert x e).boot = s.boot := rfl
@[simp] theorem State.setExpert_link (s : State) (x : Nat) (e : Expert) : (s.setExpert x e).link = s.link := rfl
@[simp] theorem State.setExpert_env (s : State) (x : Nat) (e : Expert) : (s.setExpert x e).env = s.env := rfl
@[simp] theorem State.setExpert_gov (s : State) (x : Nat) (e : Expert) : (s.setExpert x e).gov = s.gov := rfl
@[simp] theorem State.setExpert_mem (s : State) (x : Nat) (e : Expert) : (s.setExpert x e).mem = s.mem := rfl
@[simp] theorem State.setExpert_wq (s : State) (x : Nat) (e : Expert) : (s.setExpert x e).wq = s.wq := rfl
@[simp] theorem State.setExpert_queues (s : State) (x : Nat) (e : Expert) : (s.setExpert x e).queues = s.queues := rfl
@[simp] theorem State.setExpert_ctxs (s : State) (x : Nat) (e : Expert) : (s.setExpert x e).ctxs = s.ctxs := rfl
@[simp] theorem State.setExpert_sems (s : State) (x : Nat) (e : Expert) : (s.setExpert x e).sems = s.sems := rfl
@[simp] theorem State.setExpert_pens (s : State) (x : Nat) (e : Expert) : (s.setExpert x e).pens = s.pens := rfl
@[simp] theorem State.setExpert_yards (s : State) (x : Nat) (e : Expert) : (s.setExpert x e).yards = s.yards := rfl
@[simp] theorem State.setExpert_cores (s : State) (x : Nat) (e : Expert) : (s.setExpert x e).cores = s.cores := rfl
@[simp] theorem State.setExpert_mcs (s : State) (x : Nat) (e : Expert) : (s.setExpert x e).mcs = s.mcs := rfl
@[simp] theorem State.setExpert_pauses (s : State) (x : Nat) (e : Expert) : (s.setExpert x e).pauses = s.pauses := rfl
@[simp] theorem State.setExpert_entries (s : State) (x : Nat) (e : Expert) : (s.setExpert x e).entries = s.entries := rfl
@[simp] theorem State.setExpert_launches (s : State) (x : Nat) (e : Expert) : (s.setExpert x e).launches = s.launches := rfl
@[simp] theorem State.setExpert_ready (s : State) (x : Nat) (e : Expert) : (s.setExpert x e).ready = s.ready := rfl
@[simp] theorem State.setExpert_jobs (s : State) (x : Nat) (e : Expert) : (s.setExpert x e).jobs = s.jobs := rfl
@[simp] theorem State.setExpert_bankJobs (s : State) (x : Nat) (e : Expert) : (s.setExpert x e).bankJobs = s.bankJobs := rfl
@[simp] theorem State.setExpert_prefixes (s : State) (x : Nat) (e : Expert) : (s.setExpert x e).prefixes = s.prefixes := rfl
@[simp] theorem State.setExpert_prefixRefs (s : State) (x : Nat) (e : Expert) : (s.setExpert x e).prefixRefs = s.prefixRefs := rfl
@[simp] theorem State.setExpert_blockTabs (s : State) (x : Nat) (e : Expert) : (s.setExpert x e).blockTabs = s.blockTabs := rfl
@[simp] theorem State.setExpert_errors (s : State) (x : Nat) (e : Expert) : (s.setExpert x e).errors = s.errors := rfl
@[simp] theorem State.setExpert_errorCount (s : State) (x : Nat) (e : Expert) : (s.setExpert x e).errorCount = s.errorCount := rfl
@[simp] theorem State.setExpert_eccCount (s : State) (x : Nat) (e : Expert) : (s.setExpert x e).eccCount = s.eccCount := rfl
@[simp] theorem State.setExpert_served (s : State) (x : Nat) (e : Expert) : (s.setExpert x e).served = s.served := rfl
@[simp] theorem State.setExpert_readBeat (s : State) (x : Nat) (e : Expert) : (s.setExpert x e).readBeat = s.readBeat := rfl
@[simp] theorem State.setExpert_readChannels (s : State) (x : Nat) (e : Expert) : (s.setExpert x e).readChannels = s.readChannels := rfl
@[simp] theorem State.setExpert_firmAt (s : State) (x : Nat) (e : Expert) : (s.setExpert x e).firmAt = s.firmAt := rfl
@[simp] theorem State.setExpert_sidecars (s : State) (x : Nat) (e : Expert) : (s.setExpert x e).sidecars = s.sidecars := rfl
@[simp] theorem State.setExpert_fresh (s : State) (x : Nat) (e : Expert) : (s.setExpert x e).fresh = s.fresh := rfl
@[simp] theorem State.setExpert_subj (s : State) (x : Nat) (e : Expert) : (s.setExpert x e).subj = s.subj := rfl
@[simp] theorem State.setExpert_round (s : State) (x : Nat) (e : Expert) : (s.setExpert x e).round = s.round := rfl
@[simp] theorem State.setExpert_agenda (s : State) (x : Nat) (e : Expert) : (s.setExpert x e).agenda = s.agenda := rfl

@[simp] theorem State.setPrefix_beat (s : State) (i : Nat) (p : Prefix) : (s.setPrefix i p).beat = s.beat := rfl
@[simp] theorem State.setPrefix_boot (s : State) (i : Nat) (p : Prefix) : (s.setPrefix i p).boot = s.boot := rfl
@[simp] theorem State.setPrefix_link (s : State) (i : Nat) (p : Prefix) : (s.setPrefix i p).link = s.link := rfl
@[simp] theorem State.setPrefix_env (s : State) (i : Nat) (p : Prefix) : (s.setPrefix i p).env = s.env := rfl
@[simp] theorem State.setPrefix_gov (s : State) (i : Nat) (p : Prefix) : (s.setPrefix i p).gov = s.gov := rfl
@[simp] theorem State.setPrefix_mem (s : State) (i : Nat) (p : Prefix) : (s.setPrefix i p).mem = s.mem := rfl
@[simp] theorem State.setPrefix_wq (s : State) (i : Nat) (p : Prefix) : (s.setPrefix i p).wq = s.wq := rfl
@[simp] theorem State.setPrefix_queues (s : State) (i : Nat) (p : Prefix) : (s.setPrefix i p).queues = s.queues := rfl
@[simp] theorem State.setPrefix_ctxs (s : State) (i : Nat) (p : Prefix) : (s.setPrefix i p).ctxs = s.ctxs := rfl
@[simp] theorem State.setPrefix_sems (s : State) (i : Nat) (p : Prefix) : (s.setPrefix i p).sems = s.sems := rfl
@[simp] theorem State.setPrefix_pens (s : State) (i : Nat) (p : Prefix) : (s.setPrefix i p).pens = s.pens := rfl
@[simp] theorem State.setPrefix_yards (s : State) (i : Nat) (p : Prefix) : (s.setPrefix i p).yards = s.yards := rfl
@[simp] theorem State.setPrefix_cores (s : State) (i : Nat) (p : Prefix) : (s.setPrefix i p).cores = s.cores := rfl
@[simp] theorem State.setPrefix_mcs (s : State) (i : Nat) (p : Prefix) : (s.setPrefix i p).mcs = s.mcs := rfl
@[simp] theorem State.setPrefix_pauses (s : State) (i : Nat) (p : Prefix) : (s.setPrefix i p).pauses = s.pauses := rfl
@[simp] theorem State.setPrefix_entries (s : State) (i : Nat) (p : Prefix) : (s.setPrefix i p).entries = s.entries := rfl
@[simp] theorem State.setPrefix_launches (s : State) (i : Nat) (p : Prefix) : (s.setPrefix i p).launches = s.launches := rfl
@[simp] theorem State.setPrefix_ready (s : State) (i : Nat) (p : Prefix) : (s.setPrefix i p).ready = s.ready := rfl
@[simp] theorem State.setPrefix_jobs (s : State) (i : Nat) (p : Prefix) : (s.setPrefix i p).jobs = s.jobs := rfl
@[simp] theorem State.setPrefix_bankJobs (s : State) (i : Nat) (p : Prefix) : (s.setPrefix i p).bankJobs = s.bankJobs := rfl
@[simp] theorem State.setPrefix_experts (s : State) (i : Nat) (p : Prefix) : (s.setPrefix i p).experts = s.experts := rfl
@[simp] theorem State.setPrefix_prefixRefs (s : State) (i : Nat) (p : Prefix) : (s.setPrefix i p).prefixRefs = s.prefixRefs := rfl
@[simp] theorem State.setPrefix_blockTabs (s : State) (i : Nat) (p : Prefix) : (s.setPrefix i p).blockTabs = s.blockTabs := rfl
@[simp] theorem State.setPrefix_errors (s : State) (i : Nat) (p : Prefix) : (s.setPrefix i p).errors = s.errors := rfl
@[simp] theorem State.setPrefix_errorCount (s : State) (i : Nat) (p : Prefix) : (s.setPrefix i p).errorCount = s.errorCount := rfl
@[simp] theorem State.setPrefix_eccCount (s : State) (i : Nat) (p : Prefix) : (s.setPrefix i p).eccCount = s.eccCount := rfl
@[simp] theorem State.setPrefix_served (s : State) (i : Nat) (p : Prefix) : (s.setPrefix i p).served = s.served := rfl
@[simp] theorem State.setPrefix_readBeat (s : State) (i : Nat) (p : Prefix) : (s.setPrefix i p).readBeat = s.readBeat := rfl
@[simp] theorem State.setPrefix_readChannels (s : State) (i : Nat) (p : Prefix) : (s.setPrefix i p).readChannels = s.readChannels := rfl
@[simp] theorem State.setPrefix_firmAt (s : State) (i : Nat) (p : Prefix) : (s.setPrefix i p).firmAt = s.firmAt := rfl
@[simp] theorem State.setPrefix_sidecars (s : State) (i : Nat) (p : Prefix) : (s.setPrefix i p).sidecars = s.sidecars := rfl
@[simp] theorem State.setPrefix_fresh (s : State) (i : Nat) (p : Prefix) : (s.setPrefix i p).fresh = s.fresh := rfl
@[simp] theorem State.setPrefix_subj (s : State) (i : Nat) (p : Prefix) : (s.setPrefix i p).subj = s.subj := rfl
@[simp] theorem State.setPrefix_round (s : State) (i : Nat) (p : Prefix) : (s.setPrefix i p).round = s.round := rfl
@[simp] theorem State.setPrefix_agenda (s : State) (i : Nat) (p : Prefix) : (s.setPrefix i p).agenda = s.agenda := rfl

@[simp] theorem State.logError_beat (s : State) (code kind index entry : Nat) : (s.logError code kind index entry).beat = s.beat := rfl
@[simp] theorem State.logError_boot (s : State) (code kind index entry : Nat) : (s.logError code kind index entry).boot = s.boot := rfl
@[simp] theorem State.logError_link (s : State) (code kind index entry : Nat) : (s.logError code kind index entry).link = s.link := rfl
@[simp] theorem State.logError_env (s : State) (code kind index entry : Nat) : (s.logError code kind index entry).env = s.env := rfl
@[simp] theorem State.logError_gov (s : State) (code kind index entry : Nat) : (s.logError code kind index entry).gov = s.gov := rfl
@[simp] theorem State.logError_mem (s : State) (code kind index entry : Nat) : (s.logError code kind index entry).mem = s.mem := rfl
@[simp] theorem State.logError_wq (s : State) (code kind index entry : Nat) : (s.logError code kind index entry).wq = s.wq := rfl
@[simp] theorem State.logError_queues (s : State) (code kind index entry : Nat) : (s.logError code kind index entry).queues = s.queues := rfl
@[simp] theorem State.logError_ctxs (s : State) (code kind index entry : Nat) : (s.logError code kind index entry).ctxs = s.ctxs := rfl
@[simp] theorem State.logError_sems (s : State) (code kind index entry : Nat) : (s.logError code kind index entry).sems = s.sems := rfl
@[simp] theorem State.logError_pens (s : State) (code kind index entry : Nat) : (s.logError code kind index entry).pens = s.pens := rfl
@[simp] theorem State.logError_yards (s : State) (code kind index entry : Nat) : (s.logError code kind index entry).yards = s.yards := rfl
@[simp] theorem State.logError_cores (s : State) (code kind index entry : Nat) : (s.logError code kind index entry).cores = s.cores := rfl
@[simp] theorem State.logError_mcs (s : State) (code kind index entry : Nat) : (s.logError code kind index entry).mcs = s.mcs := rfl
@[simp] theorem State.logError_pauses (s : State) (code kind index entry : Nat) : (s.logError code kind index entry).pauses = s.pauses := rfl
@[simp] theorem State.logError_entries (s : State) (code kind index entry : Nat) : (s.logError code kind index entry).entries = s.entries := rfl
@[simp] theorem State.logError_launches (s : State) (code kind index entry : Nat) : (s.logError code kind index entry).launches = s.launches := rfl
@[simp] theorem State.logError_ready (s : State) (code kind index entry : Nat) : (s.logError code kind index entry).ready = s.ready := rfl
@[simp] theorem State.logError_jobs (s : State) (code kind index entry : Nat) : (s.logError code kind index entry).jobs = s.jobs := rfl
@[simp] theorem State.logError_bankJobs (s : State) (code kind index entry : Nat) : (s.logError code kind index entry).bankJobs = s.bankJobs := rfl
@[simp] theorem State.logError_experts (s : State) (code kind index entry : Nat) : (s.logError code kind index entry).experts = s.experts := rfl
@[simp] theorem State.logError_prefixes (s : State) (code kind index entry : Nat) : (s.logError code kind index entry).prefixes = s.prefixes := rfl
@[simp] theorem State.logError_prefixRefs (s : State) (code kind index entry : Nat) : (s.logError code kind index entry).prefixRefs = s.prefixRefs := rfl
@[simp] theorem State.logError_blockTabs (s : State) (code kind index entry : Nat) : (s.logError code kind index entry).blockTabs = s.blockTabs := rfl
@[simp] theorem State.logError_eccCount (s : State) (code kind index entry : Nat) : (s.logError code kind index entry).eccCount = s.eccCount := rfl
@[simp] theorem State.logError_served (s : State) (code kind index entry : Nat) : (s.logError code kind index entry).served = s.served := rfl
@[simp] theorem State.logError_readBeat (s : State) (code kind index entry : Nat) : (s.logError code kind index entry).readBeat = s.readBeat := rfl
@[simp] theorem State.logError_readChannels (s : State) (code kind index entry : Nat) : (s.logError code kind index entry).readChannels = s.readChannels := rfl
@[simp] theorem State.logError_firmAt (s : State) (code kind index entry : Nat) : (s.logError code kind index entry).firmAt = s.firmAt := rfl
@[simp] theorem State.logError_sidecars (s : State) (code kind index entry : Nat) : (s.logError code kind index entry).sidecars = s.sidecars := rfl
@[simp] theorem State.logError_fresh (s : State) (code kind index entry : Nat) : (s.logError code kind index entry).fresh = s.fresh := rfl
@[simp] theorem State.logError_subj (s : State) (code kind index entry : Nat) : (s.logError code kind index entry).subj = s.subj := rfl
@[simp] theorem State.logError_round (s : State) (code kind index entry : Nat) : (s.logError code kind index entry).round = s.round := rfl
@[simp] theorem State.logError_agenda (s : State) (code kind index entry : Nat) : (s.logError code kind index entry).agenda = s.agenda := rfl

@[simp] theorem State.sendMsix_beat (s : State) (v : Nat) : (s.sendMsix v).beat = s.beat := rfl
@[simp] theorem State.sendMsix_boot (s : State) (v : Nat) : (s.sendMsix v).boot = s.boot := rfl
@[simp] theorem State.sendMsix_env (s : State) (v : Nat) : (s.sendMsix v).env = s.env := rfl
@[simp] theorem State.sendMsix_gov (s : State) (v : Nat) : (s.sendMsix v).gov = s.gov := rfl
@[simp] theorem State.sendMsix_mem (s : State) (v : Nat) : (s.sendMsix v).mem = s.mem := rfl
@[simp] theorem State.sendMsix_wq (s : State) (v : Nat) : (s.sendMsix v).wq = s.wq := rfl
@[simp] theorem State.sendMsix_queues (s : State) (v : Nat) : (s.sendMsix v).queues = s.queues := rfl
@[simp] theorem State.sendMsix_ctxs (s : State) (v : Nat) : (s.sendMsix v).ctxs = s.ctxs := rfl
@[simp] theorem State.sendMsix_sems (s : State) (v : Nat) : (s.sendMsix v).sems = s.sems := rfl
@[simp] theorem State.sendMsix_pens (s : State) (v : Nat) : (s.sendMsix v).pens = s.pens := rfl
@[simp] theorem State.sendMsix_yards (s : State) (v : Nat) : (s.sendMsix v).yards = s.yards := rfl
@[simp] theorem State.sendMsix_cores (s : State) (v : Nat) : (s.sendMsix v).cores = s.cores := rfl
@[simp] theorem State.sendMsix_mcs (s : State) (v : Nat) : (s.sendMsix v).mcs = s.mcs := rfl
@[simp] theorem State.sendMsix_pauses (s : State) (v : Nat) : (s.sendMsix v).pauses = s.pauses := rfl
@[simp] theorem State.sendMsix_entries (s : State) (v : Nat) : (s.sendMsix v).entries = s.entries := rfl
@[simp] theorem State.sendMsix_launches (s : State) (v : Nat) : (s.sendMsix v).launches = s.launches := rfl
@[simp] theorem State.sendMsix_ready (s : State) (v : Nat) : (s.sendMsix v).ready = s.ready := rfl
@[simp] theorem State.sendMsix_jobs (s : State) (v : Nat) : (s.sendMsix v).jobs = s.jobs := rfl
@[simp] theorem State.sendMsix_bankJobs (s : State) (v : Nat) : (s.sendMsix v).bankJobs = s.bankJobs := rfl
@[simp] theorem State.sendMsix_experts (s : State) (v : Nat) : (s.sendMsix v).experts = s.experts := rfl
@[simp] theorem State.sendMsix_prefixes (s : State) (v : Nat) : (s.sendMsix v).prefixes = s.prefixes := rfl
@[simp] theorem State.sendMsix_prefixRefs (s : State) (v : Nat) : (s.sendMsix v).prefixRefs = s.prefixRefs := rfl
@[simp] theorem State.sendMsix_blockTabs (s : State) (v : Nat) : (s.sendMsix v).blockTabs = s.blockTabs := rfl
@[simp] theorem State.sendMsix_errors (s : State) (v : Nat) : (s.sendMsix v).errors = s.errors := rfl
@[simp] theorem State.sendMsix_errorCount (s : State) (v : Nat) : (s.sendMsix v).errorCount = s.errorCount := rfl
@[simp] theorem State.sendMsix_eccCount (s : State) (v : Nat) : (s.sendMsix v).eccCount = s.eccCount := rfl
@[simp] theorem State.sendMsix_served (s : State) (v : Nat) : (s.sendMsix v).served = s.served := rfl
@[simp] theorem State.sendMsix_readBeat (s : State) (v : Nat) : (s.sendMsix v).readBeat = s.readBeat := rfl
@[simp] theorem State.sendMsix_readChannels (s : State) (v : Nat) : (s.sendMsix v).readChannels = s.readChannels := rfl
@[simp] theorem State.sendMsix_firmAt (s : State) (v : Nat) : (s.sendMsix v).firmAt = s.firmAt := rfl
@[simp] theorem State.sendMsix_sidecars (s : State) (v : Nat) : (s.sendMsix v).sidecars = s.sidecars := rfl
@[simp] theorem State.sendMsix_fresh (s : State) (v : Nat) : (s.sendMsix v).fresh = s.fresh := rfl
@[simp] theorem State.sendMsix_subj (s : State) (v : Nat) : (s.sendMsix v).subj = s.subj := rfl
@[simp] theorem State.sendMsix_round (s : State) (v : Nat) : (s.sendMsix v).round = s.round := rfl
@[simp] theorem State.sendMsix_agenda (s : State) (v : Nat) : (s.sendMsix v).agenda = s.agenda := rfl

@[simp] theorem State.writeBus_beat (s : State) (a : Nat) (bs : List Byte) : (s.writeBus a bs).beat = s.beat := rfl
@[simp] theorem State.writeBus_boot (s : State) (a : Nat) (bs : List Byte) : (s.writeBus a bs).boot = s.boot := rfl
@[simp] theorem State.writeBus_link (s : State) (a : Nat) (bs : List Byte) : (s.writeBus a bs).link = s.link := rfl
@[simp] theorem State.writeBus_gov (s : State) (a : Nat) (bs : List Byte) : (s.writeBus a bs).gov = s.gov := rfl
@[simp] theorem State.writeBus_mem (s : State) (a : Nat) (bs : List Byte) : (s.writeBus a bs).mem = s.mem := rfl
@[simp] theorem State.writeBus_wq (s : State) (a : Nat) (bs : List Byte) : (s.writeBus a bs).wq = s.wq := rfl
@[simp] theorem State.writeBus_queues (s : State) (a : Nat) (bs : List Byte) : (s.writeBus a bs).queues = s.queues := rfl
@[simp] theorem State.writeBus_ctxs (s : State) (a : Nat) (bs : List Byte) : (s.writeBus a bs).ctxs = s.ctxs := rfl
@[simp] theorem State.writeBus_sems (s : State) (a : Nat) (bs : List Byte) : (s.writeBus a bs).sems = s.sems := rfl
@[simp] theorem State.writeBus_pens (s : State) (a : Nat) (bs : List Byte) : (s.writeBus a bs).pens = s.pens := rfl
@[simp] theorem State.writeBus_yards (s : State) (a : Nat) (bs : List Byte) : (s.writeBus a bs).yards = s.yards := rfl
@[simp] theorem State.writeBus_cores (s : State) (a : Nat) (bs : List Byte) : (s.writeBus a bs).cores = s.cores := rfl
@[simp] theorem State.writeBus_mcs (s : State) (a : Nat) (bs : List Byte) : (s.writeBus a bs).mcs = s.mcs := rfl
@[simp] theorem State.writeBus_pauses (s : State) (a : Nat) (bs : List Byte) : (s.writeBus a bs).pauses = s.pauses := rfl
@[simp] theorem State.writeBus_entries (s : State) (a : Nat) (bs : List Byte) : (s.writeBus a bs).entries = s.entries := rfl
@[simp] theorem State.writeBus_launches (s : State) (a : Nat) (bs : List Byte) : (s.writeBus a bs).launches = s.launches := rfl
@[simp] theorem State.writeBus_ready (s : State) (a : Nat) (bs : List Byte) : (s.writeBus a bs).ready = s.ready := rfl
@[simp] theorem State.writeBus_jobs (s : State) (a : Nat) (bs : List Byte) : (s.writeBus a bs).jobs = s.jobs := rfl
@[simp] theorem State.writeBus_bankJobs (s : State) (a : Nat) (bs : List Byte) : (s.writeBus a bs).bankJobs = s.bankJobs := rfl
@[simp] theorem State.writeBus_experts (s : State) (a : Nat) (bs : List Byte) : (s.writeBus a bs).experts = s.experts := rfl
@[simp] theorem State.writeBus_prefixes (s : State) (a : Nat) (bs : List Byte) : (s.writeBus a bs).prefixes = s.prefixes := rfl
@[simp] theorem State.writeBus_prefixRefs (s : State) (a : Nat) (bs : List Byte) : (s.writeBus a bs).prefixRefs = s.prefixRefs := rfl
@[simp] theorem State.writeBus_blockTabs (s : State) (a : Nat) (bs : List Byte) : (s.writeBus a bs).blockTabs = s.blockTabs := rfl
@[simp] theorem State.writeBus_errors (s : State) (a : Nat) (bs : List Byte) : (s.writeBus a bs).errors = s.errors := rfl
@[simp] theorem State.writeBus_errorCount (s : State) (a : Nat) (bs : List Byte) : (s.writeBus a bs).errorCount = s.errorCount := rfl
@[simp] theorem State.writeBus_eccCount (s : State) (a : Nat) (bs : List Byte) : (s.writeBus a bs).eccCount = s.eccCount := rfl
@[simp] theorem State.writeBus_served (s : State) (a : Nat) (bs : List Byte) : (s.writeBus a bs).served = s.served := rfl
@[simp] theorem State.writeBus_readBeat (s : State) (a : Nat) (bs : List Byte) : (s.writeBus a bs).readBeat = s.readBeat := rfl
@[simp] theorem State.writeBus_readChannels (s : State) (a : Nat) (bs : List Byte) : (s.writeBus a bs).readChannels = s.readChannels := rfl
@[simp] theorem State.writeBus_firmAt (s : State) (a : Nat) (bs : List Byte) : (s.writeBus a bs).firmAt = s.firmAt := rfl
@[simp] theorem State.writeBus_sidecars (s : State) (a : Nat) (bs : List Byte) : (s.writeBus a bs).sidecars = s.sidecars := rfl
@[simp] theorem State.writeBus_fresh (s : State) (a : Nat) (bs : List Byte) : (s.writeBus a bs).fresh = s.fresh := rfl
@[simp] theorem State.writeBus_subj (s : State) (a : Nat) (bs : List Byte) : (s.writeBus a bs).subj = s.subj := rfl
@[simp] theorem State.writeBus_round (s : State) (a : Nat) (bs : List Byte) : (s.writeBus a bs).round = s.round := rfl
@[simp] theorem State.writeBus_agenda (s : State) (a : Nat) (bs : List Byte) : (s.writeBus a bs).agenda = s.agenda := rfl

@[simp] theorem State.enqueue_beat (s : State) (r : ContRec) : (s.enqueue r).beat = s.beat := rfl
@[simp] theorem State.enqueue_boot (s : State) (r : ContRec) : (s.enqueue r).boot = s.boot := rfl
@[simp] theorem State.enqueue_link (s : State) (r : ContRec) : (s.enqueue r).link = s.link := rfl
@[simp] theorem State.enqueue_env (s : State) (r : ContRec) : (s.enqueue r).env = s.env := rfl
@[simp] theorem State.enqueue_gov (s : State) (r : ContRec) : (s.enqueue r).gov = s.gov := rfl
@[simp] theorem State.enqueue_mem (s : State) (r : ContRec) : (s.enqueue r).mem = s.mem := rfl
@[simp] theorem State.enqueue_wq (s : State) (r : ContRec) : (s.enqueue r).wq = s.wq := rfl
@[simp] theorem State.enqueue_queues (s : State) (r : ContRec) : (s.enqueue r).queues = s.queues := rfl
@[simp] theorem State.enqueue_ctxs (s : State) (r : ContRec) : (s.enqueue r).ctxs = s.ctxs := rfl
@[simp] theorem State.enqueue_sems (s : State) (r : ContRec) : (s.enqueue r).sems = s.sems := rfl
@[simp] theorem State.enqueue_pens (s : State) (r : ContRec) : (s.enqueue r).pens = s.pens := rfl
@[simp] theorem State.enqueue_yards (s : State) (r : ContRec) : (s.enqueue r).yards = s.yards := rfl
@[simp] theorem State.enqueue_cores (s : State) (r : ContRec) : (s.enqueue r).cores = s.cores := rfl
@[simp] theorem State.enqueue_mcs (s : State) (r : ContRec) : (s.enqueue r).mcs = s.mcs := rfl
@[simp] theorem State.enqueue_pauses (s : State) (r : ContRec) : (s.enqueue r).pauses = s.pauses := rfl
@[simp] theorem State.enqueue_entries (s : State) (r : ContRec) : (s.enqueue r).entries = s.entries := rfl
@[simp] theorem State.enqueue_launches (s : State) (r : ContRec) : (s.enqueue r).launches = s.launches := rfl
@[simp] theorem State.enqueue_jobs (s : State) (r : ContRec) : (s.enqueue r).jobs = s.jobs := rfl
@[simp] theorem State.enqueue_bankJobs (s : State) (r : ContRec) : (s.enqueue r).bankJobs = s.bankJobs := rfl
@[simp] theorem State.enqueue_experts (s : State) (r : ContRec) : (s.enqueue r).experts = s.experts := rfl
@[simp] theorem State.enqueue_prefixes (s : State) (r : ContRec) : (s.enqueue r).prefixes = s.prefixes := rfl
@[simp] theorem State.enqueue_prefixRefs (s : State) (r : ContRec) : (s.enqueue r).prefixRefs = s.prefixRefs := rfl
@[simp] theorem State.enqueue_blockTabs (s : State) (r : ContRec) : (s.enqueue r).blockTabs = s.blockTabs := rfl
@[simp] theorem State.enqueue_errors (s : State) (r : ContRec) : (s.enqueue r).errors = s.errors := rfl
@[simp] theorem State.enqueue_errorCount (s : State) (r : ContRec) : (s.enqueue r).errorCount = s.errorCount := rfl
@[simp] theorem State.enqueue_eccCount (s : State) (r : ContRec) : (s.enqueue r).eccCount = s.eccCount := rfl
@[simp] theorem State.enqueue_served (s : State) (r : ContRec) : (s.enqueue r).served = s.served := rfl
@[simp] theorem State.enqueue_readBeat (s : State) (r : ContRec) : (s.enqueue r).readBeat = s.readBeat := rfl
@[simp] theorem State.enqueue_readChannels (s : State) (r : ContRec) : (s.enqueue r).readChannels = s.readChannels := rfl
@[simp] theorem State.enqueue_firmAt (s : State) (r : ContRec) : (s.enqueue r).firmAt = s.firmAt := rfl
@[simp] theorem State.enqueue_sidecars (s : State) (r : ContRec) : (s.enqueue r).sidecars = s.sidecars := rfl
@[simp] theorem State.enqueue_subj (s : State) (r : ContRec) : (s.enqueue r).subj = s.subj := rfl
@[simp] theorem State.enqueue_round (s : State) (r : ContRec) : (s.enqueue r).round = s.round := rfl
@[simp] theorem State.enqueue_agenda (s : State) (r : ContRec) : (s.enqueue r).agenda = s.agenda := rfl

@[simp] theorem State.drainWrites_beat (s : State) : (s.drainWrites).beat = s.beat := rfl
@[simp] theorem State.drainWrites_boot (s : State) : (s.drainWrites).boot = s.boot := rfl
@[simp] theorem State.drainWrites_link (s : State) : (s.drainWrites).link = s.link := rfl
@[simp] theorem State.drainWrites_env (s : State) : (s.drainWrites).env = s.env := rfl
@[simp] theorem State.drainWrites_gov (s : State) : (s.drainWrites).gov = s.gov := rfl
@[simp] theorem State.drainWrites_queues (s : State) : (s.drainWrites).queues = s.queues := rfl
@[simp] theorem State.drainWrites_ctxs (s : State) : (s.drainWrites).ctxs = s.ctxs := rfl
@[simp] theorem State.drainWrites_sems (s : State) : (s.drainWrites).sems = s.sems := rfl
@[simp] theorem State.drainWrites_pens (s : State) : (s.drainWrites).pens = s.pens := rfl
@[simp] theorem State.drainWrites_yards (s : State) : (s.drainWrites).yards = s.yards := rfl
@[simp] theorem State.drainWrites_cores (s : State) : (s.drainWrites).cores = s.cores := rfl
@[simp] theorem State.drainWrites_mcs (s : State) : (s.drainWrites).mcs = s.mcs := rfl
@[simp] theorem State.drainWrites_pauses (s : State) : (s.drainWrites).pauses = s.pauses := rfl
@[simp] theorem State.drainWrites_entries (s : State) : (s.drainWrites).entries = s.entries := rfl
@[simp] theorem State.drainWrites_launches (s : State) : (s.drainWrites).launches = s.launches := rfl
@[simp] theorem State.drainWrites_ready (s : State) : (s.drainWrites).ready = s.ready := rfl
@[simp] theorem State.drainWrites_jobs (s : State) : (s.drainWrites).jobs = s.jobs := rfl
@[simp] theorem State.drainWrites_bankJobs (s : State) : (s.drainWrites).bankJobs = s.bankJobs := rfl
@[simp] theorem State.drainWrites_experts (s : State) : (s.drainWrites).experts = s.experts := rfl
@[simp] theorem State.drainWrites_prefixes (s : State) : (s.drainWrites).prefixes = s.prefixes := rfl
@[simp] theorem State.drainWrites_prefixRefs (s : State) : (s.drainWrites).prefixRefs = s.prefixRefs := rfl
@[simp] theorem State.drainWrites_blockTabs (s : State) : (s.drainWrites).blockTabs = s.blockTabs := rfl
@[simp] theorem State.drainWrites_errors (s : State) : (s.drainWrites).errors = s.errors := rfl
@[simp] theorem State.drainWrites_errorCount (s : State) : (s.drainWrites).errorCount = s.errorCount := rfl
@[simp] theorem State.drainWrites_eccCount (s : State) : (s.drainWrites).eccCount = s.eccCount := rfl
@[simp] theorem State.drainWrites_served (s : State) : (s.drainWrites).served = s.served := rfl
@[simp] theorem State.drainWrites_readBeat (s : State) : (s.drainWrites).readBeat = s.readBeat := rfl
@[simp] theorem State.drainWrites_readChannels (s : State) : (s.drainWrites).readChannels = s.readChannels := rfl
@[simp] theorem State.drainWrites_firmAt (s : State) : (s.drainWrites).firmAt = s.firmAt := rfl
@[simp] theorem State.drainWrites_sidecars (s : State) : (s.drainWrites).sidecars = s.sidecars := rfl
@[simp] theorem State.drainWrites_fresh (s : State) : (s.drainWrites).fresh = s.fresh := rfl
@[simp] theorem State.drainWrites_subj (s : State) : (s.drainWrites).subj = s.subj := rfl
@[simp] theorem State.drainWrites_round (s : State) : (s.drainWrites).round = s.round := rfl
@[simp] theorem State.drainWrites_agenda (s : State) : (s.drainWrites).agenda = s.agenda := rfl

@[simp] theorem State.raiseFlags_beat (s : State) (x : Sticky) : (s.raiseFlags x).beat = s.beat := rfl
@[simp] theorem State.raiseFlags_boot (s : State) (x : Sticky) : (s.raiseFlags x).boot = s.boot := rfl
@[simp] theorem State.raiseFlags_link (s : State) (x : Sticky) : (s.raiseFlags x).link = s.link := rfl
@[simp] theorem State.raiseFlags_env (s : State) (x : Sticky) : (s.raiseFlags x).env = s.env := rfl
@[simp] theorem State.raiseFlags_gov (s : State) (x : Sticky) : (s.raiseFlags x).gov = s.gov := rfl
@[simp] theorem State.raiseFlags_mem (s : State) (x : Sticky) : (s.raiseFlags x).mem = s.mem := rfl
@[simp] theorem State.raiseFlags_wq (s : State) (x : Sticky) : (s.raiseFlags x).wq = s.wq := rfl
@[simp] theorem State.raiseFlags_queues (s : State) (x : Sticky) : (s.raiseFlags x).queues = s.queues := rfl
@[simp] theorem State.raiseFlags_ctxs (s : State) (x : Sticky) : (s.raiseFlags x).ctxs = s.ctxs := rfl
@[simp] theorem State.raiseFlags_sems (s : State) (x : Sticky) : (s.raiseFlags x).sems = s.sems := rfl
@[simp] theorem State.raiseFlags_pens (s : State) (x : Sticky) : (s.raiseFlags x).pens = s.pens := rfl
@[simp] theorem State.raiseFlags_yards (s : State) (x : Sticky) : (s.raiseFlags x).yards = s.yards := rfl
@[simp] theorem State.raiseFlags_mcs (s : State) (x : Sticky) : (s.raiseFlags x).mcs = s.mcs := rfl
@[simp] theorem State.raiseFlags_pauses (s : State) (x : Sticky) : (s.raiseFlags x).pauses = s.pauses := rfl
@[simp] theorem State.raiseFlags_entries (s : State) (x : Sticky) : (s.raiseFlags x).entries = s.entries := rfl
@[simp] theorem State.raiseFlags_launches (s : State) (x : Sticky) : (s.raiseFlags x).launches = s.launches := rfl
@[simp] theorem State.raiseFlags_ready (s : State) (x : Sticky) : (s.raiseFlags x).ready = s.ready := rfl
@[simp] theorem State.raiseFlags_jobs (s : State) (x : Sticky) : (s.raiseFlags x).jobs = s.jobs := rfl
@[simp] theorem State.raiseFlags_bankJobs (s : State) (x : Sticky) : (s.raiseFlags x).bankJobs = s.bankJobs := rfl
@[simp] theorem State.raiseFlags_experts (s : State) (x : Sticky) : (s.raiseFlags x).experts = s.experts := rfl
@[simp] theorem State.raiseFlags_prefixes (s : State) (x : Sticky) : (s.raiseFlags x).prefixes = s.prefixes := rfl
@[simp] theorem State.raiseFlags_prefixRefs (s : State) (x : Sticky) : (s.raiseFlags x).prefixRefs = s.prefixRefs := rfl
@[simp] theorem State.raiseFlags_blockTabs (s : State) (x : Sticky) : (s.raiseFlags x).blockTabs = s.blockTabs := rfl
@[simp] theorem State.raiseFlags_errors (s : State) (x : Sticky) : (s.raiseFlags x).errors = s.errors := rfl
@[simp] theorem State.raiseFlags_errorCount (s : State) (x : Sticky) : (s.raiseFlags x).errorCount = s.errorCount := rfl
@[simp] theorem State.raiseFlags_eccCount (s : State) (x : Sticky) : (s.raiseFlags x).eccCount = s.eccCount := rfl
@[simp] theorem State.raiseFlags_served (s : State) (x : Sticky) : (s.raiseFlags x).served = s.served := rfl
@[simp] theorem State.raiseFlags_readBeat (s : State) (x : Sticky) : (s.raiseFlags x).readBeat = s.readBeat := rfl
@[simp] theorem State.raiseFlags_readChannels (s : State) (x : Sticky) : (s.raiseFlags x).readChannels = s.readChannels := rfl
@[simp] theorem State.raiseFlags_firmAt (s : State) (x : Sticky) : (s.raiseFlags x).firmAt = s.firmAt := rfl
@[simp] theorem State.raiseFlags_sidecars (s : State) (x : Sticky) : (s.raiseFlags x).sidecars = s.sidecars := rfl
@[simp] theorem State.raiseFlags_fresh (s : State) (x : Sticky) : (s.raiseFlags x).fresh = s.fresh := rfl
@[simp] theorem State.raiseFlags_subj (s : State) (x : Sticky) : (s.raiseFlags x).subj = s.subj := rfl
@[simp] theorem State.raiseFlags_round (s : State) (x : Sticky) : (s.raiseFlags x).round = s.round := rfl
@[simp] theorem State.raiseFlags_agenda (s : State) (x : Sticky) : (s.raiseFlags x).agenda = s.agenda := rfl

@[simp] theorem State.countDown_beat (s : State) (e : Nat) : (s.countDown e).beat = s.beat := rfl
@[simp] theorem State.countDown_boot (s : State) (e : Nat) : (s.countDown e).boot = s.boot := rfl
@[simp] theorem State.countDown_link (s : State) (e : Nat) : (s.countDown e).link = s.link := rfl
@[simp] theorem State.countDown_env (s : State) (e : Nat) : (s.countDown e).env = s.env := rfl
@[simp] theorem State.countDown_gov (s : State) (e : Nat) : (s.countDown e).gov = s.gov := rfl
@[simp] theorem State.countDown_mem (s : State) (e : Nat) : (s.countDown e).mem = s.mem := rfl
@[simp] theorem State.countDown_wq (s : State) (e : Nat) : (s.countDown e).wq = s.wq := rfl
@[simp] theorem State.countDown_queues (s : State) (e : Nat) : (s.countDown e).queues = s.queues := rfl
@[simp] theorem State.countDown_ctxs (s : State) (e : Nat) : (s.countDown e).ctxs = s.ctxs := rfl
@[simp] theorem State.countDown_sems (s : State) (e : Nat) : (s.countDown e).sems = s.sems := rfl
@[simp] theorem State.countDown_pens (s : State) (e : Nat) : (s.countDown e).pens = s.pens := rfl
@[simp] theorem State.countDown_yards (s : State) (e : Nat) : (s.countDown e).yards = s.yards := rfl
@[simp] theorem State.countDown_cores (s : State) (e : Nat) : (s.countDown e).cores = s.cores := rfl
@[simp] theorem State.countDown_mcs (s : State) (e : Nat) : (s.countDown e).mcs = s.mcs := rfl
@[simp] theorem State.countDown_pauses (s : State) (e : Nat) : (s.countDown e).pauses = s.pauses := rfl
@[simp] theorem State.countDown_launches (s : State) (e : Nat) : (s.countDown e).launches = s.launches := rfl
@[simp] theorem State.countDown_ready (s : State) (e : Nat) : (s.countDown e).ready = s.ready := rfl
@[simp] theorem State.countDown_jobs (s : State) (e : Nat) : (s.countDown e).jobs = s.jobs := rfl
@[simp] theorem State.countDown_bankJobs (s : State) (e : Nat) : (s.countDown e).bankJobs = s.bankJobs := rfl
@[simp] theorem State.countDown_experts (s : State) (e : Nat) : (s.countDown e).experts = s.experts := rfl
@[simp] theorem State.countDown_prefixes (s : State) (e : Nat) : (s.countDown e).prefixes = s.prefixes := rfl
@[simp] theorem State.countDown_prefixRefs (s : State) (e : Nat) : (s.countDown e).prefixRefs = s.prefixRefs := rfl
@[simp] theorem State.countDown_blockTabs (s : State) (e : Nat) : (s.countDown e).blockTabs = s.blockTabs := rfl
@[simp] theorem State.countDown_errors (s : State) (e : Nat) : (s.countDown e).errors = s.errors := rfl
@[simp] theorem State.countDown_errorCount (s : State) (e : Nat) : (s.countDown e).errorCount = s.errorCount := rfl
@[simp] theorem State.countDown_eccCount (s : State) (e : Nat) : (s.countDown e).eccCount = s.eccCount := rfl
@[simp] theorem State.countDown_served (s : State) (e : Nat) : (s.countDown e).served = s.served := rfl
@[simp] theorem State.countDown_readBeat (s : State) (e : Nat) : (s.countDown e).readBeat = s.readBeat := rfl
@[simp] theorem State.countDown_readChannels (s : State) (e : Nat) : (s.countDown e).readChannels = s.readChannels := rfl
@[simp] theorem State.countDown_firmAt (s : State) (e : Nat) : (s.countDown e).firmAt = s.firmAt := rfl
@[simp] theorem State.countDown_sidecars (s : State) (e : Nat) : (s.countDown e).sidecars = s.sidecars := rfl
@[simp] theorem State.countDown_fresh (s : State) (e : Nat) : (s.countDown e).fresh = s.fresh := rfl
@[simp] theorem State.countDown_subj (s : State) (e : Nat) : (s.countDown e).subj = s.subj := rfl
@[simp] theorem State.countDown_round (s : State) (e : Nat) : (s.countDown e).round = s.round := rfl
@[simp] theorem State.countDown_agenda (s : State) (e : Nat) : (s.countDown e).agenda = s.agenda := rfl

@[simp] theorem State.unbind_beat (s : State) (i : Nat) : (s.unbind i).beat = s.beat := rfl
@[simp] theorem State.unbind_boot (s : State) (i : Nat) : (s.unbind i).boot = s.boot := rfl
@[simp] theorem State.unbind_link (s : State) (i : Nat) : (s.unbind i).link = s.link := rfl
@[simp] theorem State.unbind_env (s : State) (i : Nat) : (s.unbind i).env = s.env := rfl
@[simp] theorem State.unbind_gov (s : State) (i : Nat) : (s.unbind i).gov = s.gov := rfl
@[simp] theorem State.unbind_mem (s : State) (i : Nat) : (s.unbind i).mem = s.mem := rfl
@[simp] theorem State.unbind_wq (s : State) (i : Nat) : (s.unbind i).wq = s.wq := rfl
@[simp] theorem State.unbind_queues (s : State) (i : Nat) : (s.unbind i).queues = s.queues := rfl
@[simp] theorem State.unbind_ctxs (s : State) (i : Nat) : (s.unbind i).ctxs = s.ctxs := rfl
@[simp] theorem State.unbind_sems (s : State) (i : Nat) : (s.unbind i).sems = s.sems := rfl
@[simp] theorem State.unbind_pens (s : State) (i : Nat) : (s.unbind i).pens = s.pens := rfl
@[simp] theorem State.unbind_yards (s : State) (i : Nat) : (s.unbind i).yards = s.yards := rfl
@[simp] theorem State.unbind_mcs (s : State) (i : Nat) : (s.unbind i).mcs = s.mcs := rfl
@[simp] theorem State.unbind_pauses (s : State) (i : Nat) : (s.unbind i).pauses = s.pauses := rfl
@[simp] theorem State.unbind_entries (s : State) (i : Nat) : (s.unbind i).entries = s.entries := rfl
@[simp] theorem State.unbind_launches (s : State) (i : Nat) : (s.unbind i).launches = s.launches := rfl
@[simp] theorem State.unbind_ready (s : State) (i : Nat) : (s.unbind i).ready = s.ready := rfl
@[simp] theorem State.unbind_jobs (s : State) (i : Nat) : (s.unbind i).jobs = s.jobs := rfl
@[simp] theorem State.unbind_bankJobs (s : State) (i : Nat) : (s.unbind i).bankJobs = s.bankJobs := rfl
@[simp] theorem State.unbind_experts (s : State) (i : Nat) : (s.unbind i).experts = s.experts := rfl
@[simp] theorem State.unbind_prefixes (s : State) (i : Nat) : (s.unbind i).prefixes = s.prefixes := rfl
@[simp] theorem State.unbind_prefixRefs (s : State) (i : Nat) : (s.unbind i).prefixRefs = s.prefixRefs := rfl
@[simp] theorem State.unbind_blockTabs (s : State) (i : Nat) : (s.unbind i).blockTabs = s.blockTabs := rfl
@[simp] theorem State.unbind_errors (s : State) (i : Nat) : (s.unbind i).errors = s.errors := rfl
@[simp] theorem State.unbind_errorCount (s : State) (i : Nat) : (s.unbind i).errorCount = s.errorCount := rfl
@[simp] theorem State.unbind_eccCount (s : State) (i : Nat) : (s.unbind i).eccCount = s.eccCount := rfl
@[simp] theorem State.unbind_served (s : State) (i : Nat) : (s.unbind i).served = s.served := rfl
@[simp] theorem State.unbind_readBeat (s : State) (i : Nat) : (s.unbind i).readBeat = s.readBeat := rfl
@[simp] theorem State.unbind_readChannels (s : State) (i : Nat) : (s.unbind i).readChannels = s.readChannels := rfl
@[simp] theorem State.unbind_firmAt (s : State) (i : Nat) : (s.unbind i).firmAt = s.firmAt := rfl
@[simp] theorem State.unbind_sidecars (s : State) (i : Nat) : (s.unbind i).sidecars = s.sidecars := rfl
@[simp] theorem State.unbind_fresh (s : State) (i : Nat) : (s.unbind i).fresh = s.fresh := rfl
@[simp] theorem State.unbind_subj (s : State) (i : Nat) : (s.unbind i).subj = s.subj := rfl
@[simp] theorem State.unbind_round (s : State) (i : Nat) : (s.unbind i).round = s.round := rfl
@[simp] theorem State.unbind_agenda (s : State) (i : Nat) : (s.unbind i).agenda = s.agenda := rfl

@[simp] theorem State.presetSem_beat (s : State) (n v : Nat) : (s.presetSem n v).beat = s.beat := rfl
@[simp] theorem State.presetSem_boot (s : State) (n v : Nat) : (s.presetSem n v).boot = s.boot := rfl
@[simp] theorem State.presetSem_link (s : State) (n v : Nat) : (s.presetSem n v).link = s.link := rfl
@[simp] theorem State.presetSem_env (s : State) (n v : Nat) : (s.presetSem n v).env = s.env := rfl
@[simp] theorem State.presetSem_gov (s : State) (n v : Nat) : (s.presetSem n v).gov = s.gov := rfl
@[simp] theorem State.presetSem_mem (s : State) (n v : Nat) : (s.presetSem n v).mem = s.mem := rfl
@[simp] theorem State.presetSem_wq (s : State) (n v : Nat) : (s.presetSem n v).wq = s.wq := rfl
@[simp] theorem State.presetSem_queues (s : State) (n v : Nat) : (s.presetSem n v).queues = s.queues := rfl
@[simp] theorem State.presetSem_ctxs (s : State) (n v : Nat) : (s.presetSem n v).ctxs = s.ctxs := rfl
@[simp] theorem State.presetSem_pens (s : State) (n v : Nat) : (s.presetSem n v).pens = s.pens := rfl
@[simp] theorem State.presetSem_yards (s : State) (n v : Nat) : (s.presetSem n v).yards = s.yards := rfl
@[simp] theorem State.presetSem_cores (s : State) (n v : Nat) : (s.presetSem n v).cores = s.cores := rfl
@[simp] theorem State.presetSem_mcs (s : State) (n v : Nat) : (s.presetSem n v).mcs = s.mcs := rfl
@[simp] theorem State.presetSem_pauses (s : State) (n v : Nat) : (s.presetSem n v).pauses = s.pauses := rfl
@[simp] theorem State.presetSem_entries (s : State) (n v : Nat) : (s.presetSem n v).entries = s.entries := rfl
@[simp] theorem State.presetSem_launches (s : State) (n v : Nat) : (s.presetSem n v).launches = s.launches := rfl
@[simp] theorem State.presetSem_jobs (s : State) (n v : Nat) : (s.presetSem n v).jobs = s.jobs := rfl
@[simp] theorem State.presetSem_bankJobs (s : State) (n v : Nat) : (s.presetSem n v).bankJobs = s.bankJobs := rfl
@[simp] theorem State.presetSem_experts (s : State) (n v : Nat) : (s.presetSem n v).experts = s.experts := rfl
@[simp] theorem State.presetSem_prefixes (s : State) (n v : Nat) : (s.presetSem n v).prefixes = s.prefixes := rfl
@[simp] theorem State.presetSem_prefixRefs (s : State) (n v : Nat) : (s.presetSem n v).prefixRefs = s.prefixRefs := rfl
@[simp] theorem State.presetSem_blockTabs (s : State) (n v : Nat) : (s.presetSem n v).blockTabs = s.blockTabs := rfl
@[simp] theorem State.presetSem_errors (s : State) (n v : Nat) : (s.presetSem n v).errors = s.errors := rfl
@[simp] theorem State.presetSem_errorCount (s : State) (n v : Nat) : (s.presetSem n v).errorCount = s.errorCount := rfl
@[simp] theorem State.presetSem_eccCount (s : State) (n v : Nat) : (s.presetSem n v).eccCount = s.eccCount := rfl
@[simp] theorem State.presetSem_served (s : State) (n v : Nat) : (s.presetSem n v).served = s.served := rfl
@[simp] theorem State.presetSem_readBeat (s : State) (n v : Nat) : (s.presetSem n v).readBeat = s.readBeat := rfl
@[simp] theorem State.presetSem_readChannels (s : State) (n v : Nat) : (s.presetSem n v).readChannels = s.readChannels := rfl
@[simp] theorem State.presetSem_firmAt (s : State) (n v : Nat) : (s.presetSem n v).firmAt = s.firmAt := rfl
@[simp] theorem State.presetSem_sidecars (s : State) (n v : Nat) : (s.presetSem n v).sidecars = s.sidecars := rfl
@[simp] theorem State.presetSem_fresh (s : State) (n v : Nat) : (s.presetSem n v).fresh = s.fresh := rfl
@[simp] theorem State.presetSem_subj (s : State) (n v : Nat) : (s.presetSem n v).subj = s.subj := rfl
@[simp] theorem State.presetSem_round (s : State) (n v : Nat) : (s.presetSem n v).round = s.round := rfl
@[simp] theorem State.presetSem_agenda (s : State) (n v : Nat) : (s.presetSem n v).agenda = s.agenda := rfl

@[simp] theorem State.modCont_beat (s : State) (c : Nat) (f : Core → Core) : (s.modCont c f).beat = s.beat := rfl
@[simp] theorem State.modCont_boot (s : State) (c : Nat) (f : Core → Core) : (s.modCont c f).boot = s.boot := rfl
@[simp] theorem State.modCont_link (s : State) (c : Nat) (f : Core → Core) : (s.modCont c f).link = s.link := rfl
@[simp] theorem State.modCont_env (s : State) (c : Nat) (f : Core → Core) : (s.modCont c f).env = s.env := rfl
@[simp] theorem State.modCont_gov (s : State) (c : Nat) (f : Core → Core) : (s.modCont c f).gov = s.gov := rfl
@[simp] theorem State.modCont_mem (s : State) (c : Nat) (f : Core → Core) : (s.modCont c f).mem = s.mem := rfl
@[simp] theorem State.modCont_wq (s : State) (c : Nat) (f : Core → Core) : (s.modCont c f).wq = s.wq := rfl
@[simp] theorem State.modCont_queues (s : State) (c : Nat) (f : Core → Core) : (s.modCont c f).queues = s.queues := rfl
@[simp] theorem State.modCont_ctxs (s : State) (c : Nat) (f : Core → Core) : (s.modCont c f).ctxs = s.ctxs := rfl
@[simp] theorem State.modCont_sems (s : State) (c : Nat) (f : Core → Core) : (s.modCont c f).sems = s.sems := rfl
@[simp] theorem State.modCont_pens (s : State) (c : Nat) (f : Core → Core) : (s.modCont c f).pens = s.pens := rfl
@[simp] theorem State.modCont_yards (s : State) (c : Nat) (f : Core → Core) : (s.modCont c f).yards = s.yards := rfl
@[simp] theorem State.modCont_mcs (s : State) (c : Nat) (f : Core → Core) : (s.modCont c f).mcs = s.mcs := rfl
@[simp] theorem State.modCont_pauses (s : State) (c : Nat) (f : Core → Core) : (s.modCont c f).pauses = s.pauses := rfl
@[simp] theorem State.modCont_entries (s : State) (c : Nat) (f : Core → Core) : (s.modCont c f).entries = s.entries := rfl
@[simp] theorem State.modCont_launches (s : State) (c : Nat) (f : Core → Core) : (s.modCont c f).launches = s.launches := rfl
@[simp] theorem State.modCont_jobs (s : State) (c : Nat) (f : Core → Core) : (s.modCont c f).jobs = s.jobs := rfl
@[simp] theorem State.modCont_bankJobs (s : State) (c : Nat) (f : Core → Core) : (s.modCont c f).bankJobs = s.bankJobs := rfl
@[simp] theorem State.modCont_experts (s : State) (c : Nat) (f : Core → Core) : (s.modCont c f).experts = s.experts := rfl
@[simp] theorem State.modCont_prefixes (s : State) (c : Nat) (f : Core → Core) : (s.modCont c f).prefixes = s.prefixes := rfl
@[simp] theorem State.modCont_prefixRefs (s : State) (c : Nat) (f : Core → Core) : (s.modCont c f).prefixRefs = s.prefixRefs := rfl
@[simp] theorem State.modCont_blockTabs (s : State) (c : Nat) (f : Core → Core) : (s.modCont c f).blockTabs = s.blockTabs := rfl
@[simp] theorem State.modCont_errors (s : State) (c : Nat) (f : Core → Core) : (s.modCont c f).errors = s.errors := rfl
@[simp] theorem State.modCont_errorCount (s : State) (c : Nat) (f : Core → Core) : (s.modCont c f).errorCount = s.errorCount := rfl
@[simp] theorem State.modCont_eccCount (s : State) (c : Nat) (f : Core → Core) : (s.modCont c f).eccCount = s.eccCount := rfl
@[simp] theorem State.modCont_served (s : State) (c : Nat) (f : Core → Core) : (s.modCont c f).served = s.served := rfl
@[simp] theorem State.modCont_readBeat (s : State) (c : Nat) (f : Core → Core) : (s.modCont c f).readBeat = s.readBeat := rfl
@[simp] theorem State.modCont_readChannels (s : State) (c : Nat) (f : Core → Core) : (s.modCont c f).readChannels = s.readChannels := rfl
@[simp] theorem State.modCont_firmAt (s : State) (c : Nat) (f : Core → Core) : (s.modCont c f).firmAt = s.firmAt := rfl
@[simp] theorem State.modCont_sidecars (s : State) (c : Nat) (f : Core → Core) : (s.modCont c f).sidecars = s.sidecars := rfl
@[simp] theorem State.modCont_fresh (s : State) (c : Nat) (f : Core → Core) : (s.modCont c f).fresh = s.fresh := rfl
@[simp] theorem State.modCont_subj (s : State) (c : Nat) (f : Core → Core) : (s.modCont c f).subj = s.subj := rfl
@[simp] theorem State.modCont_round (s : State) (c : Nat) (f : Core → Core) : (s.modCont c f).round = s.round := rfl
@[simp] theorem State.modCont_agenda (s : State) (c : Nat) (f : Core → Core) : (s.modCont c f).agenda = s.agenda := rfl

@[simp] theorem State.replyBytes_beat (s : State) (bs : List Byte) : (s.replyBytes bs).beat = s.beat := rfl
@[simp] theorem State.replyBytes_boot (s : State) (bs : List Byte) : (s.replyBytes bs).boot = s.boot := rfl
@[simp] theorem State.replyBytes_env (s : State) (bs : List Byte) : (s.replyBytes bs).env = s.env := rfl
@[simp] theorem State.replyBytes_gov (s : State) (bs : List Byte) : (s.replyBytes bs).gov = s.gov := rfl
@[simp] theorem State.replyBytes_mem (s : State) (bs : List Byte) : (s.replyBytes bs).mem = s.mem := rfl
@[simp] theorem State.replyBytes_wq (s : State) (bs : List Byte) : (s.replyBytes bs).wq = s.wq := rfl
@[simp] theorem State.replyBytes_queues (s : State) (bs : List Byte) : (s.replyBytes bs).queues = s.queues := rfl
@[simp] theorem State.replyBytes_ctxs (s : State) (bs : List Byte) : (s.replyBytes bs).ctxs = s.ctxs := rfl
@[simp] theorem State.replyBytes_sems (s : State) (bs : List Byte) : (s.replyBytes bs).sems = s.sems := rfl
@[simp] theorem State.replyBytes_pens (s : State) (bs : List Byte) : (s.replyBytes bs).pens = s.pens := rfl
@[simp] theorem State.replyBytes_yards (s : State) (bs : List Byte) : (s.replyBytes bs).yards = s.yards := rfl
@[simp] theorem State.replyBytes_cores (s : State) (bs : List Byte) : (s.replyBytes bs).cores = s.cores := rfl
@[simp] theorem State.replyBytes_mcs (s : State) (bs : List Byte) : (s.replyBytes bs).mcs = s.mcs := rfl
@[simp] theorem State.replyBytes_pauses (s : State) (bs : List Byte) : (s.replyBytes bs).pauses = s.pauses := rfl
@[simp] theorem State.replyBytes_entries (s : State) (bs : List Byte) : (s.replyBytes bs).entries = s.entries := rfl
@[simp] theorem State.replyBytes_launches (s : State) (bs : List Byte) : (s.replyBytes bs).launches = s.launches := rfl
@[simp] theorem State.replyBytes_ready (s : State) (bs : List Byte) : (s.replyBytes bs).ready = s.ready := rfl
@[simp] theorem State.replyBytes_jobs (s : State) (bs : List Byte) : (s.replyBytes bs).jobs = s.jobs := rfl
@[simp] theorem State.replyBytes_bankJobs (s : State) (bs : List Byte) : (s.replyBytes bs).bankJobs = s.bankJobs := rfl
@[simp] theorem State.replyBytes_experts (s : State) (bs : List Byte) : (s.replyBytes bs).experts = s.experts := rfl
@[simp] theorem State.replyBytes_prefixes (s : State) (bs : List Byte) : (s.replyBytes bs).prefixes = s.prefixes := rfl
@[simp] theorem State.replyBytes_prefixRefs (s : State) (bs : List Byte) : (s.replyBytes bs).prefixRefs = s.prefixRefs := rfl
@[simp] theorem State.replyBytes_blockTabs (s : State) (bs : List Byte) : (s.replyBytes bs).blockTabs = s.blockTabs := rfl
@[simp] theorem State.replyBytes_errors (s : State) (bs : List Byte) : (s.replyBytes bs).errors = s.errors := rfl
@[simp] theorem State.replyBytes_errorCount (s : State) (bs : List Byte) : (s.replyBytes bs).errorCount = s.errorCount := rfl
@[simp] theorem State.replyBytes_eccCount (s : State) (bs : List Byte) : (s.replyBytes bs).eccCount = s.eccCount := rfl
@[simp] theorem State.replyBytes_served (s : State) (bs : List Byte) : (s.replyBytes bs).served = s.served := rfl
@[simp] theorem State.replyBytes_readBeat (s : State) (bs : List Byte) : (s.replyBytes bs).readBeat = s.readBeat := rfl
@[simp] theorem State.replyBytes_readChannels (s : State) (bs : List Byte) : (s.replyBytes bs).readChannels = s.readChannels := rfl
@[simp] theorem State.replyBytes_firmAt (s : State) (bs : List Byte) : (s.replyBytes bs).firmAt = s.firmAt := rfl
@[simp] theorem State.replyBytes_sidecars (s : State) (bs : List Byte) : (s.replyBytes bs).sidecars = s.sidecars := rfl
@[simp] theorem State.replyBytes_fresh (s : State) (bs : List Byte) : (s.replyBytes bs).fresh = s.fresh := rfl
@[simp] theorem State.replyBytes_subj (s : State) (bs : List Byte) : (s.replyBytes bs).subj = s.subj := rfl
@[simp] theorem State.replyBytes_round (s : State) (bs : List Byte) : (s.replyBytes bs).round = s.round := rfl
@[simp] theorem State.replyBytes_agenda (s : State) (bs : List Byte) : (s.replyBytes bs).agenda = s.agenda := rfl

@[simp] theorem State.unsupported_beat (s : State) : (s.unsupported).beat = s.beat := rfl
@[simp] theorem State.unsupported_boot (s : State) : (s.unsupported).boot = s.boot := rfl
@[simp] theorem State.unsupported_env (s : State) : (s.unsupported).env = s.env := rfl
@[simp] theorem State.unsupported_gov (s : State) : (s.unsupported).gov = s.gov := rfl
@[simp] theorem State.unsupported_mem (s : State) : (s.unsupported).mem = s.mem := rfl
@[simp] theorem State.unsupported_wq (s : State) : (s.unsupported).wq = s.wq := rfl
@[simp] theorem State.unsupported_queues (s : State) : (s.unsupported).queues = s.queues := rfl
@[simp] theorem State.unsupported_ctxs (s : State) : (s.unsupported).ctxs = s.ctxs := rfl
@[simp] theorem State.unsupported_sems (s : State) : (s.unsupported).sems = s.sems := rfl
@[simp] theorem State.unsupported_pens (s : State) : (s.unsupported).pens = s.pens := rfl
@[simp] theorem State.unsupported_yards (s : State) : (s.unsupported).yards = s.yards := rfl
@[simp] theorem State.unsupported_cores (s : State) : (s.unsupported).cores = s.cores := rfl
@[simp] theorem State.unsupported_mcs (s : State) : (s.unsupported).mcs = s.mcs := rfl
@[simp] theorem State.unsupported_pauses (s : State) : (s.unsupported).pauses = s.pauses := rfl
@[simp] theorem State.unsupported_entries (s : State) : (s.unsupported).entries = s.entries := rfl
@[simp] theorem State.unsupported_launches (s : State) : (s.unsupported).launches = s.launches := rfl
@[simp] theorem State.unsupported_ready (s : State) : (s.unsupported).ready = s.ready := rfl
@[simp] theorem State.unsupported_jobs (s : State) : (s.unsupported).jobs = s.jobs := rfl
@[simp] theorem State.unsupported_bankJobs (s : State) : (s.unsupported).bankJobs = s.bankJobs := rfl
@[simp] theorem State.unsupported_experts (s : State) : (s.unsupported).experts = s.experts := rfl
@[simp] theorem State.unsupported_prefixes (s : State) : (s.unsupported).prefixes = s.prefixes := rfl
@[simp] theorem State.unsupported_prefixRefs (s : State) : (s.unsupported).prefixRefs = s.prefixRefs := rfl
@[simp] theorem State.unsupported_blockTabs (s : State) : (s.unsupported).blockTabs = s.blockTabs := rfl
@[simp] theorem State.unsupported_errors (s : State) : (s.unsupported).errors = s.errors := rfl
@[simp] theorem State.unsupported_errorCount (s : State) : (s.unsupported).errorCount = s.errorCount := rfl
@[simp] theorem State.unsupported_eccCount (s : State) : (s.unsupported).eccCount = s.eccCount := rfl
@[simp] theorem State.unsupported_served (s : State) : (s.unsupported).served = s.served := rfl
@[simp] theorem State.unsupported_readBeat (s : State) : (s.unsupported).readBeat = s.readBeat := rfl
@[simp] theorem State.unsupported_readChannels (s : State) : (s.unsupported).readChannels = s.readChannels := rfl
@[simp] theorem State.unsupported_firmAt (s : State) : (s.unsupported).firmAt = s.firmAt := rfl
@[simp] theorem State.unsupported_sidecars (s : State) : (s.unsupported).sidecars = s.sidecars := rfl
@[simp] theorem State.unsupported_fresh (s : State) : (s.unsupported).fresh = s.fresh := rfl
@[simp] theorem State.unsupported_subj (s : State) : (s.unsupported).subj = s.subj := rfl
@[simp] theorem State.unsupported_round (s : State) : (s.unsupported).round = s.round := rfl
@[simp] theorem State.unsupported_agenda (s : State) : (s.unsupported).agenda = s.agenda := rfl

@[simp] theorem State.answer_beat (s : State) (code : Nat) : (s.answer code).beat = s.beat := rfl
@[simp] theorem State.answer_boot (s : State) (code : Nat) : (s.answer code).boot = s.boot := rfl
@[simp] theorem State.answer_env (s : State) (code : Nat) : (s.answer code).env = s.env := rfl
@[simp] theorem State.answer_gov (s : State) (code : Nat) : (s.answer code).gov = s.gov := rfl
@[simp] theorem State.answer_mem (s : State) (code : Nat) : (s.answer code).mem = s.mem := rfl
@[simp] theorem State.answer_wq (s : State) (code : Nat) : (s.answer code).wq = s.wq := rfl
@[simp] theorem State.answer_queues (s : State) (code : Nat) : (s.answer code).queues = s.queues := rfl
@[simp] theorem State.answer_ctxs (s : State) (code : Nat) : (s.answer code).ctxs = s.ctxs := rfl
@[simp] theorem State.answer_sems (s : State) (code : Nat) : (s.answer code).sems = s.sems := rfl
@[simp] theorem State.answer_pens (s : State) (code : Nat) : (s.answer code).pens = s.pens := rfl
@[simp] theorem State.answer_yards (s : State) (code : Nat) : (s.answer code).yards = s.yards := rfl
@[simp] theorem State.answer_cores (s : State) (code : Nat) : (s.answer code).cores = s.cores := rfl
@[simp] theorem State.answer_mcs (s : State) (code : Nat) : (s.answer code).mcs = s.mcs := rfl
@[simp] theorem State.answer_pauses (s : State) (code : Nat) : (s.answer code).pauses = s.pauses := rfl
@[simp] theorem State.answer_entries (s : State) (code : Nat) : (s.answer code).entries = s.entries := rfl
@[simp] theorem State.answer_launches (s : State) (code : Nat) : (s.answer code).launches = s.launches := rfl
@[simp] theorem State.answer_ready (s : State) (code : Nat) : (s.answer code).ready = s.ready := rfl
@[simp] theorem State.answer_jobs (s : State) (code : Nat) : (s.answer code).jobs = s.jobs := rfl
@[simp] theorem State.answer_bankJobs (s : State) (code : Nat) : (s.answer code).bankJobs = s.bankJobs := rfl
@[simp] theorem State.answer_experts (s : State) (code : Nat) : (s.answer code).experts = s.experts := rfl
@[simp] theorem State.answer_prefixes (s : State) (code : Nat) : (s.answer code).prefixes = s.prefixes := rfl
@[simp] theorem State.answer_prefixRefs (s : State) (code : Nat) : (s.answer code).prefixRefs = s.prefixRefs := rfl
@[simp] theorem State.answer_blockTabs (s : State) (code : Nat) : (s.answer code).blockTabs = s.blockTabs := rfl
@[simp] theorem State.answer_errors (s : State) (code : Nat) : (s.answer code).errors = s.errors := rfl
@[simp] theorem State.answer_errorCount (s : State) (code : Nat) : (s.answer code).errorCount = s.errorCount := rfl
@[simp] theorem State.answer_eccCount (s : State) (code : Nat) : (s.answer code).eccCount = s.eccCount := rfl
@[simp] theorem State.answer_served (s : State) (code : Nat) : (s.answer code).served = s.served := rfl
@[simp] theorem State.answer_readBeat (s : State) (code : Nat) : (s.answer code).readBeat = s.readBeat := rfl
@[simp] theorem State.answer_readChannels (s : State) (code : Nat) : (s.answer code).readChannels = s.readChannels := rfl
@[simp] theorem State.answer_firmAt (s : State) (code : Nat) : (s.answer code).firmAt = s.firmAt := rfl
@[simp] theorem State.answer_sidecars (s : State) (code : Nat) : (s.answer code).sidecars = s.sidecars := rfl
@[simp] theorem State.answer_fresh (s : State) (code : Nat) : (s.answer code).fresh = s.fresh := rfl
@[simp] theorem State.answer_subj (s : State) (code : Nat) : (s.answer code).subj = s.subj := rfl
@[simp] theorem State.answer_round (s : State) (code : Nat) : (s.answer code).round = s.round := rfl
@[simp] theorem State.answer_agenda (s : State) (code : Nat) : (s.answer code).agenda = s.agenda := rfl

@[simp] theorem State.enterStep_beat (s : State) (n : Nat) : (s.enterStep n).beat = s.beat := rfl
@[simp] theorem State.enterStep_link (s : State) (n : Nat) : (s.enterStep n).link = s.link := rfl
@[simp] theorem State.enterStep_env (s : State) (n : Nat) : (s.enterStep n).env = s.env := rfl
@[simp] theorem State.enterStep_gov (s : State) (n : Nat) : (s.enterStep n).gov = s.gov := rfl
@[simp] theorem State.enterStep_mem (s : State) (n : Nat) : (s.enterStep n).mem = s.mem := rfl
@[simp] theorem State.enterStep_wq (s : State) (n : Nat) : (s.enterStep n).wq = s.wq := rfl
@[simp] theorem State.enterStep_queues (s : State) (n : Nat) : (s.enterStep n).queues = s.queues := rfl
@[simp] theorem State.enterStep_ctxs (s : State) (n : Nat) : (s.enterStep n).ctxs = s.ctxs := rfl
@[simp] theorem State.enterStep_sems (s : State) (n : Nat) : (s.enterStep n).sems = s.sems := rfl
@[simp] theorem State.enterStep_pens (s : State) (n : Nat) : (s.enterStep n).pens = s.pens := rfl
@[simp] theorem State.enterStep_yards (s : State) (n : Nat) : (s.enterStep n).yards = s.yards := rfl
@[simp] theorem State.enterStep_cores (s : State) (n : Nat) : (s.enterStep n).cores = s.cores := rfl
@[simp] theorem State.enterStep_mcs (s : State) (n : Nat) : (s.enterStep n).mcs = s.mcs := rfl
@[simp] theorem State.enterStep_pauses (s : State) (n : Nat) : (s.enterStep n).pauses = s.pauses := rfl
@[simp] theorem State.enterStep_entries (s : State) (n : Nat) : (s.enterStep n).entries = s.entries := rfl
@[simp] theorem State.enterStep_launches (s : State) (n : Nat) : (s.enterStep n).launches = s.launches := rfl
@[simp] theorem State.enterStep_ready (s : State) (n : Nat) : (s.enterStep n).ready = s.ready := rfl
@[simp] theorem State.enterStep_jobs (s : State) (n : Nat) : (s.enterStep n).jobs = s.jobs := rfl
@[simp] theorem State.enterStep_bankJobs (s : State) (n : Nat) : (s.enterStep n).bankJobs = s.bankJobs := rfl
@[simp] theorem State.enterStep_experts (s : State) (n : Nat) : (s.enterStep n).experts = s.experts := rfl
@[simp] theorem State.enterStep_prefixes (s : State) (n : Nat) : (s.enterStep n).prefixes = s.prefixes := rfl
@[simp] theorem State.enterStep_prefixRefs (s : State) (n : Nat) : (s.enterStep n).prefixRefs = s.prefixRefs := rfl
@[simp] theorem State.enterStep_blockTabs (s : State) (n : Nat) : (s.enterStep n).blockTabs = s.blockTabs := rfl
@[simp] theorem State.enterStep_errors (s : State) (n : Nat) : (s.enterStep n).errors = s.errors := rfl
@[simp] theorem State.enterStep_errorCount (s : State) (n : Nat) : (s.enterStep n).errorCount = s.errorCount := rfl
@[simp] theorem State.enterStep_eccCount (s : State) (n : Nat) : (s.enterStep n).eccCount = s.eccCount := rfl
@[simp] theorem State.enterStep_served (s : State) (n : Nat) : (s.enterStep n).served = s.served := rfl
@[simp] theorem State.enterStep_readBeat (s : State) (n : Nat) : (s.enterStep n).readBeat = s.readBeat := rfl
@[simp] theorem State.enterStep_readChannels (s : State) (n : Nat) : (s.enterStep n).readChannels = s.readChannels := rfl
@[simp] theorem State.enterStep_firmAt (s : State) (n : Nat) : (s.enterStep n).firmAt = s.firmAt := rfl
@[simp] theorem State.enterStep_sidecars (s : State) (n : Nat) : (s.enterStep n).sidecars = s.sidecars := rfl
@[simp] theorem State.enterStep_fresh (s : State) (n : Nat) : (s.enterStep n).fresh = s.fresh := rfl
@[simp] theorem State.enterStep_subj (s : State) (n : Nat) : (s.enterStep n).subj = s.subj := rfl
@[simp] theorem State.enterStep_round (s : State) (n : Nat) : (s.enterStep n).round = s.round := rfl
@[simp] theorem State.enterStep_agenda (s : State) (n : Nat) : (s.enterStep n).agenda = s.agenda := rfl

@[simp] theorem State.doneJob_beat (s : State) (id : Nat) : (s.doneJob id).beat = s.beat := rfl
@[simp] theorem State.doneJob_boot (s : State) (id : Nat) : (s.doneJob id).boot = s.boot := rfl
@[simp] theorem State.doneJob_link (s : State) (id : Nat) : (s.doneJob id).link = s.link := rfl
@[simp] theorem State.doneJob_env (s : State) (id : Nat) : (s.doneJob id).env = s.env := rfl
@[simp] theorem State.doneJob_gov (s : State) (id : Nat) : (s.doneJob id).gov = s.gov := rfl
@[simp] theorem State.doneJob_mem (s : State) (id : Nat) : (s.doneJob id).mem = s.mem := rfl
@[simp] theorem State.doneJob_wq (s : State) (id : Nat) : (s.doneJob id).wq = s.wq := rfl
@[simp] theorem State.doneJob_queues (s : State) (id : Nat) : (s.doneJob id).queues = s.queues := rfl
@[simp] theorem State.doneJob_ctxs (s : State) (id : Nat) : (s.doneJob id).ctxs = s.ctxs := rfl
@[simp] theorem State.doneJob_sems (s : State) (id : Nat) : (s.doneJob id).sems = s.sems := rfl
@[simp] theorem State.doneJob_pens (s : State) (id : Nat) : (s.doneJob id).pens = s.pens := rfl
@[simp] theorem State.doneJob_yards (s : State) (id : Nat) : (s.doneJob id).yards = s.yards := rfl
@[simp] theorem State.doneJob_cores (s : State) (id : Nat) : (s.doneJob id).cores = s.cores := rfl
@[simp] theorem State.doneJob_mcs (s : State) (id : Nat) : (s.doneJob id).mcs = s.mcs := rfl
@[simp] theorem State.doneJob_pauses (s : State) (id : Nat) : (s.doneJob id).pauses = s.pauses := rfl
@[simp] theorem State.doneJob_entries (s : State) (id : Nat) : (s.doneJob id).entries = s.entries := rfl
@[simp] theorem State.doneJob_launches (s : State) (id : Nat) : (s.doneJob id).launches = s.launches := rfl
@[simp] theorem State.doneJob_ready (s : State) (id : Nat) : (s.doneJob id).ready = s.ready := rfl
@[simp] theorem State.doneJob_bankJobs (s : State) (id : Nat) : (s.doneJob id).bankJobs = s.bankJobs := rfl
@[simp] theorem State.doneJob_experts (s : State) (id : Nat) : (s.doneJob id).experts = s.experts := rfl
@[simp] theorem State.doneJob_prefixes (s : State) (id : Nat) : (s.doneJob id).prefixes = s.prefixes := rfl
@[simp] theorem State.doneJob_prefixRefs (s : State) (id : Nat) : (s.doneJob id).prefixRefs = s.prefixRefs := rfl
@[simp] theorem State.doneJob_blockTabs (s : State) (id : Nat) : (s.doneJob id).blockTabs = s.blockTabs := rfl
@[simp] theorem State.doneJob_errors (s : State) (id : Nat) : (s.doneJob id).errors = s.errors := rfl
@[simp] theorem State.doneJob_errorCount (s : State) (id : Nat) : (s.doneJob id).errorCount = s.errorCount := rfl
@[simp] theorem State.doneJob_eccCount (s : State) (id : Nat) : (s.doneJob id).eccCount = s.eccCount := rfl
@[simp] theorem State.doneJob_served (s : State) (id : Nat) : (s.doneJob id).served = s.served := rfl
@[simp] theorem State.doneJob_readBeat (s : State) (id : Nat) : (s.doneJob id).readBeat = s.readBeat := rfl
@[simp] theorem State.doneJob_readChannels (s : State) (id : Nat) : (s.doneJob id).readChannels = s.readChannels := rfl
@[simp] theorem State.doneJob_firmAt (s : State) (id : Nat) : (s.doneJob id).firmAt = s.firmAt := rfl
@[simp] theorem State.doneJob_sidecars (s : State) (id : Nat) : (s.doneJob id).sidecars = s.sidecars := rfl
@[simp] theorem State.doneJob_fresh (s : State) (id : Nat) : (s.doneJob id).fresh = s.fresh := rfl
@[simp] theorem State.doneJob_subj (s : State) (id : Nat) : (s.doneJob id).subj = s.subj := rfl
@[simp] theorem State.doneJob_round (s : State) (id : Nat) : (s.doneJob id).round = s.round := rfl
@[simp] theorem State.doneJob_agenda (s : State) (id : Nat) : (s.doneJob id).agenda = s.agenda := rfl

@[simp] theorem State.stopJob_beat (s : State) (id : Nat) (code : BitVec 8) : (s.stopJob id code).beat = s.beat := rfl
@[simp] theorem State.stopJob_boot (s : State) (id : Nat) (code : BitVec 8) : (s.stopJob id code).boot = s.boot := rfl
@[simp] theorem State.stopJob_link (s : State) (id : Nat) (code : BitVec 8) : (s.stopJob id code).link = s.link := rfl
@[simp] theorem State.stopJob_env (s : State) (id : Nat) (code : BitVec 8) : (s.stopJob id code).env = s.env := rfl
@[simp] theorem State.stopJob_gov (s : State) (id : Nat) (code : BitVec 8) : (s.stopJob id code).gov = s.gov := rfl
@[simp] theorem State.stopJob_mem (s : State) (id : Nat) (code : BitVec 8) : (s.stopJob id code).mem = s.mem := rfl
@[simp] theorem State.stopJob_wq (s : State) (id : Nat) (code : BitVec 8) : (s.stopJob id code).wq = s.wq := rfl
@[simp] theorem State.stopJob_queues (s : State) (id : Nat) (code : BitVec 8) : (s.stopJob id code).queues = s.queues := rfl
@[simp] theorem State.stopJob_ctxs (s : State) (id : Nat) (code : BitVec 8) : (s.stopJob id code).ctxs = s.ctxs := rfl
@[simp] theorem State.stopJob_sems (s : State) (id : Nat) (code : BitVec 8) : (s.stopJob id code).sems = s.sems := rfl
@[simp] theorem State.stopJob_pens (s : State) (id : Nat) (code : BitVec 8) : (s.stopJob id code).pens = s.pens := rfl
@[simp] theorem State.stopJob_yards (s : State) (id : Nat) (code : BitVec 8) : (s.stopJob id code).yards = s.yards := rfl
@[simp] theorem State.stopJob_cores (s : State) (id : Nat) (code : BitVec 8) : (s.stopJob id code).cores = s.cores := rfl
@[simp] theorem State.stopJob_mcs (s : State) (id : Nat) (code : BitVec 8) : (s.stopJob id code).mcs = s.mcs := rfl
@[simp] theorem State.stopJob_pauses (s : State) (id : Nat) (code : BitVec 8) : (s.stopJob id code).pauses = s.pauses := rfl
@[simp] theorem State.stopJob_entries (s : State) (id : Nat) (code : BitVec 8) : (s.stopJob id code).entries = s.entries := rfl
@[simp] theorem State.stopJob_launches (s : State) (id : Nat) (code : BitVec 8) : (s.stopJob id code).launches = s.launches := rfl
@[simp] theorem State.stopJob_ready (s : State) (id : Nat) (code : BitVec 8) : (s.stopJob id code).ready = s.ready := rfl
@[simp] theorem State.stopJob_bankJobs (s : State) (id : Nat) (code : BitVec 8) : (s.stopJob id code).bankJobs = s.bankJobs := rfl
@[simp] theorem State.stopJob_experts (s : State) (id : Nat) (code : BitVec 8) : (s.stopJob id code).experts = s.experts := rfl
@[simp] theorem State.stopJob_prefixes (s : State) (id : Nat) (code : BitVec 8) : (s.stopJob id code).prefixes = s.prefixes := rfl
@[simp] theorem State.stopJob_prefixRefs (s : State) (id : Nat) (code : BitVec 8) : (s.stopJob id code).prefixRefs = s.prefixRefs := rfl
@[simp] theorem State.stopJob_blockTabs (s : State) (id : Nat) (code : BitVec 8) : (s.stopJob id code).blockTabs = s.blockTabs := rfl
@[simp] theorem State.stopJob_errors (s : State) (id : Nat) (code : BitVec 8) : (s.stopJob id code).errors = s.errors := rfl
@[simp] theorem State.stopJob_errorCount (s : State) (id : Nat) (code : BitVec 8) : (s.stopJob id code).errorCount = s.errorCount := rfl
@[simp] theorem State.stopJob_eccCount (s : State) (id : Nat) (code : BitVec 8) : (s.stopJob id code).eccCount = s.eccCount := rfl
@[simp] theorem State.stopJob_served (s : State) (id : Nat) (code : BitVec 8) : (s.stopJob id code).served = s.served := rfl
@[simp] theorem State.stopJob_readBeat (s : State) (id : Nat) (code : BitVec 8) : (s.stopJob id code).readBeat = s.readBeat := rfl
@[simp] theorem State.stopJob_readChannels (s : State) (id : Nat) (code : BitVec 8) : (s.stopJob id code).readChannels = s.readChannels := rfl
@[simp] theorem State.stopJob_firmAt (s : State) (id : Nat) (code : BitVec 8) : (s.stopJob id code).firmAt = s.firmAt := rfl
@[simp] theorem State.stopJob_sidecars (s : State) (id : Nat) (code : BitVec 8) : (s.stopJob id code).sidecars = s.sidecars := rfl
@[simp] theorem State.stopJob_fresh (s : State) (id : Nat) (code : BitVec 8) : (s.stopJob id code).fresh = s.fresh := rfl
@[simp] theorem State.stopJob_subj (s : State) (id : Nat) (code : BitVec 8) : (s.stopJob id code).subj = s.subj := rfl
@[simp] theorem State.stopJob_round (s : State) (id : Nat) (code : BitVec 8) : (s.stopJob id code).round = s.round := rfl
@[simp] theorem State.stopJob_agenda (s : State) (id : Nat) (code : BitVec 8) : (s.stopJob id code).agenda = s.agenda := rfl

@[simp] theorem State.flush_beat (s : State) (now : Nat → Bool) : (s.flush now).beat = s.beat := rfl
@[simp] theorem State.flush_boot (s : State) (now : Nat → Bool) : (s.flush now).boot = s.boot := rfl
@[simp] theorem State.flush_link (s : State) (now : Nat → Bool) : (s.flush now).link = s.link := rfl
@[simp] theorem State.flush_env (s : State) (now : Nat → Bool) : (s.flush now).env = s.env := rfl
@[simp] theorem State.flush_gov (s : State) (now : Nat → Bool) : (s.flush now).gov = s.gov := rfl
@[simp] theorem State.flush_queues (s : State) (now : Nat → Bool) : (s.flush now).queues = s.queues := rfl
@[simp] theorem State.flush_ctxs (s : State) (now : Nat → Bool) : (s.flush now).ctxs = s.ctxs := rfl
@[simp] theorem State.flush_sems (s : State) (now : Nat → Bool) : (s.flush now).sems = s.sems := rfl
@[simp] theorem State.flush_pens (s : State) (now : Nat → Bool) : (s.flush now).pens = s.pens := rfl
@[simp] theorem State.flush_yards (s : State) (now : Nat → Bool) : (s.flush now).yards = s.yards := rfl
@[simp] theorem State.flush_cores (s : State) (now : Nat → Bool) : (s.flush now).cores = s.cores := rfl
@[simp] theorem State.flush_mcs (s : State) (now : Nat → Bool) : (s.flush now).mcs = s.mcs := rfl
@[simp] theorem State.flush_pauses (s : State) (now : Nat → Bool) : (s.flush now).pauses = s.pauses := rfl
@[simp] theorem State.flush_entries (s : State) (now : Nat → Bool) : (s.flush now).entries = s.entries := rfl
@[simp] theorem State.flush_launches (s : State) (now : Nat → Bool) : (s.flush now).launches = s.launches := rfl
@[simp] theorem State.flush_ready (s : State) (now : Nat → Bool) : (s.flush now).ready = s.ready := rfl
@[simp] theorem State.flush_jobs (s : State) (now : Nat → Bool) : (s.flush now).jobs = s.jobs := rfl
@[simp] theorem State.flush_bankJobs (s : State) (now : Nat → Bool) : (s.flush now).bankJobs = s.bankJobs := rfl
@[simp] theorem State.flush_experts (s : State) (now : Nat → Bool) : (s.flush now).experts = s.experts := rfl
@[simp] theorem State.flush_prefixes (s : State) (now : Nat → Bool) : (s.flush now).prefixes = s.prefixes := rfl
@[simp] theorem State.flush_prefixRefs (s : State) (now : Nat → Bool) : (s.flush now).prefixRefs = s.prefixRefs := rfl
@[simp] theorem State.flush_blockTabs (s : State) (now : Nat → Bool) : (s.flush now).blockTabs = s.blockTabs := rfl
@[simp] theorem State.flush_errors (s : State) (now : Nat → Bool) : (s.flush now).errors = s.errors := rfl
@[simp] theorem State.flush_errorCount (s : State) (now : Nat → Bool) : (s.flush now).errorCount = s.errorCount := rfl
@[simp] theorem State.flush_eccCount (s : State) (now : Nat → Bool) : (s.flush now).eccCount = s.eccCount := rfl
@[simp] theorem State.flush_served (s : State) (now : Nat → Bool) : (s.flush now).served = s.served := rfl
@[simp] theorem State.flush_readBeat (s : State) (now : Nat → Bool) : (s.flush now).readBeat = s.readBeat := rfl
@[simp] theorem State.flush_readChannels (s : State) (now : Nat → Bool) : (s.flush now).readChannels = s.readChannels := rfl
@[simp] theorem State.flush_firmAt (s : State) (now : Nat → Bool) : (s.flush now).firmAt = s.firmAt := rfl
@[simp] theorem State.flush_sidecars (s : State) (now : Nat → Bool) : (s.flush now).sidecars = s.sidecars := rfl
@[simp] theorem State.flush_fresh (s : State) (now : Nat → Bool) : (s.flush now).fresh = s.fresh := rfl
@[simp] theorem State.flush_subj (s : State) (now : Nat → Bool) : (s.flush now).subj = s.subj := rfl
@[simp] theorem State.flush_round (s : State) (now : Nat → Bool) : (s.flush now).round = s.round := rfl
@[simp] theorem State.flush_agenda (s : State) (now : Nat → Bool) : (s.flush now).agenda = s.agenda := rfl

@[simp] theorem State.setChain_beat (s : State) (id : Nat) (c : Chain) : (s.setChain id c).beat = s.beat := rfl
@[simp] theorem State.setChain_boot (s : State) (id : Nat) (c : Chain) : (s.setChain id c).boot = s.boot := rfl
@[simp] theorem State.setChain_link (s : State) (id : Nat) (c : Chain) : (s.setChain id c).link = s.link := rfl
@[simp] theorem State.setChain_env (s : State) (id : Nat) (c : Chain) : (s.setChain id c).env = s.env := rfl
@[simp] theorem State.setChain_gov (s : State) (id : Nat) (c : Chain) : (s.setChain id c).gov = s.gov := rfl
@[simp] theorem State.setChain_mem (s : State) (id : Nat) (c : Chain) : (s.setChain id c).mem = s.mem := rfl
@[simp] theorem State.setChain_wq (s : State) (id : Nat) (c : Chain) : (s.setChain id c).wq = s.wq := rfl
@[simp] theorem State.setChain_queues (s : State) (id : Nat) (c : Chain) : (s.setChain id c).queues = s.queues := rfl
@[simp] theorem State.setChain_ctxs (s : State) (id : Nat) (c : Chain) : (s.setChain id c).ctxs = s.ctxs := rfl
@[simp] theorem State.setChain_sems (s : State) (id : Nat) (c : Chain) : (s.setChain id c).sems = s.sems := rfl
@[simp] theorem State.setChain_pens (s : State) (id : Nat) (c : Chain) : (s.setChain id c).pens = s.pens := rfl
@[simp] theorem State.setChain_yards (s : State) (id : Nat) (c : Chain) : (s.setChain id c).yards = s.yards := rfl
@[simp] theorem State.setChain_cores (s : State) (id : Nat) (c : Chain) : (s.setChain id c).cores = s.cores := rfl
@[simp] theorem State.setChain_mcs (s : State) (id : Nat) (c : Chain) : (s.setChain id c).mcs = s.mcs := rfl
@[simp] theorem State.setChain_pauses (s : State) (id : Nat) (c : Chain) : (s.setChain id c).pauses = s.pauses := rfl
@[simp] theorem State.setChain_entries (s : State) (id : Nat) (c : Chain) : (s.setChain id c).entries = s.entries := rfl
@[simp] theorem State.setChain_launches (s : State) (id : Nat) (c : Chain) : (s.setChain id c).launches = s.launches := rfl
@[simp] theorem State.setChain_ready (s : State) (id : Nat) (c : Chain) : (s.setChain id c).ready = s.ready := rfl
@[simp] theorem State.setChain_jobs (s : State) (id : Nat) (c : Chain) : (s.setChain id c).jobs = s.jobs := rfl
@[simp] theorem State.setChain_experts (s : State) (id : Nat) (c : Chain) : (s.setChain id c).experts = s.experts := rfl
@[simp] theorem State.setChain_prefixes (s : State) (id : Nat) (c : Chain) : (s.setChain id c).prefixes = s.prefixes := rfl
@[simp] theorem State.setChain_prefixRefs (s : State) (id : Nat) (c : Chain) : (s.setChain id c).prefixRefs = s.prefixRefs := rfl
@[simp] theorem State.setChain_blockTabs (s : State) (id : Nat) (c : Chain) : (s.setChain id c).blockTabs = s.blockTabs := rfl
@[simp] theorem State.setChain_errors (s : State) (id : Nat) (c : Chain) : (s.setChain id c).errors = s.errors := rfl
@[simp] theorem State.setChain_errorCount (s : State) (id : Nat) (c : Chain) : (s.setChain id c).errorCount = s.errorCount := rfl
@[simp] theorem State.setChain_eccCount (s : State) (id : Nat) (c : Chain) : (s.setChain id c).eccCount = s.eccCount := rfl
@[simp] theorem State.setChain_served (s : State) (id : Nat) (c : Chain) : (s.setChain id c).served = s.served := rfl
@[simp] theorem State.setChain_readBeat (s : State) (id : Nat) (c : Chain) : (s.setChain id c).readBeat = s.readBeat := rfl
@[simp] theorem State.setChain_readChannels (s : State) (id : Nat) (c : Chain) : (s.setChain id c).readChannels = s.readChannels := rfl
@[simp] theorem State.setChain_firmAt (s : State) (id : Nat) (c : Chain) : (s.setChain id c).firmAt = s.firmAt := rfl
@[simp] theorem State.setChain_sidecars (s : State) (id : Nat) (c : Chain) : (s.setChain id c).sidecars = s.sidecars := rfl
@[simp] theorem State.setChain_fresh (s : State) (id : Nat) (c : Chain) : (s.setChain id c).fresh = s.fresh := rfl
@[simp] theorem State.setChain_subj (s : State) (id : Nat) (c : Chain) : (s.setChain id c).subj = s.subj := rfl
@[simp] theorem State.setChain_round (s : State) (id : Nat) (c : Chain) : (s.setChain id c).round = s.round := rfl
@[simp] theorem State.setChain_agenda (s : State) (id : Nat) (c : Chain) : (s.setChain id c).agenda = s.agenda := rfl

end Sys2Proof.Machine
end

