-- ==== Sys2Proof/Laws/Issue.lean ====
section
/-! SUPPORT. What issuing one instruction comes to: it always answers a next state, and an instruction that nothing keeps back
has exactly the effect of its own body. -/

namespace Sys2Proof.Machine

/-! ### An instruction that is ready has its own effect -/

theorem all_false_of {α : Type} {xs : List α} {p q : α → Bool} (h : xs.all p = true) (hpq : ∀ x, p x = true → q x = false) :
    xs.any q = false := by
  simp only [List.any_eq_false, List.all_eq_true] at *
  intro x hx
  simp [hpq x (h x hx)]

theorem findSome?_none_of {α β : Type} {xs : List α} {f : α → Option β} (h : ∀ x ∈ xs, f x = none) : xs.findSome? f = none := by
  simpa [List.findSome?_eq_none_iff] using h

/-- The parts of readiness. -/
theorem Req.ready_iff (r : Req) (s : State) :
    r.ready s = true ↔ r.feature = true ∧ r.ok = true ∧ (r.perLane = true ∨ s.core.predHolds r.pred = true)
      ∧ s.core.awaits (predSpec r.pred) = false
      ∧ (∀ x ∈ r.srcs, (s.core.isFull x.1 = true ∧ s.core.awaits x.1 = false) ∧ s.core.streamRead x.1 = 0 ∧ s.core.streamFault x.1 = none ∧ s.streamHeld x.1 = false)
      ∧ (∀ d ∈ r.dsts, (s.core.isFull d = true ∧ s.core.maskPending d = false) ∧ s.core.streamWrite d = 0 ∧ s.core.streamFault d = none)
      ∧ s.core.heldBack r = false ∧ (s.core.flight.length < 12 ∨ r.dsts = []) := by
  simp [Req.ready, and_assoc, Option.isNone_iff_eq_none]

/-- An instruction that is ready issues its own body. -/
theorem issue_ready {r : Req} {s : State} (h : r.ready s = true) (body : State → Issue) :
    issue r body s = (match body s with
      | .retire s o => .next (s.finish r none o)
      | .branch s b o => .next (s.finish r (some b) o)
      | .trap s t => .next (s.takeTrap t)
      | .wait s => .next s
      | .emptySlot s => .next (s.modCore fun c => c.emptySlot s.beat)
      | .whole t => .next (t.retired (s.core.ss && !s.core.tm))
      | .leaves s => .next s) := by
  obtain ⟨hf, hok, hp, hw, hs, hd, hb, hl⟩ := (Req.ready_iff r s).1 h
  have h1 : s.core.emptyTrap r.srcs = false := by
    simp only [Core.emptyTrap, List.any_eq_false]
    intro x hx
    simp [(hs x hx).1.1]
  have h2 : (r.srcs.any fun x => !(s.core.isFull x.1) || s.core.awaits x.1) = false := by
    simp only [List.any_eq_false]
    intro x hx
    simp [(hs x hx).1.1, (hs x hx).1.2]
  have h3 : (r.dsts.any fun d => !(s.core.isFull d) || s.core.maskPending d) = false := by
    simp only [List.any_eq_false]
    intro x hx
    simp [(hd x hx).1.1, (hd x hx).1.2]
  have h4 : (r.srcs.any fun x => decide (s.core.streamRead x.1 = 2)) = false := by
    simp only [List.any_eq_false]
    intro x hx
    simp [(hs x hx).2.1]
  have h5 : (r.dsts.any fun d => decide (s.core.streamWrite d = 2)) = false := by
    simp only [List.any_eq_false]
    intro x hx
    simp [(hd x hx).2.1]
  have h6 : (r.srcs.map (·.1) ++ r.dsts).findSome? s.core.streamFault = none := by
    apply findSome?_none_of
    intro x hx
    rcases List.mem_append.1 hx with hx | hx
    · obtain ⟨y, hy, rfl⟩ := List.mem_map.1 hx
      exact (hs y hy).2.2.1
    · exact (hd x hx).2.2
  have h7 : (r.srcs.any fun x => decide (s.core.streamRead x.1 = 1) || s.streamHeld x.1) = false := by
    simp only [List.any_eq_false]
    intro x hx
    simp [(hs x hx).2.1, (hs x hx).2.2.2]
  have h8 : (r.dsts.any fun d => decide (s.core.streamWrite d = 1)) = false := by
    simp only [List.any_eq_false]
    intro x hx
    simp [(hd x hx).2.1]
  have h9 : (decide (12 ≤ s.core.flight.length) && !r.dsts.isEmpty) = false := by
    rcases hl with hl | hl
    · simp [Nat.not_le.2 hl]
    · simp [hl]
  have h0 : (!r.perLane && !(s.core.predHolds r.pred)) = false := by
    rcases hp with hp | hp <;> simp [hp]
  simp only [issue, hf, hok, hw, h0, h1, h2, h3, h4, h5, h6, h7, h8, h9, hb, Bool.not_true, Bool.false_eq_true, if_false, Bool.or_self]
    <;> (cases body s <;> rfl)

theorem issue_retire {r : Req} {s t : State} {body : State → Issue} {o : Outcome} (h : r.ready s = true) (hb : body s = .retire t o) :
    issue r body s = .next (t.finish r none o) := by rw [issue_ready h, hb]

theorem issue_branch {r : Req} {s t : State} {body : State → Issue} {b : Branch} {o : Outcome} (h : r.ready s = true)
    (hb : body s = .branch t b o) : issue r body s = .next (t.finish r (some b) o) := by rw [issue_ready h, hb]

theorem issue_trap {r : Req} {s t : State} {body : State → Issue} {x : Trap} (h : r.ready s = true) (hb : body s = .trap t x) :
    issue r body s = .next (t.takeTrap x) := by rw [issue_ready h, hb]

theorem issue_wait {r : Req} {s t : State} {body : State → Issue} (h : r.ready s = true) (hb : body s = .wait t) :
    issue r body s = .next t := by rw [issue_ready h, hb]

theorem issue_leaves {r : Req} {s t : State} {body : State → Issue} (h : r.ready s = true) (hb : body s = .leaves t) :
    issue r body s = .next t := by rw [issue_ready h, hb]

theorem issue_whole {r : Req} {s t : State} {body : State → Issue} (h : r.ready s = true) (hb : body s = .whole t) :
    issue r body s = .next (t.retired (s.core.ss && !s.core.tm)) := by rw [issue_ready h, hb]

/-! ### What keeps an instruction from its effect -/

/-- A word whose checks fail traps with RESERVED_FIELD (R238). -/
theorem issue_malformed {r : Req} {s : State} (hf : r.feature = true) (h : r.ok = false) (body : State → Issue) :
    issue r body s = .next (s.takeTrap { code := 0x02 }) := by simp [issue, hf, h]

/-- A word of a feature that is not accepted traps with ILLEGAL_OPCODE (R238). -/
theorem issue_absent {r : Req} {s : State} (hf : r.feature = false) (body : State → Issue) :
    issue r body s = .next (s.takeTrap { code := 0x01 }) := by simp [issue, hf]

/-- A whole-acting predicate that does not hold leaves only the slot (R233). -/
theorem issue_unpredicated {r : Req} {s : State} (hf : r.feature = true) (h : r.ok = true) (hw : s.core.awaits (predSpec r.pred) = false) (hp : r.perLane = false)
    (hk : s.core.predHolds r.pred = false) (body : State → Issue) :
    issue r body s = .next (s.finish { r with srcs := [] } none {}) := by simp [issue, hf, h, hw, hp, hk]

/-! ### Every instruction answers a next state -/

/-- Either branch answers a next state. -/
theorem ite_next {p : Prop} [Decidable p] {a b : Result} (ha : ∃ t, a = .next t) (hb : ∃ t, b = .next t) :
    ∃ t, (if p then a else b) = .next t := by
  by_cases h : p
  · rwa [if_pos h]
  · rwa [if_neg h]

theorem issue_next (r : Req) (body : State → Issue) (s : State) : ∃ t, issue r body s = .next t := by
  unfold issue
  dsimp only
  iterate 7 refine ite_next ⟨_, rfl⟩ ?_
  split
  · exact ⟨_, rfl⟩
  · refine ite_next ⟨_, rfl⟩ (ite_next (ite_next ⟨_, rfl⟩ ⟨_, rfl⟩) ?_)
    split <;> exact ⟨_, rfl⟩

theorem waitIssue_next (r : Req) (p v : Deferred → Bool) (body : State → Issue) (s : State) :
    ∃ t, waitIssue r p v body s = .next t := by
  unfold waitIssue
  split
  · split
    · exact ⟨_, rfl⟩
    · exact issue_next _ _ _
  · exact issue_next _ _ _

/-- An instruction that waits, with no deferred fault to deliver, issues as any other. -/
theorem waitIssue_clear {r : Req} {p v : Deferred → Bool} {body : State → Issue} {s : State} (h : s.deliver p v = none) :
    waitIssue r p v body s = issue r body s := by
  simp [waitIssue, h]

theorem runWord_next (ok : Bool) (body : State → BankJob → Job → Port → WordEnd) (s : State) :
    ∃ t, runWord ok body s = .next t := by
  unfold runWord
  repeat' split
  all_goals exact ⟨_, rfl⟩

/-- A word that its port may run ends as its body says, once what it reads can be served. -/
theorem runWord_runs {s : State} {j : Job} {b : BankJob} {p : Port} (hj : s.job? s.subj.job = some j)
    (hb : s.bankJob? s.subj.job = some b) (hp : b.port? s.subj.port = some p) (hr : s.portRuns j p = true) {ok : Bool} (hok : ok = true)
    (body : State → BankJob → Job → Port → WordEnd) (hv : ((body s b j p).settle b.id).unserved = false) :
    runWord ok body s = .next ((body s b j p).settle b.id) := by
  simp [runWord, hj, hb, hp, hr, hok, hv]

/-- A word that reads a bank in refresh waits. -/
theorem runWord_waits {s : State} {j : Job} {b : BankJob} {p : Port} (hj : s.job? s.subj.job = some j)
    (hb : s.bankJob? s.subj.job = some b) (hp : b.port? s.subj.port = some p) (hr : s.portRuns j p = true) {ok : Bool} (hok : ok = true)
    (body : State → BankJob → Job → Port → WordEnd) (hv : ((body s b j p).settle b.id).unserved = true) :
    runWord ok body s = .next s := by
  simp [runWord, hj, hb, hp, hr, hok, hv]

end Sys2Proof.Machine
end

