-- ==== Sys2Proof/Laws/Finish.lean ====
section
/-! SUPPORT. What retiring an instruction comes to: everything outside the core whose turn it is stays, but for the semaphore
file through the take of INTSEM (R180); and what the core itself holds. -/

namespace Sys2Proof.Machine

@[simp] theorem State.core_setCore (s : State) (c : Core) : (s.setCore c).core = c := by simp [State.setCore, State.core]

@[simp] theorem State.core_modCore (s : State) (f : Core → Core) : (s.modCore f).core = f s.core := by simp [State.modCore]

@[simp] theorem State.setCore_setCore (s : State) (c d : Core) : (s.setCore c).setCore d = s.setCore d := by
  simp [State.setCore, Vector.set_set]

@[simp] theorem State.setCore_core (s : State) : s.setCore s.core = s := by
  simp [State.setCore, State.core]

/-- The parts of a state that the semaphore operations may change. -/
def State.semParts (s : State) (sems : Vector Sem 256) (ready : List ContRec) (fresh : Nat) : State :=
  { s with sems := sems, ready := ready, fresh := fresh }

theorem State.settleSem_parts (s : State) (n : Nat) : ∃ a b c, s.settleSem n = s.semParts a b c := ⟨_, _, _, rfl⟩

theorem State.dropTake_parts (s : State) (n id : Nat) : ∃ a b c, s.dropTake n id = s.semParts a b c := ⟨_, _, _, rfl⟩

theorem State.placeTake_parts (s : State) (n u : Nat) (w : Taker) : ∃ a b c, (s.placeTake n u w).1 = s.semParts a b c := ⟨_, _, _, rfl⟩

theorem State.noticeTake_parts (s : State) (n id : Nat) : ∃ a b c, s.noticeTake n id = s.semParts a b c := ⟨_, _, _, rfl⟩

theorem State.signal_parts (s : State) (n u : Nat) : ∃ a b c, (s.signal n u).1 = s.semParts a b c := by
  unfold State.signal
  dsimp only
  split <;> exact ⟨_, _, _, rfl⟩

/-- A core with a note of its take of INTSEM. -/
def Core.noting (c : Core) (x : Option (Nat × Nat)) : Core := { c with intTake := x }

@[simp] theorem Core.noting_noting (c : Core) (x y : Option (Nat × Nat)) : (c.noting x).noting y = c.noting y := rfl

@[simp] theorem Core.noting_self (c : Core) : c.noting c.intTake = c := rfl

@[simp] theorem Core.noting_intTake (c : Core) (x : Option (Nat × Nat)) : (c.noting x).intTake = x := rfl

/-- Two states differ at most in the semaphore file, in the records and numbers that grants touch, and in the core's note of its
take of INTSEM. -/
def State.tended (s t : State) : Prop :=
  t = (s.semParts t.sems t.ready t.fresh).setCore (s.core.noting t.core.intTake)

theorem State.tended_refl (s : State) : s.tended s := s.setCore_core.symm

theorem State.tended_trans {s t u : State} (h : s.tended t) (g : t.tended u) : s.tended u := by
  unfold State.tended at *
  have hc : t.core = s.core.noting t.core.intTake := by
    have := congrArg State.core h
    simpa using this
  rw [g, h, hc]
  simp [State.semParts, State.setCore, Vector.set_set, State.core]

theorem State.tended_dropTake (s : State) (n id : Nat) : s.tended (s.dropTake n id) := by
  show _ = _
  exact (State.setCore_core (s.dropTake n id)).symm

theorem State.tended_placeTake (s : State) (n u : Nat) (w : Taker) : s.tended (s.placeTake n u w).1 := by
  show _ = _
  exact (State.setCore_core (s.placeTake n u w).1).symm

theorem State.tended_note (s : State) (x : Option (Nat × Nat)) : s.tended (s.modCore fun c => { c with intTake := x }) := by
  show _ = _
  rw [State.core_modCore]
  rfl

/-- Tending INTSEM's take changes the semaphore file and the core's note of its take, and nothing else (R180). -/
theorem State.tended_tendInterrupt (s : State) : s.tended s.tendInterrupt := by
  unfold State.tendInterrupt
  dsimp only
  split
  · split
    · exact s.tended_refl
    · split
      · exact State.tended_trans (State.tended_trans (s.tended_dropTake _ _) (State.tended_note _ none))
          (State.tended_trans (State.tended_placeTake _ _ _ _) (State.tended_note _ _))
      · exact State.tended_trans (s.tended_dropTake _ _) (State.tended_note _ none)
  · split
    · exact State.tended_trans (State.tended_placeTake _ _ _ _) (State.tended_note _ _)
    · exact s.tended_refl

/-- The core after an instruction has retired, before interrupts and single step. -/
def Core.retire (c : Core) (r : Req) (b : Option Branch) (o : Outcome) (beat mark : Nat) : Core :=
  ((((c.goOn.popStreams r.srcs)).start r.op (r.dsts.headD 0) r.captured beat mark o).advance b).spend beat

/-- An instruction that retires without a single-step trap changes its own core and the semaphore file, and nothing else. -/
theorem State.tended_finish {s : State} (r : Req) (b : Option Branch) (o : Outcome) (h : s.unstepped)
    (ho : o.stepped.getD false = false) :
    (s.setCore (s.core.retire r b o s.beat s.fresh)).tended (s.finish r b o) := by
  have hf : o.stepped.getD (s.core.ss && !s.core.tm) = false := by
    have hs : (s.core.ss && !s.core.tm) = false := h
    rw [hs, ho]
  unfold State.finish State.retired
  simp only [hf, Bool.false_eq_true, if_false]
  exact State.tended_tendInterrupt _

/-- What tending leaves: every part of the state but the semaphore file, the records that grants touch and the core's note. -/
theorem State.tended_leaves {s t : State} (h : s.tended t) :
    t.beat = s.beat ∧ t.boot = s.boot ∧ t.link = s.link ∧ t.env = s.env ∧ t.gov = s.gov ∧ t.mem = s.mem ∧ t.wq = s.wq
    ∧ t.queues = s.queues ∧ t.ctxs = s.ctxs ∧ t.pens = s.pens ∧ t.yards = s.yards ∧ t.mcs = s.mcs ∧ t.pauses = s.pauses
    ∧ t.entries = s.entries ∧ t.launches = s.launches ∧ t.jobs = s.jobs ∧ t.bankJobs = s.bankJobs ∧ t.experts = s.experts
    ∧ t.prefixes = s.prefixes ∧ t.prefixRefs = s.prefixRefs ∧ t.blockTabs = s.blockTabs ∧ t.errors = s.errors
    ∧ t.errorCount = s.errorCount ∧ t.eccCount = s.eccCount ∧ t.subj = s.subj ∧ t.round = s.round ∧ t.agenda = s.agenda := by
  rw [h]
  simp [State.semParts, State.setCore]

/-- The core after tending is the core before, but for its note of its take of INTSEM. -/
theorem State.tended_core {s t : State} (h : s.tended t) : t.core = (s.core.noting t.core.intTake) := by
  have : t.core = ((s.semParts t.sems t.ready t.fresh).setCore (s.core.noting t.core.intTake)).core := congrArg State.core h
  simpa using this

/-- Tending touches no other core. -/
theorem State.tended_cores {s t : State} (h : s.tended t) (c : Fin 64) (hc : c ≠ s.subj.core) : t.cores[c] = s.cores[c] := by
  rw [h]
  simp only [State.setCore, State.semParts]
  exact Vector.getElem_set_ne _ _ (by simpa [Fin.ext_iff] using Ne.symm hc)

end Sys2Proof.Machine
end

