-- ==== Sys2Proof/Laws/PerInstr.lean ====
section
/-! SUPPORT. Families of statements made per instruction, one lemma per constructor of Instr (LAWS.json). -/

namespace Sys2Proof.Laws

/-- A word of this format fits its 64 bits. -/
theorem A3.toWord_lt (w : A3) {op : Nat} (h : op < 256) : w.toWord op < 2 ^ 64 := by
  unfold A3.toWord
  have h_d := w.d.isLt
  have h_a := w.a.isLt
  have h_b := w.b.isLt
  have h_c := w.c.isLt
  have h_modA := w.modA.isLt
  have h_fn := w.fn.isLt
  have h_pred := w.pred.isLt
  have h_ea := Bool.toNat_lt w.ea
  have h_eb := Bool.toNat_lt w.eb
  have h_ec := Bool.toNat_lt w.ec
  omega

/-- A word of this format fits its 64 bits. -/
theorem I32.toWord_lt (w : I32) {op : Nat} (h : op < 256) : w.toWord op < 2 ^ 64 := by
  unfold I32.toWord
  have h_d := w.d.isLt
  have h_a := w.a.isLt
  have h_fn := w.fn.isLt
  have h_imm := w.imm.isLt
  have h_pred := w.pred.isLt
  have h_ea := Bool.toNat_lt w.ea
  omega

/-- A word of this format fits its 64 bits. -/
theorem MemF.toWord_lt (w : MemF) {op : Nat} (h : op < 256) : w.toWord op < 2 ^ 64 := by
  unfold MemF.toWord
  have h_d := w.d.isLt
  have h_base := w.base.isLt
  have h_size := w.size.isLt
  have h_atom := w.atom.isLt
  have h_order := w.order.isLt
  have h_scope := w.scope.isLt
  have h_off := w.off.isLt
  have h_pred := w.pred.isLt
  have h_eb := Bool.toNat_lt w.eb
  omega

/-- A word of this format fits its 64 bits. -/
theorem BrF.toWord_lt (w : BrF) {op : Nat} (h : op < 256) : w.toWord op < 2 ^ 64 := by
  unfold BrF.toWord
  have h_cond := w.cond.isLt
  have h_null := w.null.isLt
  have h_a := w.a.isLt
  have h_b := w.b.isLt
  have h_disp := w.disp.isLt
  have h_pred := w.pred.isLt
  have h_ea := Bool.toNat_lt w.ea
  have h_eb := Bool.toNat_lt w.eb
  omega

/-- A word of this format fits its 64 bits. -/
theorem EngF.toWord_lt (w : EngF) {op : Nat} (h : op < 256) : w.toWord op < 2 ^ 64 := by
  unfold EngF.toWord
  have h_d := w.d.isLt
  have h_desc := w.desc.isLt
  have h_waitsem := w.waitsem.isLt
  have h_sigsem := w.sigsem.isLt
  have h_tag := w.tag.isLt
  have h_stampOff := w.stampOff.isLt
  have h_pred := w.pred.isLt
  have h_e := Bool.toNat_lt w.e
  have h_stampEn := Bool.toNat_lt w.stampEn
  omega

/-- A word of this format fits its 64 bits. -/
theorem SysF.toWord_lt (w : SysF) {op : Nat} (h : op < 256) : w.toWord op < 2 ^ 64 := by
  unfold SysF.toWord
  have h_d := w.d.isLt
  have h_a := w.a.isLt
  have h_ctl := w.ctl.isLt
  have h_imm := w.imm.isLt
  have h_pred := w.pred.isLt
  have h_ea := Bool.toNat_lt w.ea
  omega

/-- A word of this format fits its 64 bits. -/
theorem LoopF.toWord_lt (w : LoopF) {op : Nat} (h : op < 256) : w.toWord op < 2 ^ 64 := by
  unfold LoopF.toWord
  have h_a := w.a.isLt
  have h_ii := w.ii.isLt
  have h_sc := w.sc.isLt
  have h_rsv := w.rsv.isLt
  have h_pred := w.pred.isLt
  have h_ea := Bool.toNat_lt w.ea
  omega

/-- A word of this format fits its 48 bits. -/
theorem BankF.toWord_lt (w : BankF) {op : Nat} (h : op < 256) : w.toWord op < 2 ^ 48 := by
  unfold BankF.toWord
  have h_rep := w.rep.isLt
  have h_step := w.step.isLt
  have h_operand := w.operand.isLt
  omega

namespace EncodeFits

/-- The word of an instruction fits the width that the manual gives it: 64 bits for a core word (R227), 48 for a
bank-command word (R339). A device event has no word. -/
def Statement (i : Instr) : Prop :=
  match encode i with
  | some (.core w) => w < 2 ^ 64
  | some (.bank w) => w < 2 ^ 48
  | none => True

theorem bootCtlColdStart (key : BitVec 16) : Statement (.bootCtlColdStart key) := trivial
theorem bootCtlWarmStart (key : BitVec 16) : Statement (.bootCtlWarmStart key) := trivial
theorem featCommit (value : BitVec 64) : Statement (.featCommit value) := trivial
theorem mailboxBadCommand (cmd : BitVec 64) : Statement (.mailboxBadCommand cmd) := trivial
theorem bindContext (ctx : BitVec 8) : Statement (.bindContext ctx) := trivial
theorem unbindContext (ctx : BitVec 8) : Statement (.unbindContext ctx) := trivial
theorem setKey (req : KeyRequest) : Statement (.setKey req) := trivial
theorem clearKey (slot : BitVec 8) : Statement (.clearKey slot) := trivial
theorem tdiExitRun (toError : Bool) : Statement (.tdiExitRun toError) := trivial
theorem linearWindowRead (src : Requester) (off len : Nat) : Statement (.linearWindowRead src off len) := trivial
theorem linearWindowWrite (src : Requester) (off : Nat) (data : List (BitVec 8)) : Statement (.linearWindowWrite src off data) := trivial
theorem linearWindowAtomicop (src : Requester) (op : PcieAtomic) (off size : Nat) (v1 v2 : BitVec 64) : Statement (.linearWindowAtomicop src op off size v1 v2) := trivial
theorem registerWindowAtomicop (src : Requester) (off : Nat) : Statement (.registerWindowAtomicop src off) := trivial
theorem registerWrite (src : Requester) (off size : Nat) (value : BitVec 64) : Statement (.registerWrite src off size value) := trivial
theorem qcfgWrite (queue : Nat) (part : RegPart) (value : BitVec 64) : Statement (.qcfgWrite queue part value) := trivial
theorem tailWrite (queue : Nat) (part : RegPart) (value : BitVec 64) : Statement (.tailWrite queue part value) := trivial
theorem qreset (queue : Nat) (value : BitVec 64) : Statement (.qreset queue value) := trivial
theorem ctxRootWrite (ctx : Nat) (part : RegPart) (value : BitVec 64) : Statement (.ctxRootWrite ctx part value) := trivial
theorem ctxInvalidate (ctx : Nat) (part : RegPart) (value : BitVec 64) : Statement (.ctxInvalidate ctx part value) := trivial
theorem ctxResume (ctx : Nat) (value : BitVec 64) : Statement (.ctxResume ctx value) := trivial
theorem semAssignWrite (sem : Nat) (part : RegPart) (value : BitVec 64) : Statement (.semAssignWrite sem part value) := trivial
theorem preemption (unit : PreemptUnit) : Statement (.preemption unit) := trivial
theorem budgetOverrun (cls : MeterClass) : Statement (.budgetOverrun cls) := trivial
theorem pageWalk (cache : CacheId) (ctx : Nat) (va : BitVec 64) (write : Bool) : Statement (.pageWalk cache ctx va write) := trivial
theorem perBankRefresh (bank cycles : Nat) : Statement (.perBankRefresh bank cycles) := trivial
theorem streamTransfer (q : Fin 16) : Statement (.streamTransfer q) := trivial
theorem fullEmptyResultFill (index : Nat) : Statement (.fullEmptyResultFill index) := trivial
theorem add (w : A3) : Statement (.add w) := A3.toWord_lt w (by decide)
theorem sub (w : A3) : Statement (.sub w) := A3.toWord_lt w (by decide)
theorem mul (w : A3) : Statement (.mul w) := A3.toWord_lt w (by decide)
theorem mulhi (w : A3) : Statement (.mulhi w) := A3.toWord_lt w (by decide)
theorem mulhs (w : A3) : Statement (.mulhs w) := A3.toWord_lt w (by decide)
theorem div (w : A3) : Statement (.div w) := A3.toWord_lt w (by decide)
theorem divs (w : A3) : Statement (.divs w) := A3.toWord_lt w (by decide)
theorem rem (w : A3) : Statement (.rem w) := A3.toWord_lt w (by decide)
theorem rems (w : A3) : Statement (.rems w) := A3.toWord_lt w (by decide)
theorem and (w : A3) : Statement (.and w) := A3.toWord_lt w (by decide)
theorem or (w : A3) : Statement (.or w) := A3.toWord_lt w (by decide)
theorem xor (w : A3) : Statement (.xor w) := A3.toWord_lt w (by decide)
theorem shl (w : A3) : Statement (.shl w) := A3.toWord_lt w (by decide)
theorem shr (w : A3) : Statement (.shr w) := A3.toWord_lt w (by decide)
theorem sra (w : A3) : Statement (.sra w) := A3.toWord_lt w (by decide)
theorem rot (w : A3) : Statement (.rot w) := A3.toWord_lt w (by decide)
theorem clz (w : A3) : Statement (.clz w) := A3.toWord_lt w (by decide)
theorem ctz (w : A3) : Statement (.ctz w) := A3.toWord_lt w (by decide)
theorem popc (w : A3) : Statement (.popc w) := A3.toWord_lt w (by decide)
theorem bext (w : A3) : Statement (.bext w) := A3.toWord_lt w (by decide)
theorem bins (w : A3) : Statement (.bins w) := A3.toWord_lt w (by decide)
theorem min (w : A3) : Statement (.min w) := A3.toWord_lt w (by decide)
theorem max (w : A3) : Statement (.max w) := A3.toWord_lt w (by decide)
theorem mins (w : A3) : Statement (.mins w) := A3.toWord_lt w (by decide)
theorem maxs (w : A3) : Statement (.maxs w) := A3.toWord_lt w (by decide)
theorem cmp (w : A3) : Statement (.cmp w) := A3.toWord_lt w (by decide)
theorem sel (w : A3) : Statement (.sel w) := A3.toWord_lt w (by decide)
theorem addi (w : I32) : Statement (.addi w) := I32.toWord_lt w (by decide)
theorem andi (w : I32) : Statement (.andi w) := I32.toWord_lt w (by decide)
theorem ori (w : I32) : Statement (.ori w) := I32.toWord_lt w (by decide)
theorem xori (w : I32) : Statement (.xori w) := I32.toWord_lt w (by decide)
theorem shli (w : I32) : Statement (.shli w) := I32.toWord_lt w (by decide)
theorem shri (w : I32) : Statement (.shri w) := I32.toWord_lt w (by decide)
theorem srai (w : I32) : Statement (.srai w) := I32.toWord_lt w (by decide)
theorem ldi (w : I32) : Statement (.ldi w) := I32.toWord_lt w (by decide)
theorem ldih (w : I32) : Statement (.ldih w) := I32.toWord_lt w (by decide)
theorem lea (w : I32) : Statement (.lea w) := I32.toWord_lt w (by decide)
theorem br (w : BrF) : Statement (.br w) := BrF.toWord_lt w (by decide)
theorem j (w : BrF) : Statement (.j w) := BrF.toWord_lt w (by decide)
theorem call (w : BrF) : Statement (.call w) := BrF.toWord_lt w (by decide)
theorem jr (w : A3) : Statement (.jr w) := A3.toWord_lt w (by decide)
theorem callr (w : A3) : Statement (.callr w) := A3.toWord_lt w (by decide)
theorem ret (w : A3) : Statement (.ret w) := A3.toWord_lt w (by decide)
theorem loopm (w : LoopF) : Statement (.loopm w) := LoopF.toWord_lt w (by decide)
theorem ld (w : MemF) : Statement (.ld w) := MemF.toWord_lt w (by decide)
theorem ldx (w : MemF) : Statement (.ldx w) := MemF.toWord_lt w (by decide)
theorem st (w : MemF) : Statement (.st w) := MemF.toWord_lt w (by decide)
theorem pref (w : MemF) : Statement (.pref w) := MemF.toWord_lt w (by decide)
theorem vld (w : MemF) : Statement (.vld w) := MemF.toWord_lt w (by decide)
theorem vst (w : MemF) : Statement (.vst w) := MemF.toWord_lt w (by decide)
theorem vlds (w : A3) : Statement (.vlds w) := A3.toWord_lt w (by decide)
theorem vgath (w : A3) : Statement (.vgath w) := A3.toWord_lt w (by decide)
theorem vscat (w : A3) : Statement (.vscat w) := A3.toWord_lt w (by decide)
theorem aadd (w : MemF) : Statement (.aadd w) := MemF.toWord_lt w (by decide)
theorem amin (w : MemF) : Statement (.amin w) := MemF.toWord_lt w (by decide)
theorem amax (w : MemF) : Statement (.amax w) := MemF.toWord_lt w (by decide)
theorem aand (w : MemF) : Statement (.aand w) := MemF.toWord_lt w (by decide)
theorem aor (w : MemF) : Statement (.aor w) := MemF.toWord_lt w (by decide)
theorem axor (w : MemF) : Statement (.axor w) := MemF.toWord_lt w (by decide)
theorem axchg (w : MemF) : Statement (.axchg w) := MemF.toWord_lt w (by decide)
theorem acas (w : MemF) : Statement (.acas w) := MemF.toWord_lt w (by decide)
theorem afadd (w : MemF) : Statement (.afadd w) := MemF.toWord_lt w (by decide)
theorem afamax (w : MemF) : Statement (.afamax w) := MemF.toWord_lt w (by decide)
theorem fence (w : SysF) : Statement (.fence w) := SysF.toWord_lt w (by decide)
theorem xfence (w : SysF) : Statement (.xfence w) := SysF.toWord_lt w (by decide)
theorem mark (w : SysF) : Statement (.mark w) := SysF.toWord_lt w (by decide)
theorem semw (w : SysF) : Statement (.semw w) := SysF.toWord_lt w (by decide)
theorem sems (w : SysF) : Statement (.sems w) := SysF.toWord_lt w (by decide)
theorem semi (w : SysF) : Statement (.semi w) := SysF.toWord_lt w (by decide)
theorem semr (w : SysF) : Statement (.semr w) := SysF.toWord_lt w (by decide)
theorem pbar (w : SysF) : Statement (.pbar w) := SysF.toWord_lt w (by decide)
theorem acqs (w : SysF) : Statement (.acqs w) := SysF.toWord_lt w (by decide)
theorem rels (w : SysF) : Statement (.rels w) := SysF.toWord_lt w (by decide)
theorem waittAny (w : SysF) : Statement (.waittAny w) := SysF.toWord_lt w (by decide)
theorem waittAll (w : SysF) : Statement (.waittAll w) := SysF.toWord_lt w (by decide)
theorem ffrt (w : SysF) : Statement (.ffrt w) := SysF.toWord_lt w (by decide)
theorem vadd (w : A3) : Statement (.vadd w) := A3.toWord_lt w (by decide)
theorem vsub (w : A3) : Statement (.vsub w) := A3.toWord_lt w (by decide)
theorem vmul (w : A3) : Statement (.vmul w) := A3.toWord_lt w (by decide)
theorem vmad (w : A3) : Statement (.vmad w) := A3.toWord_lt w (by decide)
theorem vmin (w : A3) : Statement (.vmin w) := A3.toWord_lt w (by decide)
theorem vmax (w : A3) : Statement (.vmax w) := A3.toWord_lt w (by decide)
theorem vand (w : A3) : Statement (.vand w) := A3.toWord_lt w (by decide)
theorem vor (w : A3) : Statement (.vor w) := A3.toWord_lt w (by decide)
theorem vxor (w : A3) : Statement (.vxor w) := A3.toWord_lt w (by decide)
theorem vshl (w : A3) : Statement (.vshl w) := A3.toWord_lt w (by decide)
theorem vshr (w : A3) : Statement (.vshr w) := A3.toWord_lt w (by decide)
theorem vsra (w : A3) : Statement (.vsra w) := A3.toWord_lt w (by decide)
theorem vcmp (w : A3) : Statement (.vcmp w) := A3.toWord_lt w (by decide)
theorem vsel (w : A3) : Statement (.vsel w) := A3.toWord_lt w (by decide)
theorem vabs (w : A3) : Statement (.vabs w) := A3.toWord_lt w (by decide)
theorem vpopc (w : A3) : Statement (.vpopc w) := A3.toWord_lt w (by decide)
theorem vclz (w : A3) : Statement (.vclz w) := A3.toWord_lt w (by decide)
theorem vfadd (w : A3) : Statement (.vfadd w) := A3.toWord_lt w (by decide)
theorem vfsub (w : A3) : Statement (.vfsub w) := A3.toWord_lt w (by decide)
theorem vfmul (w : A3) : Statement (.vfmul w) := A3.toWord_lt w (by decide)
theorem vfma (w : A3) : Statement (.vfma w) := A3.toWord_lt w (by decide)
theorem vfmin (w : A3) : Statement (.vfmin w) := A3.toWord_lt w (by decide)
theorem vfmax (w : A3) : Statement (.vfmax w) := A3.toWord_lt w (by decide)
theorem vfcmp (w : A3) : Statement (.vfcmp w) := A3.toWord_lt w (by decide)
theorem vfabs (w : A3) : Statement (.vfabs w) := A3.toWord_lt w (by decide)
theorem vfneg (w : A3) : Statement (.vfneg w) := A3.toWord_lt w (by decide)
theorem vexp2 (w : A3) : Statement (.vexp2 w) := A3.toWord_lt w (by decide)
theorem vlog2 (w : A3) : Statement (.vlog2 w) := A3.toWord_lt w (by decide)
theorem vrcp (w : A3) : Statement (.vrcp w) := A3.toWord_lt w (by decide)
theorem vrsq (w : A3) : Statement (.vrsq w) := A3.toWord_lt w (by decide)
theorem vsqrt (w : A3) : Statement (.vsqrt w) := A3.toWord_lt w (by decide)
theorem veadd (w : A3) : Statement (.veadd w) := A3.toWord_lt w (by decide)
theorem vmov (w : A3) : Statement (.vmov w) := A3.toWord_lt w (by decide)
theorem vbcast (w : A3) : Statement (.vbcast w) := A3.toWord_lt w (by decide)
theorem vext (w : A3) : Statement (.vext w) := A3.toWord_lt w (by decide)
theorem vins (w : A3) : Statement (.vins w) := A3.toWord_lt w (by decide)
theorem vperm (w : A3) : Statement (.vperm w) := A3.toWord_lt w (by decide)
theorem vcomp (w : A3) : Statement (.vcomp w) := A3.toWord_lt w (by decide)
theorem viota (w : A3) : Statement (.viota w) := A3.toWord_lt w (by decide)
theorem vcvt (w : SysF) : Statement (.vcvt w) := SysF.toWord_lt w (by decide)
theorem vqnt (w : SysF) : Statement (.vqnt w) := SysF.toWord_lt w (by decide)
theorem vqntSc (w : SysF) : Statement (.vqntSc w) := SysF.toWord_lt w (by decide)
theorem vdqnt (w : SysF) : Statement (.vdqnt w) := SysF.toWord_lt w (by decide)
theorem vscl (w : SysF) : Statement (.vscl w) := SysF.toWord_lt w (by decide)
theorem kand (w : A3) : Statement (.kand w) := A3.toWord_lt w (by decide)
theorem kor (w : A3) : Statement (.kor w) := A3.toWord_lt w (by decide)
theorem kxor (w : A3) : Statement (.kxor w) := A3.toWord_lt w (by decide)
theorem knot (w : A3) : Statement (.knot w) := A3.toWord_lt w (by decide)
theorem kmov (w : A3) : Statement (.kmov w) := A3.toWord_lt w (by decide)
theorem kmovL64ToMask (w : A3) : Statement (.kmovL64ToMask w) := A3.toWord_lt w (by decide)
theorem kmovH64ToMask (w : A3) : Statement (.kmovH64ToMask w) := A3.toWord_lt w (by decide)
theorem kmovL64ToScalar (w : A3) : Statement (.kmovL64ToScalar w) := A3.toWord_lt w (by decide)
theorem kmovH64ToScalar (w : A3) : Statement (.kmovH64ToScalar w) := A3.toWord_lt w (by decide)
theorem kpop (w : A3) : Statement (.kpop w) := A3.toWord_lt w (by decide)
theorem kff (w : A3) : Statement (.kff w) := A3.toWord_lt w (by decide)
theorem vrsum (w : A3) : Statement (.vrsum w) := A3.toWord_lt w (by decide)
theorem vrmax (w : A3) : Statement (.vrmax w) := A3.toWord_lt w (by decide)
theorem vrmin (w : A3) : Statement (.vrmin w) := A3.toWord_lt w (by decide)
theorem vrfsum (w : A3) : Statement (.vrfsum w) := A3.toWord_lt w (by decide)
theorem vrfmax (w : A3) : Statement (.vrfmax w) := A3.toWord_lt w (by decide)
theorem vramax (w : A3) : Statement (.vramax w) := A3.toWord_lt w (by decide)
theorem vrarg (w : A3) : Statement (.vrarg w) := A3.toWord_lt w (by decide)
theorem mlds (w : EngF) : Statement (.mlds w) := EngF.toWord_lt w (by decide)
theorem mswap (w : EngF) : Statement (.mswap w) := EngF.toWord_lt w (by decide)
theorem mstrm (w : EngF) : Statement (.mstrm w) := EngF.toWord_lt w (by decide)
theorem mdrn (w : EngF) : Statement (.mdrn w) := EngF.toWord_lt w (by decide)
theorem mzero (w : EngF) : Statement (.mzero w) := EngF.toWord_lt w (by decide)
theorem meadd (w : EngF) : Statement (.meadd w) := EngF.toWord_lt w (by decide)
theorem mscl (w : EngF) : Statement (.mscl w) := EngF.toWord_lt w (by decide)
theorem mstat (w : EngF) : Statement (.mstat w) := EngF.toWord_lt w (by decide)
theorem mlunge (w : EngF) : Statement (.mlunge w) := EngF.toWord_lt w (by decide)
theorem mwaitd (w : A3) : Statement (.mwaitd w) := A3.toWord_lt w (by decide)
theorem mfeed (w : SysF) : Statement (.mfeed w) := SysF.toWord_lt w (by decide)
theorem mdack (w : SysF) : Statement (.mdack w) := SysF.toWord_lt w (by decide)
theorem mstop (w : EngF) : Statement (.mstop w) := EngF.toWord_lt w (by decide)
theorem strb (w : SysF) : Statement (.strb w) := SysF.toWord_lt w (by decide)
theorem stru (w : SysF) : Statement (.stru w) := SysF.toWord_lt w (by decide)
theorem strq (w : SysF) : Statement (.strq w) := SysF.toWord_lt w (by decide)
theorem strs (w : SysF) : Statement (.strs w) := SysF.toWord_lt w (by decide)
theorem bteg (w : EngF) : Statement (.bteg w) := EngF.toWord_lt w (by decide)
theorem tmpli (w : SysF) : Statement (.tmpli w) := SysF.toWord_lt w (by decide)
theorem bcall (w : EngF) : Statement (.bcall w) := EngF.toWord_lt w (by decide)
theorem bstat (w : A3) : Statement (.bstat w) := A3.toWord_lt w (by decide)
theorem kvho (w : EngF) : Statement (.kvho w) := EngF.toWord_lt w (by decide)
theorem btinv (w : EngF) : Statement (.btinv w) := EngF.toWord_lt w (by decide)
theorem expf (w : SysF) : Statement (.expf w) := SysF.toWord_lt w (by decide)
theorem expq (w : SysF) : Statement (.expq w) := SysF.toWord_lt w (by decide)
theorem lxjob (w : EngF) : Statement (.lxjob w) := EngF.toWord_lt w (by decide)
theorem pxhash (w : A3) : Statement (.pxhash w) := A3.toWord_lt w (by decide)
theorem pxhashRoot (w : A3) : Statement (.pxhashRoot w) := A3.toWord_lt w (by decide)
theorem pxlook (w : A3) : Statement (.pxlook w) := A3.toWord_lt w (by decide)
theorem pxins (w : A3) : Statement (.pxins w) := A3.toWord_lt w (by decide)
theorem pxpub (w : A3) : Statement (.pxpub w) := A3.toWord_lt w (by decide)
theorem pxrel (w : A3) : Statement (.pxrel w) := A3.toWord_lt w (by decide)
theorem trap (w : SysF) : Statement (.trap w) := SysF.toWord_lt w (by decide)
theorem reti (w : SysF) : Statement (.reti w) := SysF.toWord_lt w (by decide)
theorem halt (w : SysF) : Statement (.halt w) := SysF.toWord_lt w (by decide)
theorem cont (w : SysF) : Statement (.cont w) := SysF.toWord_lt w (by decide)
theorem nop (w : SysF) : Statement (.nop w) := SysF.toWord_lt w (by decide)
theorem bkpt (w : SysF) : Statement (.bkpt w) := SysF.toWord_lt w (by decide)
theorem yield (w : SysF) : Statement (.yield w) := SysF.toWord_lt w (by decide)
theorem ckpt (w : SysF) : Statement (.ckpt w) := SysF.toWord_lt w (by decide)
theorem mfc (w : SysF) : Statement (.mfc w) := SysF.toWord_lt w (by decide)
theorem mtc (w : SysF) : Statement (.mtc w) := SysF.toWord_lt w (by decide)
theorem beat (w : SysF) : Statement (.beat w) := SysF.toWord_lt w (by decide)
theorem spawn (w : A3) : Statement (.spawn w) := A3.toWord_lt w (by decide)
theorem join (w : SysF) : Statement (.join w) := SysF.toWord_lt w (by decide)
theorem nopw (w : BankF) : Statement (.nopw w) := BankF.toWord_lt w (by decide)
theorem bset (w : BankF) : Statement (.bset w) := BankF.toWord_lt w (by decide)
theorem bsetAdd (w : BankF) : Statement (.bsetAdd w) := BankF.toWord_lt w (by decide)
theorem loopw (w : BankF) : Statement (.loopw w) := BankF.toWord_lt w (by decide)
theorem endw (w : BankF) : Statement (.endw w) := BankF.toWord_lt w (by decide)
theorem jmpw (w : BankF) : Statement (.jmpw w) := BankF.toWord_lt w (by decide)
theorem haltw (w : BankF) : Statement (.haltw w) := BankF.toWord_lt w (by decide)
theorem semww (w : BankF) : Statement (.semww w) := BankF.toWord_lt w (by decide)
theorem semsw (w : BankF) : Statement (.semsw w) := BankF.toWord_lt w (by decide)
theorem markw (w : BankF) : Statement (.markw w) := BankF.toWord_lt w (by decide)
theorem resw (w : BankF) : Statement (.resw w) := BankF.toWord_lt w (by decide)
theorem bcast (w : BankF) : Statement (.bcast w) := BankF.toWord_lt w (by decide)
theorem accz (w : BankF) : Statement (.accz w) := BankF.toWord_lt w (by decide)
theorem dotK4 (w : BankF) : Statement (.dotK4 w) := BankF.toWord_lt w (by decide)
theorem dotK4Cont (w : BankF) : Statement (.dotK4Cont w) := BankF.toWord_lt w (by decide)
theorem dotKv (w : BankF) : Statement (.dotKv w) := BankF.toWord_lt w (by decide)
theorem axpy (w : BankF) : Statement (.axpy w) := BankF.toWord_lt w (by decide)
theorem cvt (w : BankF) : Statement (.cvt w) := BankF.toWord_lt w (by decide)
theorem drn (w : BankF) : Statement (.drn w) := BankF.toWord_lt w (by decide)
theorem kvwK (w : BankF) : Statement (.kvwK w) := BankF.toWord_lt w (by decide)
theorem kvwV (w : BankF) : Statement (.kvwV w) := BankF.toWord_lt w (by decide)
theorem rdw (w : BankF) : Statement (.rdw w) := BankF.toWord_lt w (by decide)
theorem wrw (w : BankF) : Statement (.wrw w) := BankF.toWord_lt w (by decide)
theorem spdmSecuredSession (up : Bool) : Statement (.spdmSecuredSession up) := trivial
theorem hostLinkTraining (lanes rate : Nat) (flit : Bool) : Statement (.hostLinkTraining lanes rate flit) := trivial
theorem registerWindowRead (src : Requester) (off size : Nat) : Statement (.registerWindowRead src off size) := trivial
theorem illegalOpcode (word : BitVec 64) : Statement (.illegalOpcode word) := word.isLt
theorem illegalWord (word : BitVec 48) : Statement (.illegalWord word) := word.isLt
theorem powerOn : Statement .powerOn := trivial
theorem powerLoss : Statement .powerLoss := trivial
theorem pcieFundamentalReset : Statement .pcieFundamentalReset := trivial
theorem functionLevelReset : Statement .functionLevelReset := trivial
theorem bootRomSelfCheck : Statement .bootRomSelfCheck := trivial
theorem readBoardLimits : Statement .readBoardLimits := trivial
theorem measureImage : Statement .measureImage := trivial
theorem trainChannels : Statement .trainChannels := trivial
theorem bguSelfTest : Statement .bguSelfTest := trivial
theorem clearLoft : Statement .clearLoft := trivial
theorem calibrateLoadModel : Statement .calibrateLoadModel := trivial
theorem featureNegotiation : Statement .featureNegotiation := trivial
theorem stepTimeout : Statement .stepTimeout := trivial
theorem loadImage : Statement .loadImage := trivial
theorem resync : Statement .resync := trivial
theorem spdmMeasurementReport : Statement .spdmMeasurementReport := trivial
theorem queueResetDone : Statement .queueResetDone := trivial
theorem ctxInvalidateDone : Statement .ctxInvalidateDone := trivial
theorem workEntryRead : Statement .workEntryRead := trivial
theorem entryReread : Statement .entryReread := trivial
theorem operatorRecordExpand : Statement .operatorRecordExpand := trivial
theorem launch : Statement .launch := trivial
theorem copy : Statement .copy := trivial
theorem copyEnd : Statement .copyEnd := trivial
theorem confCopy : Statement .confCopy := trivial
theorem confCopyTagCheck : Statement .confCopyTagCheck := trivial
theorem ingest : Statement .ingest := trivial
theorem ingestEnd : Statement .ingestEnd := trivial
theorem handleSet : Statement .handleSet := trivial
theorem handleFree : Statement .handleFree := trivial
theorem launchRetire : Statement .launchRetire := trivial
theorem entryCompletion : Statement .entryCompletion := trivial
theorem continuationPop : Statement .continuationPop := trivial
theorem engineJobDispatch : Statement .engineJobDispatch := trivial
theorem engineJobEnd : Statement .engineJobEnd := trivial
theorem forcedSave : Statement .forcedSave := trivial
theorem deadlineMiss : Statement .deadlineMiss := trivial
theorem thermalSample : Statement .thermalSample := trivial
theorem modelledPowerSample : Statement .modelledPowerSample := trivial
theorem governorWindowStart : Statement .governorWindowStart := trivial
theorem refreshEnd : Statement .refreshEnd := trivial
theorem ordinaryAccess : Statement .ordinaryAccess := trivial
theorem reductionBlockConvert : Statement .reductionBlockConvert := trivial
theorem bankJobEnd : Statement .bankJobEnd := trivial
theorem expertFetchComplete : Statement .expertFetchComplete := trivial
theorem expertTimeout : Statement .expertTimeout := trivial
theorem matrixRowLand : Statement .matrixRowLand := trivial
theorem mstrmStampStart : Statement .mstrmStampStart := trivial
theorem lungeOperandDemand : Statement .lungeOperandDemand := trivial
theorem lungeRowDue : Statement .lungeRowDue := trivial
theorem interrupt : Statement .interrupt := trivial
theorem tdiLock : Statement .tdiLock := trivial
theorem tdiStart : Statement .tdiStart := trivial
theorem instructionFetchFault : Statement .instructionFetchFault := trivial

end EncodeFits

end Sys2Proof.Laws
end

