-- ==== Sys2Proof/Laws/Values.lean ====
section
/-! SUPPORT. What the value functions of the scalar and vector instructions come to in terms of BitVec and Nat: signed readings,
shifts, bit fields, counts and lanes. -/

namespace Sys2Proof.Machine

theorem sgn_eq_toInt (x : W64) : sgn x = x.toInt := by
  have h := x.isLt
  simp only [sgn, sext, BitVec.toInt]
  omega

theorem w64_eq_ofInt (i : Int) : w64 i = BitVec.ofInt 64 i := by
  apply BitVec.eq_of_toNat_eq
  simp only [w64, wrap, BitVec.toNat_ofNat, BitVec.toNat_ofInt]
  omega

theorem shiftL_eq (x : W64) (n : Nat) : shiftL x n = x <<< n := by
  apply BitVec.eq_of_toNat_eq
  unfold shiftL
  split
  · have h : 2 ^ 64 ∣ 2 ^ n := Nat.pow_dvd_pow 2 (by assumption)
    obtain ⟨k, hk⟩ := h
    simp only [BitVec.toNat_shiftLeft, Nat.shiftLeft_eq, hk]
    simp only [BitVec.ofNat_eq_ofNat, BitVec.toNat_ofNat]
    rw [Nat.mul_left_comm, Nat.mul_mod_right]
  · simp [BitVec.toNat_shiftLeft, Nat.shiftLeft_eq]

theorem shiftR_eq (x : W64) (n : Nat) : shiftR x n = x >>> n := by
  apply BitVec.eq_of_toNat_eq
  unfold shiftR
  have hx := x.isLt
  split
  · have h : 2 ^ 64 ≤ 2 ^ n := Nat.pow_le_pow_right (by decide) (by assumption)
    rw [BitVec.toNat_ushiftRight, Nat.shiftRight_eq_div_pow, Nat.div_eq_of_lt (by omega)]
    rfl
  · rw [BitVec.toNat_ushiftRight, Nat.shiftRight_eq_div_pow, BitVec.toNat_ofNat]
    exact Nat.mod_eq_of_lt (Nat.lt_of_le_of_lt (Nat.div_le_self _ _) hx)

theorem shiftA_eq (x : W64) (n : Nat) : shiftA x n = x.sshiftRight n := by
  rw [shiftA, w64_eq_ofInt, sgn_eq_toInt]
  apply BitVec.eq_of_toInt_eq
  rw [BitVec.toInt_sshiftRight, BitVec.toInt_ofInt, Int.shiftRight_eq_div_pow]
  have hlo := BitVec.two_mul_toInt_lt (x := x)
  have hhi := BitVec.le_two_mul_toInt (x := x)
  split
  · rename_i h
    have h1 : (2 : Int) ^ 64 ≤ 2 ^ n := by exact_mod_cast Nat.pow_le_pow_right (by decide) h
    have e : x.toInt / 2 ^ n = x.toInt / 2 ^ 64 := by
      rcases Int.lt_or_le x.toInt 0 with hn | hp
      · rw [Int.ediv_eq_neg_one_of_neg_of_le hn (by omega), Int.ediv_eq_neg_one_of_neg_of_le hn (by omega)]
      · rw [Int.ediv_eq_zero_of_lt hp (by omega), Int.ediv_eq_zero_of_lt hp (by omega)]
    rw [show ((2 ^ n : Nat) : Int) = 2 ^ n by push_cast; rfl, e]
    push_cast
    rw [Int.bmod_eq_of_le] <;> omega
  · rename_i h
    have hp : (0 : Int) < 2 ^ n := Int.pow_pos (by decide)
    have h1 : (1 : Int) ≤ 2 ^ n := hp
    push_cast
    rw [Int.bmod_eq_of_le]
    · have := Int.le_ediv_of_mul_le (a := -2 ^ 63) (b := x.toInt) hp (by
        have := Int.mul_le_mul_of_nonneg_left h1 (show (0 : Int) ≤ 2 ^ 63 by decide)
        omega)
      omega
    · rcases Int.lt_or_le x.toInt 0 with hn | hq
      · have := Int.ediv_neg_of_neg_of_pos hn hp
        omega
      · have := Int.ediv_le_self (2 ^ n) hq
        omega

end Sys2Proof.Machine
end

