-- ==== Sys2Proof/Tests/Slice0.lean ====
section
/-! SUPPORT. Tests: words written out from the manual's encodings, ill-formed instructions, single steps on small states with
results computed by hand from the manual, and states that meet the hypotheses of each statement of Obligations.lean. -/

namespace Sys2Proof.Tests
open Sys2Proof Sys2Proof.Machine Sys2Proof.Claims
set_option Elab.async false

/-! ### Helpers -/

/-- Core 0 runs a continuation of context 0 whose next word lies at 0x1000, with the manual's default latencies. -/
def base : Core := placedCore {}

/-- A device whose core 0 is that one, changed by `f`. -/
def onBase (f : Core → Core := id) : State := { State.reset with cores := State.reset.cores.set 0 (f base) }

/-- Scalar registers set. -/
def sregs (xs : List (Nat × W64)) (c : Core) : Core := xs.foldl (fun c x => c.putS x.1 x.2) c

/-- Vector registers set whole. -/
def vregs (xs : List (Nat × VReg)) (c : Core) : Core := xs.foldl (fun c x => c.putV x.1 (BitVec.allOnes 1024) x.2) c

/-- The state after one instruction. -/
def ran (w : Nat) (s : State) : Option State :=
  match exec (decodeCore w) s with
  | .next t => some t
  | _ => none

/-- The core after one instruction. -/
def after (w : Nat) (f : Core → Core := id) : Option Core := (ran w (onBase f)).map State.core

/-- A core with every result in flight written. -/
def settled (c : Core) : Core := c.applyAll (c.flight.flatMap (·.writes))

/-- A scalar register after one instruction. -/
def sAfter (i w : Nat) (f : Core → Core := id) : Option W64 := (after w f).map fun c => (settled c).getS i

/-- A vector register after one instruction. -/
def vAfter (i w : Nat) (f : Core → Core := id) : Option VReg := (after w f).map fun c => (settled c).getV i

/-- A mask register after one instruction. -/
def kAfter (i w : Nat) (f : Core → Core := id) : Option KReg := (after w f).map fun c => (settled c).getK i

/-- That device with semaphore `n`. -/
def withSem (n : Nat) (x : Sem) (f : Core → Core := id) : State := { onBase f with sems := vset State.reset.sems n x }

/-- That device with stage 2 of core 0's yard. -/
def withStage (g : Stage) (f : Core → Core := id) : State :=
  { onBase f with yards := State.reset.yards.set 0 { ({} : Yard) with stages := (Vector.replicate 8 {}).set 2 g } }

/-- A word from its fields, most significant first, each with its width, as Tables 12.1 and 17.1 lay them out. -/
def word (fs : List (Nat × Nat)) : Nat := fs.foldl (fun n f => n * 2 ^ f.1 + f.2) 0

/-- An A3 word: opcode, d, a, b, c, modA, fn, pred; every e-bit 0. -/
def a3 (op d a b c m fn p : Nat) : Nat := word [(8, op), (8, d), (8, a), (1, 0), (8, b), (1, 0), (8, c), (1, 0), (12, m), (5, fn), (4, p)]

/-- An I32 word: opcode, d, a, imm32. -/
def i32 (op d a imm : Nat) : Nat := word [(8, op), (8, d), (8, a), (1, 0), (3, 0), (32, imm), (4, 0)]

/-- An M word: opcode, d, base, size, atom, order, scope, off25. -/
def mw (op d base size atom order scope off : Nat) : Nat :=
  word [(8, op), (8, d), (8, base), (1, 0), (2, size), (2, atom), (2, order), (4, scope), (25, off), (4, 0)]

/-- A B word: opcode, cond, null, a, b, disp28. -/
def bw (op cond null a b disp : Nat) : Nat := word [(8, op), (4, cond), (2, null), (8, a), (1, 0), (8, b), (1, 0), (28, disp), (4, 0)]

/-- An S word: opcode, d, a, ctl, imm23. -/
def sw (op d a ctl imm : Nat) : Nat := word [(8, op), (8, d), (8, a), (1, 0), (12, ctl), (23, imm), (4, 0)]

/-- An E word: opcode, d, desc, waitsem, sigsem, tag. -/
def ew (op d desc wait sig tag : Nat) : Nat :=
  word [(8, op), (8, d), (8, desc), (1, 0), (8, wait), (8, sig), (6, tag), (12, 0), (1, 0), (4, 0)]

/-- A bank-command word: opcode, rep, step, operand. -/
def bankw (op rep step operand : Nat) : Nat := word [(8, op), (16, rep), (16, step), (8, operand)]

/-- A word that decodes to an ill-formed instruction. -/
def bad (w : Nat) : Bool := !(decodeCore w).wellFormed

/-- A leaf in a translation cache: every permission and path, memory type `ty`. -/
def cachedLeaf (va pa size ty : Nat) : Tlb :=
  { ctx := 0, va := va, size := size, pa := pa, leaf := BitVec.ofNat 64 (placedLeaf + 32 * ty), entryAt := 0 }

/-- Core 0 whose yard has these leaves cached: the first MiB of the package, and from 1 GiB queue 0's page and the contexts' pages. -/
def cached (f : Core → Core := id) (g : State → State := id) : State :=
  g { onBase f with
      mem := [(0x3000, 0x80), (0x3001, 1)]
      boot := { State.reset.boot with accFeat := State.reset.boot.accFeat.set 0 Config.devFeat0 }
      yards := State.reset.yards.set 0 { ({} : Yard) with tlb := [cachedLeaf 0 0 0x100000 0,
        cachedLeaf 0x40000000 0xC00000000000 4096 2, cachedLeaf 0x40001000 0xC00000400000 4096 2, cachedLeaf 0x40002000 0x100000 4096 2] } }

/-- Core 0 in context 0, with these bytes at 0x3000. -/
def mapped (bs : List Byte) (f : Core → Core := id) : State := cached f fun s => { s with mem := storeCode [] 0x3000 bs }

/-- Core 0 in context 0, whose page tables map the first GiB to itself, with these bytes at 0x3000. -/
def walked (bs : List Byte) (f : Core → Core := id) : State :=
  let s := State.reset.withCode 8 0
  { s with cores := s.cores.set 0 (f base), mem := storeCode s.mem 0x3000 bs }

/-- That core, with a waiting write that a refresh of its bank keeps from its array (R13). -/
def keptWaiting (f : Core → Core := id) : State :=
  { cached f with wq := [(0x3000, 7)], pauses := [((placeOf 0x3000).bgu, (placeOf 0x3000).bank, 100)] }

/-- A scalar register, and bytes of memory from 0x3000, after one instruction. -/
def sMem (i n w : Nat) (bs : List Byte) (f : Core → Core := id) : Option (W64 × List Byte) :=
  (ran w (mapped bs f)).map fun t => ((settled t.core).getS i, t.readBytes 0x3000 n)

/-- The descriptor of a bank job on port 0. -/
def bankDesc : BankDesc := { placedDesc with arg0 := 0x10000, arg1 := 0x20000 }

/-- The port on MCS[0] of that job has its turn. -/
def bankState (f : Port → Port := id) (s : State := State.reset) : State :=
  { s with
    jobs := [{ placedJob 1 with kind := .bcall bankDesc {} }], mcs := s.mcs.set 0 { s.mcs[0] with holder := some 1 }, subj := { s.subj with job := 1, port := 0 },
    bankJobs := [{ id := 1, desc := bankDesc, tab := {}, ports := [f (freshPort bankDesc {} 0)] }] }

/-- The port after one word. -/
def portAfter (w : Nat) (s : State) : Option Port :=
  match exec (decodeBank w) s with
  | .next t => (t.bankJob? 1).bind (·.port? 0)
  | _ => none

/-- The state after an event. -/
def event (i : Instr) (s : State) : Option State :=
  match exec i s with
  | .next t => some t
  | _ => none

/-! ### Words and bytes of the manual (Tables 12.12, 13.5, 14.7, 16.3; chapter 17) -/

/-- Table 12.12. -/
theorem test_table_12_12 :
    decodeCore 0x01030402C0000000 = .add ⟨3, 4, false, 5, true, 0, false, 0, 0, 0⟩
    ∧ decodeCore 0x60414422800A063B = .vadd ⟨0x41, 0x44, false, 0x45, false, 0, false, 0x503, 3, 0xB⟩
    ∧ decodeCore 0x400902427FFFFC00 = .ld ⟨9, 2, false, 2, 0, 1, 3, 0x1FFFFC0, 0⟩
    ∧ decodeCore 0x30281C1000000040 = .br ⟨2, 2, 7, false, 8, false, 4, 0⟩
    ∧ decodeCore 0x2004040FFFFFFFF0 = .addi ⟨4, 4, false, 0, 0xFFFFFFFF, 0⟩
    ∧ decodeCore 0xE805000180000000 = .mfc ⟨5, 0, false, 0x030, 0, 0⟩
    ∧ decodeCore 0xC2140686068A0C90 = .mstrm ⟨0x14, 6, true, 12, 13, 5, 100, true, 0⟩
    ∧ decodeCore 0xE200000000000000 = .halt ⟨0, 0, false, 0, 0, 0⟩ := by decide +kernel

/-- The bytes of Table 12.12, first byte first. -/
theorem test_bytes_12_12 :
    (match decodeCoreBytes [0x00, 0x00, 0x00, 0xC0, 0x02, 0x04, 0x03, 0x01, 0xFF] with
      | .ok x => x == (.add ⟨3, 4, false, 5, true, 0, false, 0, 0, 0⟩, [0xFF])
      | .error _ => false) = true
    ∧ (match decodeCoreBytes [0x3B, 0x06, 0x0A, 0x80, 0x22, 0x44, 0x41] with
      | .ok _ => false
      | .error e => e == .tooShort) = true
    ∧ encodeBytes (.ld ⟨9, 2, false, 2, 0, 1, 3, 0x1FFFFC0, 0⟩) = some [0x00, 0xFC, 0xFF, 0x7F, 0x42, 0x02, 0x09, 0x40]
    ∧ encodeBytes (.mstrm ⟨0x14, 6, true, 12, 13, 5, 100, true, 0⟩) = some [0x90, 0x0C, 0x8A, 0x06, 0x86, 0x06, 0x14, 0xC2]
    ∧ (match decodeBankBytes [0x05, 0x01, 0x00, 0x00, 0x00, 0x02] with
      | .ok x => x == (.bset ⟨0, 1, 5⟩, [])
      | .error _ => false) = true := by decide +kernel

/-- Tables 13.5, 14.7 and 16.3, and the bank program of chapter 17: the words of Obligations.DecodedWords. -/
theorem test_worked_words : (coreWords.all fun x => decodeCore x.1 == x.2) = true ∧ (bankWords.all fun x => decodeBank x.1 == x.2) = true := by
  decide +kernel

/-- One word of every other family, field by field. -/
theorem test_decode_families :
    decodeCore (bw 0x32 0 1 0 0 0xFFFFFFE) = .call ⟨0, 1, 0, false, 0, false, 0xFFFFFFE, 0⟩
    ∧ decodeCore (a3 0x34 0 5 0 0 0 2 0) = .callr ⟨0, 5, false, 0, false, 0, false, 0, 2, 0⟩
    ∧ decodeCore (mw 0x49 4 2 3 1 3 7 8) = .aadd ⟨4, 2, false, 3, 1, 3, 7, 8, 0⟩
    ∧ decodeCore (mw 0x44 0x41 2 2 0 0 0 0x1FFFFFF) = .vld ⟨0x41, 2, false, 2, 0, 0, 0, 0x1FFFFFF, 0⟩
    ∧ decodeCore (a3 0x47 0x41 2 0x43 0 0 3 8) = .vgath ⟨0x41, 2, false, 0x43, false, 0, false, 0, 3, 8⟩
    ∧ decodeCore (sw 0x56 0 0 17 5) = .semw ⟨0, 0, false, 17, 5, 0⟩
    ∧ decodeCore (sw 0x5D 0 3 0 0) = .waittAny ⟨0, 3, false, 0, 0, 0⟩ ∧ decodeCore (sw 0x5D 0 3 1 0) = .waittAll ⟨0, 3, false, 1, 0, 0⟩
    ∧ decodeCore (a3 0x7B 0x41 0x42 0x43 0x44 0 9 0) = .vfma ⟨0x41, 0x42, false, 0x43, false, 0x44, false, 0, 9, 0⟩
    ∧ decodeCore (a3 0x84 0x41 0x42 0 0 0 8 0) = .vrsq ⟨0x41, 0x42, false, 0, false, 0, false, 0, 8, 0⟩
    ∧ decodeCore (a3 0x8C 0x41 0x42 0x43 0 0 3 0) = .vperm ⟨0x41, 0x42, false, 0x43, false, 0, false, 0, 3, 0⟩
    ∧ decodeCore (a3 0xAC 0xC1 0xC2 0 0 0 0 0) = .kmov ⟨0xC1, 0xC2, false, 0, false, 0, false, 0, 0, 0⟩
    ∧ decodeCore (a3 0xAC 0xC1 2 0 0 0 1 0) = .kmovL64ToMask ⟨0xC1, 2, false, 0, false, 0, false, 0, 1, 0⟩
    ∧ decodeCore (a3 0xAC 0xC1 2 0 0 0 2 0) = .kmovH64ToMask ⟨0xC1, 2, false, 0, false, 0, false, 0, 2, 0⟩
    ∧ decodeCore (a3 0xAC 2 0xC1 0 0 0 3 0) = .kmovL64ToScalar ⟨2, 0xC1, false, 0, false, 0, false, 0, 3, 0⟩
    ∧ decodeCore (a3 0xAC 2 0xC1 0 0 0 4 0) = .kmovH64ToScalar ⟨2, 0xC1, false, 0, false, 0, false, 0, 4, 0⟩
    ∧ decodeCore (a3 0xB3 3 0x46 0 0 0 8 0) = .vrfsum ⟨3, 0x46, false, 0, false, 0, false, 0, 8, 0⟩
    ∧ decodeCore (sw 0xCA 2 1 3 0) = .mfeed ⟨2, 1, false, 3, 0, 0⟩
    ∧ decodeCore (sw 0xCD 0x83 5 0 0) = .strb ⟨0x83, 5, false, 0, 0, 0⟩
    ∧ decodeCore (ew 0xD3 0 5 3 4 9) = .bcall ⟨0, 5, false, 3, 4, 9, 0, false, 0⟩
    ∧ decodeCore (sw 0xD8 4 5 1 0) = .expq ⟨4, 5, false, 1, 0, 0⟩
    ∧ decodeCore (a3 0xDA 0x41 0x42 0x43 0 0 0 0) = .pxhash ⟨0x41, 0x42, false, 0x43, false, 0, false, 0, 0, 0⟩
    ∧ decodeCore (a3 0xDA 0x41 0x42 0 0 0 1 0) = .pxhashRoot ⟨0x41, 0x42, false, 0, false, 0, false, 0, 1, 0⟩
    ∧ decodeCore (a3 0xEB 0 5 6 7 0 1 0) = .spawn ⟨0, 5, false, 6, false, 7, false, 0, 1, 0⟩
    ∧ decodeBank (bankw 0x02 0 5 0x85) = .bsetAdd ⟨0, 5, 0x85⟩ ∧ decodeBank (bankw 0x12 3 0 1) = .dotKv ⟨3, 0, 1⟩
    ∧ decodeBank (bankw 0x12 3 1 2) = .dotK4Cont ⟨3, 1, 2⟩ ∧ decodeBank (bankw 0x18 4 0 1) = .kvwV ⟨4, 0, 1⟩
    ∧ decodeBank (bankw 0x05 0 0xFFFE 0) = .jmpw ⟨0, 0xFFFE, 0⟩ := by decide +kernel

/-- The placed word is the one the table numbers, in whole bytes. -/
theorem test_table_words :
    decodeTableWord 64 0xE400000000000000 = some (.nop ⟨0, 0, false, 0, 0, 0⟩)
    ∧ decodeTableWord 48 0x060000000000 = some (.haltw ⟨0, 0, 0⟩) ∧ decodeTableWord 40 0 = none := by decide +kernel

/-! ### Ill-formed instructions, one check each (R229-R239, R339, R359; the fates listed after Table 12.12) -/

def badBank (w : Nat) : Bool := !(decodeBank w).wellFormed

theorem test_manual_fates :
    (decodeCore 0).wellFormed = true ∧ bad 0x60414422800A063B = false
    ∧ bad 0x60414422800A0638 = true
    ∧ bad (a3 0x60 0x41 0x44 0x45 0 0x583 3 0) = true
    ∧ bad 0x302C1C1000000040 = true ∧ bad 0x400902407FFFFC00 = true
    ∧ bad 0xE200000000000010 = true ∧ bad 0xE200000008000000 = true := by decide +kernel

theorem test_ill_formed_scalar :
    bad (a3 1 0x41 2 3 0 0 0 0) = true ∧ bad (a3 1 2 3 4 5 0 0 0) = true ∧ bad (a3 1 2 3 4 0 1 0 0) = true ∧ bad (a3 1 2 3 4 0 0 1 0) = true
    ∧ bad (word [(8, 0x11), (8, 2), (8, 3), (1, 0), (8, 0), (1, 1), (8, 0), (1, 0), (12, 0), (5, 0), (4, 0)]) = true
    ∧ bad (a3 0x1A 2 3 4 0 0 8 0) = true ∧ bad (a3 0x1A 2 3 4 0 0 6 0) = true ∧ bad (a3 0x1A 2 3 0 0 0 6 0) = false
    ∧ bad (i32 0x24 2 3 64) = true ∧ bad (i32 0x24 2 3 63) = false ∧ bad (i32 0x27 2 3 0) = true
    ∧ bad (word [(8, 0x20), (8, 2), (8, 3), (1, 0), (3, 1), (32, 0), (4, 0)]) = true := by decide +kernel

theorem test_ill_formed_control :
    bad (bw 0x30 8 0 1 2 0) = true ∧ bad (bw 0x30 6 0 1 2 0) = true ∧ bad (bw 0x31 1 0 0 0 0) = true ∧ bad (bw 0x31 0 0 1 0 0) = true
    ∧ bad (a3 0x33 0 5 0 0 0 1 0) = true ∧ bad (a3 0x33 0 5 0 0 0 2 0) = false
    ∧ bad (word [(8, 0x36), (8, 5), (1, 0), (6, 0), (4, 1), (33, 0), (4, 0)]) = true
    ∧ bad (word [(8, 0x36), (8, 5), (1, 0), (6, 1), (4, 0), (33, 0), (4, 0)]) = true
    ∧ bad (word [(8, 0x36), (8, 5), (1, 0), (6, 1), (4, 1), (33, 1), (4, 0)]) = true
    ∧ bad (word [(8, 0x36), (8, 5), (1, 0), (6, 1), (4, 1), (33, 0), (4, 0)]) = false
    ∧ bad (sw 0xE0 0 0 0 0x0C) = true ∧ bad (sw 0xE0 0 0 0 0x3E) = false ∧ bad (sw 0xE8 5 0 0x00D 0) = true ∧ bad (sw 0xE4 0 0 1 0) = true := by
  decide +kernel

theorem test_ill_formed_memory :
    bad (mw 0x40 9 2 2 3 0 0 0) = true ∧ bad (mw 0x40 9 2 2 2 0 0 0) = true ∧ bad (mw 0x40 9 2 3 2 0 0 0) = true ∧ bad (mw 0x40 8 2 3 2 0 0 0) = false
    ∧ bad (mw 0x40 9 2 2 0 2 3 0) = true ∧ bad (mw 0x42 9 2 2 0 1 3 0) = true ∧ bad (mw 0x40 9 2 2 0 1 12 0) = true
    ∧ bad (mw 0x44 0x41 2 3 0 0 0 0) = true ∧ bad (mw 0x49 4 2 1 0 0 0 0) = true ∧ bad (mw 0x51 4 2 3 0 0 0 0) = true
    ∧ bad (mw 0x50 5 2 2 0 0 0 0) = true ∧ bad (mw 0x50 4 2 2 0 0 0 0) = false ∧ bad (sw 0x56 0 0 256 0) = true ∧ bad (sw 0x56 0 0 255 65535) = false
    ∧ bad (sw 0x5D 0 3 2 0) = true ∧ bad (sw 0x5B 0 0 0x80 0) = true ∧ bad (sw 0x53 0 0 12 0) = true := by decide +kernel

theorem test_ill_formed_vector :
    bad (a3 0x60 0x61 0x42 0x43 0 0 3 0) = true ∧ bad (a3 0x60 0x41 0x42 0x43 0 0 4 0) = true ∧ bad (a3 0x60 0x41 0x42 0x43 0 0 8 0) = true
    ∧ bad (a3 0x78 0x41 0x42 0x43 0 0 3 0) = true ∧ bad (a3 0x60 0x41 0x92 0x43 0 0 3 0) = true
    ∧ bad (word [(8, 0x60), (8, 0x41), (8, 0x82), (1, 1), (8, 0x43), (1, 0), (8, 0), (1, 0), (12, 0), (5, 3), (4, 0)]) = true
    ∧ bad (a3 0xA8 0xC8 0xC2 0xC3 0 0 0 0) = true ∧ bad (a3 0xAC 0xC1 0xC2 0 0 0 5 0) = true
    ∧ bad (sw 0xA1 0x42 0x49 0x1A 0) = true ∧ bad (sw 0xA1 0x42 0x48 0x0A 0) = true := by decide +kernel

theorem test_ill_formed_engine :
    bad (ew 0xC1 1 0 0 0 0) = true ∧ bad (ew 0xC0 0 0x41 0 0 0) = true ∧ bad (ew 0xC7 0x41 0 0 0 0) = true
    ∧ bad (sw 0xCD 0x43 5 0 0) = true ∧ bad (a3 0xDB 63 0x42 0 0 0 0 0) = true := by decide +kernel

theorem test_ill_formed_bank :
    badBank (bankw 0x01 1 0 0) = false ∧ badBank (bankw 0x01 1 1 0) = true ∧ badBank (bankw 0x02 0 0 0x10) = true ∧ badBank (bankw 0x02 0 0 0x81) = true
    ∧ badBank (bankw 0x03 0 0 1) = true ∧ badBank (bankw 0x12 1 0 3) = true ∧ badBank (bankw 0x12 1 1 1) = true ∧ badBank (bankw 0x18 1 1 0) = true
    ∧ badBank (bankw 0x07 0 0 0) = false ∧ badBank (bankw 0x0B 0 4096 0) = true := by decide +kernel

theorem test_ill_formed_event :
    Instr.wellFormed (.bindContext 64) = false ∧ Instr.wellFormed (.clearKey 16) = false ∧ Instr.wellFormed (.qcfgWrite 1024 .whole 0) = false
    ∧ Instr.wellFormed (.semAssignWrite 256 .whole 0) = false ∧ Instr.wellFormed (.illegalOpcode 0x0100000000000000) = false
    ∧ Instr.wellFormed (.illegalWord 0x010000000000) = false := by decide +kernel

/-! ### Every constructor with a word: its opcode of Tables 12.6 and 17.2, its fields laid out by Tables 12.1 and 17.1 -/

theorem test_decode_a3_1 : ((
    [(0x01, .add), (0x02, .sub), (0x03, .mul), (0x04, .mulhi), (0x05, .mulhs), (0x06, .div), (0x07, .divs), (0x08, .rem),
     (0x09, .rems), (0x0A, .and), (0x0B, .or), (0x0C, .xor), (0x0D, .shl), (0x0E, .shr), (0x0F, .sra), (0x10, .rot),
     (0x11, .clz), (0x12, .ctz), (0x13, .popc), (0x14, .bext), (0x15, .bins), (0x16, .min), (0x17, .max), (0x18, .mins),
     (0x19, .maxs), (0x1A, .cmp), (0x1B, .sel), (0x33, .jr), (0x34, .callr), (0x35, .ret), (0x46, .vlds), (0x47, .vgath),
     (0x48, .vscat), (0x60, .vadd), (0x61, .vsub), (0x62, .vmul), (0x63, .vmad), (0x64, .vmin), (0x65, .vmax), (0x66, .vand)] : List (Nat × (A3 → Instr))).all
    fun x => decodeCore (word [(8, x.1), (8, 0x41), (8, 0x02), (1, 1), (8, 0x43), (1, 0), (8, 0x84), (1, 1), (12, 0x503), (5, 0x0A), (4, 0xB)]) == x.2 ⟨0x41, 0x02, true, 0x43, false, 0x84, true, 0x503, 0x0A, 0xB⟩) = true := by
  decide +kernel
theorem test_decode_a3_2 : ((
    [(0x67, .vor), (0x68, .vxor), (0x69, .vshl), (0x6A, .vshr), (0x6B, .vsra), (0x6C, .vcmp), (0x6D, .vsel), (0x6E, .vabs),
     (0x6F, .vpopc), (0x70, .vclz), (0x78, .vfadd), (0x79, .vfsub), (0x7A, .vfmul), (0x7B, .vfma), (0x7C, .vfmin),
     (0x7D, .vfmax), (0x7E, .vfcmp), (0x7F, .vfabs), (0x80, .vfneg), (0x81, .vexp2), (0x82, .vlog2), (0x83, .vrcp),
     (0x84, .vrsq), (0x85, .vsqrt), (0x86, .veadd), (0x88, .vmov), (0x89, .vbcast), (0x8A, .vext), (0x8B, .vins),
     (0x8C, .vperm), (0x8D, .vcomp), (0x8E, .viota), (0xA8, .kand), (0xA9, .kor), (0xAA, .kxor), (0xAB, .knot), (0xAD, .kpop),
     (0xAE, .kff), (0xB0, .vrsum), (0xB1, .vrmax)] : List (Nat × (A3 → Instr))).all
    fun x => decodeCore (word [(8, x.1), (8, 0x41), (8, 0x02), (1, 1), (8, 0x43), (1, 0), (8, 0x84), (1, 1), (12, 0x503), (5, 0x0A), (4, 0xB)]) == x.2 ⟨0x41, 0x02, true, 0x43, false, 0x84, true, 0x503, 0x0A, 0xB⟩) = true := by
  decide +kernel
theorem test_decode_a3_3 : ((
    [(0xB2, .vrmin), (0xB3, .vrfsum), (0xB4, .vrfmax), (0xB5, .vramax), (0xB6, .vrarg), (0xC9, .mwaitd), (0xD4, .bstat),
     (0xDB, .pxlook), (0xDC, .pxins), (0xDD, .pxpub), (0xDE, .pxrel), (0xEB, .spawn)] : List (Nat × (A3 → Instr))).all
    fun x => decodeCore (word [(8, x.1), (8, 0x41), (8, 0x02), (1, 1), (8, 0x43), (1, 0), (8, 0x84), (1, 1), (12, 0x503), (5, 0x0A), (4, 0xB)]) == x.2 ⟨0x41, 0x02, true, 0x43, false, 0x84, true, 0x503, 0x0A, 0xB⟩) = true := by
  decide +kernel
theorem test_decode_i32 : ((
    [(0x20, .addi), (0x21, .andi), (0x22, .ori), (0x23, .xori), (0x24, .shli), (0x25, .shri), (0x26, .srai), (0x27, .ldi),
     (0x28, .ldih), (0x29, .lea)] : List (Nat × (I32 → Instr))).all
    fun x => decodeCore (word [(8, x.1), (8, 5), (8, 6), (1, 1), (3, 5), (32, 0x89ABCDEF), (4, 7)]) == x.2 ⟨5, 6, true, 5, 0x89ABCDEF, 7⟩) = true := by
  decide +kernel
theorem test_decode_brf : ((
    [(0x30, .br), (0x31, .j), (0x32, .call)] : List (Nat × (BrF → Instr))).all
    fun x => decodeCore (word [(8, x.1), (4, 5), (2, 2), (8, 7), (1, 1), (8, 8), (1, 0), (28, 0x9ABCDEF), (4, 3)]) == x.2 ⟨5, 2, 7, true, 8, false, 0x9ABCDEF, 3⟩) = true := by
  decide +kernel
theorem test_decode_loopf : ((
    [(0x36, .loopm)] : List (Nat × (LoopF → Instr))).all
    fun x => decodeCore (word [(8, x.1), (8, 5), (1, 1), (6, 0x2A), (4, 9), (33, 0x1ABCDEF01), (4, 7)]) == x.2 ⟨5, true, 0x2A, 9, 0x1ABCDEF01, 7⟩) = true := by
  decide +kernel
theorem test_decode_memf : ((
    [(0x40, .ld), (0x41, .ldx), (0x42, .st), (0x43, .pref), (0x44, .vld), (0x45, .vst), (0x49, .aadd), (0x4A, .amin),
     (0x4B, .amax), (0x4C, .aand), (0x4D, .aor), (0x4E, .axor), (0x4F, .axchg), (0x50, .acas), (0x51, .afadd), (0x52, .afamax)] : List (Nat × (MemF → Instr))).all
    fun x => decodeCore (word [(8, x.1), (8, 5), (8, 6), (1, 1), (2, 2), (2, 1), (2, 3), (4, 9), (25, 0x1ABCDEF), (4, 7)]) == x.2 ⟨5, 6, true, 2, 1, 3, 9, 0x1ABCDEF, 7⟩) = true := by
  decide +kernel
theorem test_decode_sysf : ((
    [(0x53, .fence), (0x54, .xfence), (0x55, .mark), (0x56, .semw), (0x57, .sems), (0x58, .semi), (0x59, .semr), (0x5A, .pbar),
     (0x5B, .acqs), (0x5C, .rels), (0x5E, .ffrt), (0xA0, .vcvt), (0xA2, .vdqnt), (0xA3, .vscl), (0xCA, .mfeed), (0xCB, .mdack),
     (0xCD, .strb), (0xCE, .stru), (0xCF, .strq), (0xD0, .strs), (0xD2, .tmpli), (0xD7, .expf), (0xD8, .expq), (0xE0, .trap),
     (0xE1, .reti), (0xE2, .halt), (0xE3, .cont), (0xE4, .nop), (0xE5, .bkpt), (0xE6, .yield), (0xE7, .ckpt), (0xE8, .mfc),
     (0xE9, .mtc), (0xEA, .beat), (0xEC, .join)] : List (Nat × (SysF → Instr))).all
    fun x => decodeCore (word [(8, x.1), (8, 5), (8, 6), (1, 1), (12, 0x2BC), (23, 0x5ABCDE), (4, 7)]) == x.2 ⟨5, 6, true, 0x2BC, 0x5ABCDE, 7⟩) = true := by
  decide +kernel
theorem test_decode_engf : ((
    [(0xC0, .mlds), (0xC1, .mswap), (0xC2, .mstrm), (0xC3, .mdrn), (0xC4, .mzero), (0xC5, .meadd), (0xC6, .mscl),
     (0xC7, .mstat), (0xC8, .mlunge), (0xCC, .mstop), (0xD1, .bteg), (0xD3, .bcall), (0xD5, .kvho), (0xD6, .btinv),
     (0xD9, .lxjob)] : List (Nat × (EngF → Instr))).all
    fun x => decodeCore (word [(8, x.1), (8, 5), (8, 6), (1, 1), (8, 0xAB), (8, 0xCD), (6, 0x2A), (12, 0x9EF), (1, 1), (4, 7)]) == x.2 ⟨5, 6, true, 0xAB, 0xCD, 0x2A, 0x9EF, true, 7⟩) = true := by
  decide +kernel
theorem test_decode_bankf : ((
    [(0x01, .nopw), (0x03, .loopw), (0x04, .endw), (0x05, .jmpw), (0x06, .haltw), (0x08, .semww), (0x09, .semsw),
     (0x0A, .markw), (0x0B, .resw), (0x10, .bcast), (0x11, .accz), (0x13, .axpy), (0x14, .cvt), (0x15, .drn), (0x19, .rdw),
     (0x1A, .wrw)] : List (Nat × (BankF → Instr))).all
    fun x => decodeBank (word [(8, x.1), (16, 0xABCD), (16, 0x1234), (8, 0x05)]) == x.2 ⟨0xABCD, 0x1234, 0x05⟩) = true := by
  decide +kernel

/-! ### Single steps of a core: scalar and control (R247-R268) -/

/-- R248: sums and products wrap modulo 2^64. -/
theorem test_add_wraps : sAfter 3 (a3 1 3 1 2 0 0 0 0) (sregs [(1, 0xFFFFFFFFFFFFFFFF), (2, 2)]) = some 1 := by decide +kernel
theorem test_sub_borrows : sAfter 1 (a3 2 1 1 2 0 0 0 0) (sregs [(1, 1), (2, 2)]) = some 0xFFFFFFFFFFFFFFFF := by decide +kernel
theorem test_products :
    sAfter 3 (a3 3 3 1 2 0 0 0 0) (sregs [(1, 0xFFFFFFFFFFFFFFFF), (2, 3)]) = some 0xFFFFFFFFFFFFFFFD
    ∧ sAfter 3 (a3 4 3 1 2 0 0 0 0) (sregs [(1, 0xFFFFFFFFFFFFFFFF), (2, 0xFFFFFFFFFFFFFFFF)]) = some 0xFFFFFFFFFFFFFFFE
    ∧ sAfter 3 (a3 5 3 1 2 0 0 0 0) (sregs [(1, 0xFFFFFFFFFFFFFFFF), (2, 1)]) = some 0xFFFFFFFFFFFFFFFF := by decide +kernel
/-- R249: division by zero, and the quotient that does not fit. -/
theorem test_divisions :
    sAfter 4 0x0704050300000000 (sregs [(5, 0x8000000000000000), (6, 0xFFFFFFFFFFFFFFFF)]) = some 0x8000000000000000
    ∧ sAfter 4 (a3 6 4 5 6 0 0 0 0) (sregs [(5, 9), (6, 0)]) = some 0xFFFFFFFFFFFFFFFF
    ∧ sAfter 4 (a3 8 4 5 6 0 0 0 0) (sregs [(5, 9), (6, 4)]) = some 1
    ∧ sAfter 4 (a3 9 4 5 6 0 0 0 0) (sregs [(5, 0xFFFFFFFFFFFFFFF9), (6, 2)]) = some 0xFFFFFFFFFFFFFFFF := by decide +kernel
theorem test_bitwise :
    sAfter 3 (a3 0x0A 3 1 2 0 0 0 0) (sregs [(1, 12), (2, 10)]) = some 8 ∧ sAfter 3 (a3 0x0B 3 1 2 0 0 0 0) (sregs [(1, 12), (2, 10)]) = some 14
    ∧ sAfter 3 (a3 0x0C 3 1 2 0 0 0 0) (sregs [(1, 12), (2, 10)]) = some 6 := by decide +kernel
/-- R250: amounts of 64 and more. -/
theorem test_shifts :
    sAfter 3 (a3 0x0D 3 1 2 0 0 0 0) (sregs [(1, 1), (2, 64)]) = some 0 ∧ sAfter 3 (a3 0x0E 3 1 2 0 0 0 0) (sregs [(1, 0x80), (2, 7)]) = some 1
    ∧ sAfter 3 (a3 0x0F 3 1 2 0 0 0 0) (sregs [(1, 0x8000000000000000), (2, 70)]) = some 0xFFFFFFFFFFFFFFFF
    ∧ sAfter 3 (a3 0x10 3 1 2 0 0 0 0) (sregs [(1, 1), (2, 68)]) = some 16 := by decide +kernel
theorem test_counts :
    sAfter 3 (a3 0x11 3 1 0 0 0 0 0) (sregs [(1, 1)]) = some 63 ∧ sAfter 3 (a3 0x12 3 1 0 0 0 0 0) = some 64
    ∧ sAfter 3 (a3 0x13 3 1 0 0 0 0 0) (sregs [(1, 0xF0F)]) = some 8 := by decide +kernel
/-- The example of R251. -/
theorem test_bit_fields :
    sAfter 4 (a3 0x15 4 5 6 7 0 0 0) (sregs [(5, 0xFFFFFFFFFFFFFFFF), (6, 0x2A), (7, 0x0408)]) = some 0xFFFFFFFFFFFFFAFF
    ∧ sAfter 4 (a3 0x14 4 5 6 0 0 0 0) (sregs [(5, 0xFA00), (6, 0x0408)]) = some 0xA := by decide +kernel
theorem test_min_max :
    sAfter 3 (a3 0x16 3 1 2 0 0 0 0) (sregs [(1, 0xFFFFFFFFFFFFFFFF), (2, 1)]) = some 1
    ∧ sAfter 3 (a3 0x17 3 1 2 0 0 0 0) (sregs [(1, 0xFFFFFFFFFFFFFFFF), (2, 1)]) = some 0xFFFFFFFFFFFFFFFF
    ∧ sAfter 3 (a3 0x18 3 1 2 0 0 0 0) (sregs [(1, 0xFFFFFFFFFFFFFFFF), (2, 1)]) = some 0xFFFFFFFFFFFFFFFF
    ∧ sAfter 3 (a3 0x19 3 1 2 0 0 0 0) (sregs [(1, 0xFFFFFFFFFFFFFFFF), (2, 1)]) = some 1 := by decide +kernel
theorem test_cmp_sel :
    sAfter 2 0x1A02030200000020 (sregs [(3, 0xFFFFFFFFFFFFFFFF), (4, 0)]) = some 1
    ∧ sAfter 2 (a3 0x1A 2 3 4 0 0 4 0) (sregs [(3, 0xFFFFFFFFFFFFFFFF), (4, 0)]) = some 0
    ∧ sAfter 2 (a3 0x1B 2 3 4 5 0 0 0) (sregs [(3, 0), (4, 7), (5, 8)]) = some 8 := by decide +kernel
/-- The examples of R252. -/
theorem test_immediates :
    sAfter 1 (i32 0x27 1 0 0x80000000) = some 0xFFFFFFFF80000000 ∧ sAfter 1 (i32 0x28 1 1 0x12345678) (sregs [(1, 0xFFFFFFFF9ABCDEF0)]) = some 0x123456789ABCDEF0
    ∧ sAfter 1 (i32 0x21 1 1 0xFFFFFFFF) (sregs [(1, 0x123456789)]) = some 0x123456789 ∧ sAfter 4 0x2004040FFFFFFFF0 (sregs [(4, 1)]) = some 0
    ∧ sAfter 1 (i32 0x29 1 0 0xFFFFFFF8) = some 0xFF8 ∧ sAfter 1 (i32 0x26 1 1 63) (sregs [(1, 0x8000000000000000)]) = some 0xFFFFFFFFFFFFFFFF := by
  decide +kernel
theorem test_immediates_more :
    sAfter 1 (i32 0x22 1 1 0xFFFFFFFF) = some 0xFFFFFFFFFFFFFFFF ∧ sAfter 1 (i32 0x23 1 1 1) (sregs [(1, 3)]) = some 2
    ∧ sAfter 1 (i32 0x24 1 1 63) (sregs [(1, 3)]) = some 0x8000000000000000 ∧ sAfter 1 (i32 0x25 1 1 63) (sregs [(1, 0x8000000000000000)]) = some 1 := by
  decide +kernel
/-- R160: s0 reads zero after a write to it. -/
theorem test_s0 : sAfter 0 (i32 0x27 0 0 5) = some 0 := by decide +kernel
/-- R166: the e-mark on an empty register traps with REG_EMPTY; R238: a reserved field traps with RESERVED_FIELD. -/
theorem test_traps_at_issue :
    (after 0x01030402C0000000 fun c => { (sregs [] c).setFull 5 false with tvec := 0x4000 }).map (fun c => (c.cause, c.f0)) = some (3, 0x4000)
    ∧ (after (a3 1 2 3 4 0 0 1 0) fun c => { c with tvec := 0x4003, status := 4 }).map (fun c => (c.cause, c.f0, c.epc, c.status))
        = some (2, 0x4000, 0x1000, 9) := by decide +kernel
/-- R168: after a taken branch with .at both delay slots are annulled, and the target stands third. -/
theorem test_branch :
    (after 0x30281C1000000040 (sregs [(7, 0), (8, 1)])).map (fun c => (c.f0, c.f1, c.f2, c.a0, c.a1)) = some (0x1008, 0x1010, 0x1020, true, true)
    ∧ (after 0x30281C1000000040 (sregs [(7, 1), (8, 1)])).map (fun c => (c.f0, c.f1, c.f2, c.a0, c.a1)) = some (0x1008, 0x1010, 0x1018, false, false) := by
  decide +kernel
theorem test_jumps :
    (after (bw 0x31 0 0 0 0 0xFFFFFFF)).map (·.f2) = some 0xFF8 ∧ sAfter 63 (bw 0x32 0 0 0 0 2) = some 0x1018
    ∧ (after (a3 0x33 0 5 0 0 0 0 0) (sregs [(5, 0x2000)])).map (·.f2) = some 0x2000
    ∧ sAfter 63 (a3 0x34 0 5 0 0 0 0 0) (sregs [(5, 0x2000)]) = some 0x1018
    ∧ (after (a3 0x35 0 0 0 0 0 0 0) (sregs [(63, 0x3000)])).map (·.f2) = some 0x3000
    ∧ (after (a3 0x33 0 5 0 0 0 0 0) fun c => { sregs [(5, 0x2004)] c with tvec := 0x4000 }).map (fun c => (c.cause, c.faultva)) = some (4, 0x2004) := by
  decide +kernel
/-- R256: LOOPM with 3 trips of 2 words in 2 stages, and with 0 trips. -/
theorem test_loopm :
    (after 0x3605028000000000).map (·.f0) = some 0x1028
    ∧ ((after (word [(8, 0x36), (8, 5), (1, 0), (6, 2), (4, 2), (33, 0), (4, 0)]) (sregs [(5, 3)])).bind (·.loop))
        = some { k := 0, m := 0, trips := 3, ii := 2, sc := 2, base := 0x1008 } := by decide +kernel
/-- R175, R178: TRAP 9 saves the triple; RETI restores it. -/
theorem test_trap_reti :
    (after 0xE000000000000090 fun c => { c with tvec := 0x4000 }).map (fun c => (c.epc, c.epc1, c.cause, c.tm)) = some (0x1000, 0x1008, 9, true)
    ∧ (after (sw 0xE1 0 0 0 0) fun c => { c with status := 9, epc := 0x2000, epc1 := 0x2008, epc2 := 0x2010, brpend := 1 }).map
        (fun c => (c.f0, c.a0, c.a1, c.tm, c.status)) = some (0x2000, true, false, false, 4) := by decide +kernel
theorem test_system :
    (after (sw 0xE5 0 0 0 0) fun c => { c with tvec := 0x4000 }).map (·.cause) = some 0x3E
    ∧ (after 0xE400000000000000).map (fun c => (c.f0, c.slot)) = some (0x1008, 1)
    ∧ sAfter 5 (sw 0xE8 5 0 0x023 0) = some 0 ∧ sAfter 5 (sw 0xE8 5 0 0x007 0) (fun c => { c with tvec := 0x4000 }) = some 0x4000
    ∧ (after (sw 0xE9 0 7 8 0) (sregs [(7, 5)])).map (·.tscratch) = some 5
    ∧ (after (sw 0xE9 0 7 0x20 0) fun c => { sregs [(7, 5)] c with tagmap := 7, tagOld := 7 }).map (·.tagmap) = some 2
    ∧ sAfter 5 (sw 0xEA 5 0 0 0) = some 0 := by decide +kernel
/-- R262, R264: HALT frees the core; YIELD goes on when nothing precedes; CKPT records the table. -/
theorem test_ends :
    (after 0xE200000000000000).map (·.running) = some false ∧ (after (sw 0xE6 0 5 0 0)).map (·.f0) = some 0x1008
    ∧ (after 0xE700050000000800 (sregs [(5, 0x3000)])).map (·.ckpttab) = some 0x3080 := by decide +kernel
/-- The example of R163 to R165: class 4 needs 4 beats; declared as 6 its result is held back to slot 16, declared as 3 a reader in
slot 13 stalls one beat. -/
theorem test_declared_latency :
    let op := fun (l : Nat) (c : Core) => { c with slot := 10, lattab := BitVec.ofNat 64 (l * 2 ^ 16) }.start 0x90 0x43 2 10 0 { writes := [.v 3 1 1], cls := 4 }
    let at_ := fun (l n : Nat) => (List.range n).foldl (fun c k => c.spend (10 + k)) (op l {})
    (at_ 6 5).getV 3 = 0 ∧ (at_ 6 5).awaits 0x43 = false ∧ (at_ 6 6).getV 3 = 1
    ∧ (at_ 3 2).awaits 0x43 = false ∧ (at_ 3 3).awaits 0x43 = true ∧ ((at_ 3 3).landLate 14).getV 3 = 1
    ∧ ((at_ 3 3).landLate 14).awaits 0x43 = false := by decide +kernel

/-! ### Single steps of a core: memory, vectors, synchronisation (R269-R305) -/

/-- R292: ld.w zero-extends, ldx.w sign-extends; the offset is signed. -/
theorem test_loads :
    sMem 9 0 (mw 0x40 9 2 2 0 0 0 0x1FFFFF8) [0x80, 1, 2, 0x83] (sregs [(2, 0x3008)]) = some (0x83020180, [])
    ∧ sMem 9 0 (mw 0x41 9 2 2 0 0 0 0) [0x80, 1, 2, 0x83] (sregs [(2, 0x3000)]) = some (0xFFFFFFFF83020180, []) := by decide +kernel
/-- R292: st.h writes two bytes and no other. -/
theorem test_store :
    sMem 0 4 (mw 0x42 5 2 1 0 0 0 1) [1, 2, 3, 4] (sregs [(2, 0x3000), (5, 0xAABBCC)]) = some (0, [1, 0xCC, 0xBB, 4]) := by decide +kernel
/-- R97: an access to an address that is not mapped traps with TRANSLATION on its lowest byte. -/
theorem test_translation_fault :
    ((ran (mw 0x40 9 2 2 0 0 0 0) (walked [] fun c => { sregs [(2, 0x40000000)] c with tvec := 0x4000 })).map
      fun t => (t.core.cause, t.core.faultva, t.core.epc)) = some (5, 0x40000000, 0x1000) := by decide +kernel
/-- R295: the old value is returned, the new one stored. -/
theorem test_atomics :
    sMem 4 8 (mw 0x49 4 2 3 0 0 0 0) [0xFF] (sregs [(2, 0x3000), (4, 2)]) = some (0xFF, [1, 1, 0, 0, 0, 0, 0, 0])
    ∧ sMem 4 4 (mw 0x4A 4 2 2 0 0 0 0) [5] (sregs [(2, 0x3000), (4, 0xFFFFFFFF)]) = some (5, [0xFF, 0xFF, 0xFF, 0xFF])
    ∧ sMem 4 4 (mw 0x4B 4 2 2 0 0 0 0) [5] (sregs [(2, 0x3000), (4, 0xFFFFFFFF)]) = some (5, [5, 0, 0, 0])
    ∧ sMem 4 4 (mw 0x50 4 2 2 0 0 0 0) [5] (sregs [(2, 0x3000), (4, 5), (5, 9)]) = some (5, [9, 0, 0, 0])
    ∧ sMem 4 4 (mw 0x4F 4 2 2 0 0 0 0) [5] (sregs [(2, 0x3000), (4, 7)]) = some (5, [7, 0, 0, 0]) := by decide +kernel
theorem test_atomics_more :
    sMem 4 1 (mw 0x4C 4 2 2 0 0 0 0) [12] (sregs [(2, 0x3000), (4, 10)]) = some (12, [8])
    ∧ sMem 4 1 (mw 0x4D 4 2 2 0 0 0 0) [12] (sregs [(2, 0x3000), (4, 10)]) = some (12, [14])
    ∧ sMem 4 1 (mw 0x4E 4 2 2 0 0 0 0) [12] (sregs [(2, 0x3000), (4, 10)]) = some (12, [6])
    ∧ sMem 4 4 (mw 0x51 4 2 2 0 0 0 0) [0, 0, 0x80, 0x3F] (sregs [(2, 0x3000), (4, 0x3F800000)]) = some (0x3F800000, [0, 0, 0, 0x40])
    ∧ sMem 4 4 (mw 0x52 4 2 2 0 0 0 0) [0, 0, 0x80, 0x3F] (sregs [(2, 0x3000), (4, 0xC0000000)]) = some (0x3F800000, [0, 0, 0, 0x40]) := by
  decide +kernel
/-- R293, R233: only the active lanes are loaded and stored. -/
theorem test_vector_memory :
    ((ran (word [(8, 0x44), (8, 0x41), (8, 2), (1, 0), (2, 2), (2, 0), (2, 0), (4, 0), (25, 0), (4, 1)])
        (mapped [1, 2, 3, 4, 5, 6, 7, 8] fun c => (sregs [(2, 0x3000)] (vregs [(1, 0x9999999988888888)] c)).putK 1 (BitVec.allOnes 128) 0x10)).map
      fun t => (settled t.core).getV 1) = some 0x0807060588888888
    ∧ ((ran (word [(8, 0x45), (8, 0x41), (8, 2), (1, 0), (2, 2), (2, 0), (2, 0), (4, 0), (25, 0), (4, 1)])
        (mapped [1, 2, 3, 4, 5, 6, 7, 8] fun c => (sregs [(2, 0x3000)] (vregs [(1, 0x9999999988888888)] c)).putK 1 (BitVec.allOnes 128) 0x10)).map
      fun t => t.readBytes 0x3000 8) = some [1, 2, 3, 4, 0x99, 0x99, 0x99, 0x99] := by decide +kernel
theorem test_gather_scatter :
    ((ran (a3 0x47 0x41 2 0x43 0 0 3 1)
        (mapped [1, 2, 3, 4, 5, 6, 7, 8] fun c => (sregs [(2, 0x3000)] (vregs [(3, 1)] c)).putK 1 (BitVec.allOnes 128) 1)).map
      fun t => (settled t.core).getV 1) = some 0x08070605
    ∧ ((ran (a3 0x46 0x41 2 3 0 0 3 1)
        (mapped [1, 2, 3, 4, 5, 6, 7, 8] fun c => (sregs [(2, 0x3000), (3, 4)] c).putK 1 (BitVec.allOnes 128) 0x10)).map
      fun t => (settled t.core).getV 1) = some 0x0807060500000000
    ∧ ((ran (a3 0x48 0x41 2 0x43 0 0 3 1)
        (mapped [1, 2, 3, 4, 5, 6, 7, 8] fun c => (sregs [(2, 0x3000)] (vregs [(1, 0xAABBCCDD), (3, 1)] c)).putK 1 (BitVec.allOnes 128) 1)).map
      fun t => t.readBytes 0x3000 8) = some [1, 2, 3, 4, 0xDD, 0xCC, 0xBB, 0xAA] := by decide +kernel
/-- R101, R107: a store waits in the write queue, and a fence at memory scope brings it into the arrays. -/
theorem test_fence :
    ((ran (mw 0x42 5 2 0 0 0 0 0) (mapped [1] (sregs [(2, 0x3000), (5, 7)]))).map fun t => (t.readByte 0x3000, t.arrayByte 0x3000)) = some (7, 1)
    ∧ ((ran (sw 0x53 0 0 6 0) { mapped [1] with wq := [(0x3000, 7)] }).map fun t => (t.readByte 0x3000, t.arrayByte 0x3000)) = some (7, 7) := by
  decide +kernel

/-- R273: lanes of 8, 16 and 32 bits; a shift by the lane width or more. -/
theorem test_vector_integers :
    vAfter 1 (a3 0x60 0x41 0x42 0x43 0 0 1 0) (vregs [(2, 0x01FF), (3, 0x0101)]) = some 0x0200
    ∧ vAfter 1 (a3 0x61 0x41 0x42 0x43 0 0 2 0) (vregs [(2, 0x10000), (3, 0x1)]) = some 0x1FFFF
    ∧ vAfter 1 (a3 0x62 0x41 0x42 0x43 0 0 3 0) (vregs [(2, 0x10001), (3, 0x10000)]) = some 0x10000
    ∧ vAfter 1 (a3 0x63 0x41 0x42 0x43 0x44 0 3 0) (vregs [(2, 3), (3, 4), (4, 5)]) = some 17
    ∧ vAfter 1 (a3 0x64 0x41 0x42 0x43 0 0 1 0) (vregs [(2, 0xFF), (3, 1)]) = some 0xFF
    ∧ vAfter 1 (a3 0x65 0x41 0x42 0x43 0 0 1 0) (vregs [(2, 0xFF), (3, 1)]) = some 1
    ∧ vAfter 1 (a3 0x69 0x41 0x42 0x43 0 0 1 0) (vregs [(2, 0xFF), (3, 8)]) = some 0
    ∧ vAfter 1 (a3 0x6B 0x41 0x42 0x43 0 0 1 0) (vregs [(2, 0x80), (3, 9)]) = some 0xFF := by decide +kernel
theorem test_vector_bits :
    vAfter 1 (a3 0x66 0x41 0x42 0x43 0 0 3 0) (vregs [(2, 12), (3, 10)]) = some 8 ∧ vAfter 1 (a3 0x67 0x41 0x42 0x43 0 0 3 0) (vregs [(2, 12), (3, 10)]) = some 14
    ∧ vAfter 1 (a3 0x68 0x41 0x42 0x43 0 0 3 0) (vregs [(2, 12), (3, 10)]) = some 6 ∧ vAfter 1 (a3 0x6A 0x41 0x42 0x43 0 0 1 0) (vregs [(2, 0x80), (3, 7)]) = some 1
    ∧ vAfter 1 (a3 0x6E 0x41 0x42 0 0 0 1 0) (vregs [(2, 0x80FF)]) = some 0x8001
    ∧ ((vAfter 1 (a3 0x6F 0x41 0x42 0 0 0 2 0) (vregs [(2, 0xF0F)])).map fun v => v.extractLsb' 0 16) = some 8
    ∧ ((vAfter 1 (a3 0x70 0x41 0x42 0 0 0 2 0) (vregs [(2, 1)])).map fun v => v.extractLsb' 0 32) = some 0x0010000F := by decide +kernel
/-- R231: vadd.w with .rot(16,3): lane 13 of the source is lane 0, lane 17 is lane 20 (the example after Table 12.12). -/
theorem test_rotated_source :
    ((vAfter 1 (a3 0x60 0x41 0x44 0x45 0 0x503 3 0) (vregs [(4, 0xAA + 0xBB * 2 ^ 640)])).map fun v => (v.extractLsb' 416 32, v.extractLsb' 544 32))
      = some (0xAA, 0xBB) := by decide +kernel
/-- R233: a negated predicate leaves the lanes whose bit is 1. -/
theorem test_predicated_lanes :
    ((vAfter 1 (a3 0x60 0x41 0x44 0x45 0 0 3 0xB) fun c => (vregs [(1, 0x99), (4, 2 ^ 32 + 1)] c).putK 3 (BitVec.allOnes 128) 1).map
      fun v => v.extractLsb' 0 64) = some 0x100000099 := by decide +kernel
/-- R274, R277: compares into masks. -/
theorem test_compares :
    kAfter 1 0x6CC1442280000120 (vregs [(4, 0xFFFFFFFF), (5, 0)]) = some 0xF
    ∧ kAfter 1 (a3 0x7E 0xC1 0x44 0 0 0 6 0) (vregs [(4, 0x3F80000080000000)]) = some 0xFFFFFFFFFFFFFFFFFFFFFFFFFFFFFF0F := by decide +kernel
/-- R280, R281: movement. -/
theorem test_moves :
    vAfter 1 (a3 0x88 0x41 0x42 0 0 0 3 0) (vregs [(2, 5)]) = some 5
    ∧ ((vAfter 1 (a3 0x89 0x41 2 0 0 0 1 0) (sregs [(2, 0x1AB)])).map fun v => v.extractLsb' 1008 16) = some 0xABAB
    ∧ sAfter 3 (a3 0x8A 3 0x42 4 0 0 1 0) (fun c => sregs [(4, 129)] (vregs [(2, 0x8102)] c)) = some 0x81
    ∧ vAfter 1 (a3 0x8B 0x41 4 5 0 0 1 0) (sregs [(4, 0x1AB), (5, 1)]) = some 0xAB00
    ∧ ((vAfter 1 (a3 0x8C 0x41 0x42 0x43 0 0 1 0) (vregs [(2, 0x0201), (3, 0x8100)])).map fun v => v.extractLsb' 0 16) = some 0x0201
    ∧ vAfter 1 (a3 0x8D 0x41 0x42 0 0 0 1 1) (fun c => (vregs [(1, 0x77), (2, 0x030201)] c).putK 1 (BitVec.allOnes 128) 5) = some 0x0301
    ∧ ((vAfter 1 (a3 0x8E 0x41 4 0 0 0 1 0) (sregs [(4, 0xFF)])).map fun v => v.extractLsb' 0 24) = some 0x0100FF
    ∧ vAfter 1 (a3 0x6D 0x41 0xC2 0x43 0x44 0 1 0) (fun c => (vregs [(3, 0x1111), (4, 0x2222)] c).putK 2 (BitVec.allOnes 128) 1) = some 0x2211 := by
  decide +kernel
/-- R290: mask instructions; kmov to one half keeps the other. -/
theorem test_masks :
    kAfter 1 (a3 0xA8 0xC1 0xC2 0xC3 0 0 0 0) (fun c => (c.putK 2 (BitVec.allOnes 128) 12).putK 3 (BitVec.allOnes 128) 10) = some 8
    ∧ kAfter 1 (a3 0xA9 0xC1 0xC2 0xC3 0 0 0 0) (fun c => (c.putK 2 (BitVec.allOnes 128) 12).putK 3 (BitVec.allOnes 128) 10) = some 14
    ∧ kAfter 1 (a3 0xAA 0xC1 0xC2 0xC3 0 0 0 0) (fun c => (c.putK 2 (BitVec.allOnes 128) 12).putK 3 (BitVec.allOnes 128) 10) = some 6
    ∧ kAfter 1 (a3 0xAB 0xC1 0xC0 0 0 0 0 0) = some 0 ∧ kAfter 1 (a3 0xAC 0xC1 0xC2 0 0 0 0 0) (fun c => c.putK 2 (BitVec.allOnes 128) 12) = some 12
    ∧ kAfter 2 (a3 0xAC 0xC2 9 0 0 0 2 0) (fun c => (sregs [(9, 5)] c).putK 2 (BitVec.allOnes 128) 7) = some 0x50000000000000007
    ∧ kAfter 2 (a3 0xAC 0xC2 9 0 0 0 1 0) (fun c => (sregs [(9, 5)] c).putK 2 (BitVec.allOnes 128) 0x70000000000000000) = some 0x70000000000000005
    ∧ sAfter 4 (a3 0xAC 4 0xC2 0 0 0 4 0) (fun c => c.putK 2 (BitVec.allOnes 128) 0x70000000000000005) = some 7
    ∧ sAfter 4 (a3 0xAC 4 0xC2 0 0 0 3 0) (fun c => c.putK 2 (BitVec.allOnes 128) 0x70000000000000005) = some 5
    ∧ sAfter 4 (a3 0xAD 4 0xC2 0 0 0 3 0) (fun c => c.putK 2 (BitVec.allOnes 128) 0x111) = some 3
    ∧ sAfter 4 (a3 0xAE 4 0xC2 0 0 0 3 0) (fun c => c.putK 2 (BitVec.allOnes 128) 0x110) = some 1
    ∧ sAfter 4 (a3 0xAE 4 0xC2 0 0 0 3 0) (fun c => c.putK 2 (BitVec.allOnes 128) 0) = some 32 := by decide +kernel
/-- R299: a semaphore with units, and one without. -/
theorem test_semaphores :
    ((ran (sw 0x56 0 0 17 2) (withSem 17 { assigned := true, count := 3 })).map fun t => ((t.sem 17).count, t.core.f0)) = some (1, 0x1008)
    ∧ ((ran (sw 0x56 0 0 17 4) (withSem 17 { assigned := true, count := 3 })).map fun t => ((t.sem 17).count, t.core.f0, (t.sem 17).takes.length)) = some (3, 0x1000, 1)
    ∧ ((ran (sw 0x57 0 0 17 1) (withSem 17 { assigned := true, count := 0xFFFF } fun c => { c with tvec := 0x4000 })).map fun t => ((t.sem 17).count, t.core.cause))
        = some (0xFFFF, 8)
    ∧ ((ran (sw 0x58 0 0 17 9) (withSem 17 { assigned := true, count := 3 })).map fun t => (t.sem 17).count) = some 9
    ∧ ((ran (sw 0x59 0 0 17 0) (withSem 17 { assigned := true, count := 3 })).map fun t => (t.sem 17).count) = some 0 := by decide +kernel
/-- R298: a semaphore of another context raises PERMISSION. -/
theorem test_semaphore_owner :
    ((ran (sw 0x57 0 0 17 1) (withSem 17 { assigned := true, ctx := 1 } fun c => { c with tvec := 0x4000 })).map fun t => t.core.cause) = some 6 := by decide +kernel
/-- R301: a stage taken and handed on. -/
theorem test_stages :
    ((ran (sw 0x5B 0 0 (2 + 8) 0) (withStage { full := true, owner := 0, ctx := 0, data := 5 })).map fun t => (t.core.f0, (t.stage 2).full)) = some (0x1008, true)
    ∧ ((ran (sw 0x5B 0 0 (2 + 8) 0) (withStage { full := false, owner := 0, ctx := 0, data := 5 })).map fun t => t.core.f0) = some 0x1000
    ∧ ((ran (sw 0x5C 0 5 (2 + 8 + 16 * 3) 0) (withStage { full := false, owner := 0, ctx := 0, data := 5 } (sregs [(5, 0x123456789)]))).map fun t => t.stage 2)
        = some { full := true, owner := 3, ctx := 0, data := 0x23456789 } := by decide +kernel
/-- R305: tags. -/
theorem test_tags :
    (after (sw 0x5D 0 3 0 0) fun c => { sregs [(3, 6)] c with tagmap := 4 }).map (·.f0) = some 0x1008
    ∧ (after (sw 0x5D 0 3 1 0) fun c => { sregs [(3, 6)] c with tagmap := 4 }).map (·.f0) = some 0x1000
    ∧ sAfter 4 (sw 0x5E 4 3 0 0) (fun c => { sregs [(3, 6)] c with tagmap := 4 }) = some 2
    ∧ sAfter 4 (sw 0x5E 4 3 0 0) (fun c => { sregs [(3, 2)] c with tagmap := 4 }) = some 64 := by decide +kernel

/-! ### Single steps of a core: floating point, reductions, conversions (R275-R289) -/

/-- Lane 0 of v1, of width 32, after one instruction, and STATUS. -/
def lane0 (w : Nat) (f : Core → Core) : Option (BitVec 32 × W64) := (after w f).map fun c => (((settled c).getV 1).extractLsb' 0 32, c.status)

/-- Only lane 0 is active under k1. -/
def first (c : Core) : Core := c.putK 1 (BitVec.allOnes 128) 1

/-- R275, R278: 1 + 1, 1.5 × 1.5 in BF16, 2 × 3 + 1, 1 − 0.5, 1 × 2^3; a NaN gives the canonical NaN. -/
theorem test_floats :
    lane0 (a3 0x78 0x41 0x42 0x43 0 0 8 1) (fun c => first (vregs [(2, 0x3F800000), (3, 0x3F800000)] c)) = some (0x40000000, 0)
    ∧ lane0 (a3 0x7A 0x41 0x42 0x43 0 0 9 1) (fun c => first (vregs [(2, 0x3FC0), (3, 0x3FC0)] c)) = some (0x4010, 0)
    ∧ lane0 (a3 0x7B 0x41 0x42 0x43 0x44 0 8 1) (fun c => first (vregs [(2, 0x40000000), (3, 0x40400000), (4, 0x3F800000)] c)) = some (0x40E00000, 0)
    ∧ lane0 (a3 0x79 0x41 0x42 0x43 0 0 8 1) (fun c => first (vregs [(2, 0x3F800000), (3, 0x3F000000)] c)) = some (0x3F000000, 0)
    ∧ lane0 (a3 0x86 0x41 0x42 4 0 0 8 1) (fun c => first (sregs [(4, 3)] (vregs [(2, 0x3F800000)] c))) = some (0x41000000, 0)
    ∧ lane0 (a3 0x7C 0x41 0x42 0x43 0 0 8 1) (fun c => first (vregs [(2, 0xFF812345), (3, 0x3F800000)] c)) = some (0x7FC00000, 0)
    ∧ lane0 (a3 0x7D 0x41 0x42 0x43 0 0 8 1) (fun c => first (vregs [(2, 0x80000000), (3, 0)] c)) = some (0, 0)
    ∧ lane0 (a3 0x7F 0x41 0x42 0 0 0 8 1) (fun c => first (vregs [(2, 0xBF800000)] c)) = some (0x3F800000, 0)
    ∧ lane0 (a3 0x80 0x41 0x42 0 0 0 8 1) (fun c => first (vregs [(2, 0)] c)) = some (0x80000000, 0) := by decide +kernel
/-- R212: an inexact sum sets INEXACT, and ∞ − ∞ gives NaN and sets INVALID. -/
theorem test_float_flags :
    lane0 (a3 0x78 0x41 0x42 0x43 0 0 8 1) (fun c => first (vregs [(2, 0x4B800000), (3, 0x3F800000)] c)) = some (0x4B800000, 0x2000)
    ∧ lane0 (a3 0x79 0x41 0x42 0x43 0 0 8 1) (fun c => first (vregs [(2, 0x7F800000), (3, 0x7F800000)] c)) = some (0x7FC00000, 0x400) := by decide +kernel
/-- R279: exact values of the functions. -/
theorem test_transcendentals :
    lane0 (a3 0x81 0x41 0x42 0 0 0 8 1) (fun c => first (vregs [(2, 0x40400000)] c)) = some (0x41000000, 0)
    ∧ lane0 (a3 0x82 0x41 0x42 0 0 0 8 1) (fun c => first (vregs [(2, 0x41000000)] c)) = some (0x40400000, 0)
    ∧ lane0 (a3 0x83 0x41 0x42 0 0 0 8 1) (fun c => first (vregs [(2, 0x40000000)] c)) = some (0x3F000000, 0)
    ∧ lane0 (a3 0x84 0x41 0x42 0 0 0 8 1) (fun c => first (vregs [(2, 0x40800000)] c)) = some (0x3F000000, 0)
    ∧ lane0 (a3 0x85 0x41 0x42 0 0 0 8 1) (fun c => first (vregs [(2, 0x41100000)] c)) = some (0x40400000, 0) := by decide +kernel
/-- R282, R284: integer reductions. -/
theorem test_reductions :
    sAfter 3 (a3 0xB0 3 0x46 0 0 0 3 0) (vregs [(6, 0xFFFFFFFE00000001)]) = some 0xFFFFFFFFFFFFFFFF
    ∧ sAfter 3 (a3 0xB1 3 0x46 0 0 0 1 0) (vregs [(6, 0x7F80)]) = some 0x7F ∧ sAfter 3 (a3 0xB2 3 0x46 0 0 0 1 0) (vregs [(6, 0x7F80)]) = some 0xFFFFFFFFFFFFFF80
    ∧ sAfter 3 (a3 0xB2 3 0x46 0 0 0 1 1) (vregs [(6, 0x7F80)]) = some 127
    ∧ sAfter 3 (a3 0xB6 3 0x46 0 0 0 1 0) (vregs [(6, 0x7F7F00)]) = some 1 := by decide +kernel
/-- The example of R283: the pairwise tree gives 16,777,218.0. -/
theorem test_tree_sum :
    (after 0xB303460000000080 (vregs [(6, 0x4B800000 + 0x3F800000 * 2 ^ 64 + 0x3F800000 * 2 ^ 96)])).map (fun c => ((settled c).getS 3, c.status))
      = some (0x4B800001, 0) := by decide +kernel
theorem test_tree_max :
    sAfter 3 (a3 0xB4 3 0x46 0 0 0 8 0) (vregs [(6, 0xBF80000000000000)]) = some 0
    ∧ sAfter 3 (a3 0xB5 3 0x46 0 0 0 8 0) (vregs [(6, 0xBF80000000000000)]) = some 0x3F800000 := by decide +kernel
/-- The example of R285-R289: 300.0 and 1.0 quantise to 0x4B and 0 with scale code 129, with INEXACT; the block gives 75.0, and 300.0 once
scaled. -/
theorem test_quantise :
    (after 0xA1424800D0000000 (vregs [(8, 0x3F80000043960000)])).map (fun c => ((settled c).getV 2, c.status)) = some (0x4B, 0x2000) := by decide +kernel
theorem test_quantise_scale :
    (after 0xA1054840D0000000 (vregs [(8, 0x3F80000043960000)])).map (fun c => ((settled c).getS 5, c.status)) = some (0x81, 0) := by decide +kernel
theorem test_dequantise :
    vAfter 3 0xA243420508000000 (vregs [(2, 0x4B)]) = some 0x42960000
    ∧ vAfter 3 0xA343050008000000 (fun c => sregs [(5, 0x81)] (vregs [(3, 0x42960000)] c)) = some 0x43960000
    ∧ ((vAfter 3 0xA343050008000000 (fun c => sregs [(5, 0xFF)] (vregs [(3, 0x42960000)] c))).map fun v => v.extractLsb' 0 32) = some 0x7FC00000 := by
  decide +kernel
/-- R286: FP32 to BF16 into the second half, element 0 to place 32. -/
theorem test_convert :
    ((vAfter 3 (sw 0xA0 0x43 0x42 0x112 0) (vregs [(2, 0x3F800000), (3, 7)])).map fun v => (v.extractLsb' 0 16, v.extractLsb' 512 16)) = some (7, 0x3F80) := by
  decide +kernel

/-! ### Standards the device uses: SHAKE256 (FIPS 202) and CRC-32C (known answers of their own documents) -/

/-- CRC-32C of "123456789" is 0xE3069283. -/
theorem test_crc32c : crc32c [0x31, 0x32, 0x33, 0x34, 0x35, 0x36, 0x37, 0x38, 0x39] = 0xE3069283 := by decide +kernel
/-- The first bytes of SHAKE256 of the empty message. -/
theorem test_shake256 : shake256 [] 8 = [0x46, 0xB9, 0xDD, 0x2B, 0x0B, 0xA8, 0x8D, 0x13] := by decide +kernel

/-! ### Bank-command words (R345-R357), residues (R122, R123) -/

theorem test_bset :
    (portAfter 0x020000000105 bankState).map (fun p => (p.em, p.pc)) = some (1, 0x1006) ∧ (portAfter 0x020000008106 bankState).map (·.rsz) = some 129
    ∧ (portAfter 0x020000000001 bankState).map (·.ra) = some 0x20000 ∧ (portAfter 0x020000004002 bankState).map (·.wa) = some 0x11000
    ∧ (portAfter (bankw 0x02 0 3 0x89) (bankState fun p => { p with slot := 60 })).map (·.slot) = some 63
    ∧ (portAfter (bankw 0x02 0 4 0x89) (bankState fun p => { p with slot := 60 })).map (·.stopped) = some (some 2) := by decide +kernel
theorem test_bank_control :
    (portAfter (bankw 0x03 3 0 0) bankState).map (fun p => (p.loops, p.pc)) = some ([(3, 0x1006)], 0x1006)
    ∧ (portAfter (bankw 0x04 0 0 0) (bankState fun p => { p with loops := [(2, 0x0FF0)] })).map (fun p => (p.loops, p.pc)) = some ([(1, 0x0FF0)], 0x0FF0)
    ∧ (portAfter (bankw 0x04 0 0 0) (bankState fun p => { p with loops := [(1, 0x0FF0)] })).map (fun p => (p.loops, p.pc)) = some ([], 0x1006)
    ∧ (portAfter (bankw 0x05 0 0xFFFE 0) bankState).map (·.pc) = some 0xFF4 ∧ (portAfter 0x060000000000 bankState).map (·.halted) = some true
    ∧ (portAfter (bankw 0x01 5 0 0) bankState).map (·.pc) = some 0x1006 ∧ (portAfter (bankw 0x07 0 0 0) bankState).map (·.stopped) = some (some 1)
    ∧ (portAfter (bankw 0x01 5 1 0) bankState).map (·.stopped) = some (some 2) := by decide +kernel
theorem test_bank_semaphores :
    (match exec (decodeBank 0x090001000009) (bankState id { State.reset with sems := vset State.reset.sems 9 { assigned := true, count := 4 } }) with
      | .next t => (t.sem 9).count
      | _ => 0) = 5
    ∧ (portAfter (bankw 0x08 1 0 9) (bankState id { State.reset with sems := vset State.reset.sems 9 { assigned := true, count := 4 } })).map (·.pc) = some 0x1006
    ∧ (portAfter (bankw 0x08 1 0 9) (bankState id { State.reset with sems := vset State.reset.sems 9 { assigned := true } })).map (·.pc) = some 0x1000
    ∧ (portAfter 0x090001000009 bankState).map (·.stopped) = some (some 6) := by decide +kernel
/-- R347: one column read into the move buffer, and one written from it. -/
theorem test_bank_columns :
    (portAfter (bankw 0x19 1 1 5) (bankState (fun p => { p with ra := 0x3000 }) (walked [1, 2]))).map
      (fun p => (SMap.get 0 p.move 5, p.ra)) = some (0x0201, 0x3040)
    ∧ (match exec (decodeBank (bankw 0x1A 1 1 5)) (bankState (fun p => { p with wa := 0x3000, move := [(5, 0x0807)] }) (walked [1, 2, 3])) with
      | .next t => t.readBytes 0x3000 3
      | _ => []) = [7, 8, 0] := by decide +kernel
/-- R352, R353: ACCZ frees slots; DRN of free slots writes nothing; an unaligned WA stops the job. -/
theorem test_bank_drain :
    (portAfter (bankw 0x11 1 0 3) (bankState fun p => p.setLane 0 (({} : Lane).setSlot 3 { assigned := true, rho := 2 }))).map
      (fun p => ((p.lane 0).slot 3).assigned) = some false
    ∧ (portAfter 0x150002000000 bankState).map (·.pc) = some 0x1006
    ∧ (portAfter 0x150002000000 (bankState fun p => { p with wa := 8 })).map (·.stopped) = some (some 2)
    ∧ (portAfter (bankw 0x14 0 0 0) bankState).map (·.pc) = some 0x1006 := by decide +kernel
/-- R122: the residue word of the ends of the exact range comes back, and a word with one residue changed is caught. -/
theorem test_residues :
    residueValue (residueWord (-8388480) false) = some (-8388480) ∧ residueValue (residueWord 8388479 false) = some 8388479
    ∧ residueValue (residueWord 5 false ^^^ 1) = none := by decide +kernel

/-! ### Engines, streams and the index from a core (R311, R315, R326, R334) -/

theorem test_engine_words :
    ((ran 0xC100000000000000 (onBase)).map fun t => t.jobs.map fun j => (j.kind, j.unit)) = some [(.mswap, .array 0)]
    ∧ (after (sw 0xCE 0x83 0 0 0) fun c => { c with tvec := 0x4000 }).map (·.cause) = some 0x0B
    ∧ sAfter 4 (sw 0xCF 4 0x83 0 0) = some 0
    ∧ (after (sw 0xCA 2 1 3 0) fun c => { c with tvec := 0x4000 }).map (·.cause) = some 1 := by decide +kernel
/-- R172: RELS by a core that does not own the stage. -/
theorem test_stage_owner : ((ran (sw 0x5C 0 5 2 0) (withStage { owner := 1 } fun c => { c with tvec := 0x4000 })).map fun t => t.core.cause) = some 0x0A := by
  decide +kernel

/-! ### Events of the device (R24-R36, R191, R299) -/

/-- R25, R27, R30: power on, the steps of a cold start, and a step that fails. -/
theorem test_start :
    (event .powerOn State.reset).map (fun t => (t.boot.state, t.boot.warm)) = some (1, false)
    ∧ (event .bootRomSelfCheck { State.reset with boot := { state := 1 } }).map (·.boot.state) = some 2
    ∧ (event .readBoardLimits { State.reset with boot := { state := 2 } }).map (fun t => (t.boot.state, t.gov.board.fallback)) = some (3, true)
    ∧ (event .trainChannels { State.reset with boot := { state := 5 }, env := { trainFails := some 7 } }).map
        (fun t => (t.boot.state, t.boot.lastFail, t.boot.detail)) = some (0xF0, 6, 7)
    ∧ (event (.featCommit 1) { State.reset with boot := { state := 9, drvFeat := (Vector.replicate 4 0).set 0 0xFFFF } }).map
        (fun t => (t.boot.state, t.boot.accFeat[0])) = some (0x0A, 0x3FF) := by decide +kernel
/-- R24: at 115 °C the clocks stop, and the step after that is the model's one fault. -/
theorem test_thermal :
    (event .thermalSample { State.reset with env := { temperature := 1150 } }).map (fun t => (t.gov.stopped, t.link.fatal)) = some (true, true)
    ∧ (match step { State.reset with gov := { stopped := true }, agenda := [.tick] } with
      | .fault .clocksStopped => true
      | _ => false) = true := by decide +kernel
/-- R17, R38: a register written through the window, and QCFG fields that ENABLE holds. -/
theorem test_registers :
    (event (.qcfgWrite 3 .whole 0x0102_0300_0000_0544) State.reset).map (fun t => ((t.queue 3).proc, (t.queue 3).faultVec, (t.queue 3).ctx, (t.queue 3).log2, (t.queue 3).halt))
      = some (0x0102, 3, 5, 4, true)
    ∧ (event (.semAssignWrite 7 .whole 0x105) State.reset).map (fun t => ((t.sem 7).assigned, (t.sem 7).ctx)) = some (true, 5)
    ∧ (event (.registerWindowAtomicop ⟨false, none⟩ 0) State.reset).map (fun t => t.link.reply) = some .unsupported := by decide +kernel
/-- R15, R55: TDISP and the secured session. -/
theorem test_session :
    (event .tdiLock { State.reset with boot := { accFeat := (Vector.replicate 4 0).set 0 0x3FF } }).map (fun t => t.link.tdi) = some .locked
    ∧ (event (.bindContext 1) State.reset).map (fun t => t.link.reply) = some (.status 2)
    ∧ (event (.bindContext 64) { State.reset with link := { session := true } }).map (fun t => t.link.reply) = some (.status 1) := by decide +kernel
/-- R176, R238: the zero word and a fetch that cannot be made. -/
theorem test_fetch :
    (after 0 fun c => { c with tvec := 0x4000 }).map (·.cause) = some 1
    ∧ (event .instructionFetchFault (onBase fun c => { c with tvec := 0x4000 })).map (fun t => (t.core.cause, t.core.faultva)) = some (5, 0x1000) := by
  decide +kernel
/-- A step fetches the placed word and runs it. -/
theorem test_step_runs_the_word :
    (match step (State.reset.withFetchWord 64 0x2701000000000050) with
      | .next t => (t.core.getS 1, t.core.f0, t.core.slot)
      | _ => (0, 0, 0)) = (5, 0x1008, 1)
    ∧ (match step (State.reset.withFetchWord 48 0x020000000105) with
      | .next t => (((t.bankJob? 1).bind (·.port? 0)).map fun p => (p.em, p.pc))
      | _ => none) = some (1, 0x1006) := by decide +kernel

/-! ### States that meet the hypotheses of the statements (Obligations.lean), clause by clause -/

/-- Checked accesses that may all be made, `n` of them, and ones that may not. -/
def reached (x : State × Except (BitVec 8 × Nat) (List (List Nat))) (n : Nat) : Bool :=
  match x.2 with
  | .ok ps => ps.length == n
  | .error _ => false

def faulted (x : State × Except (BitVec 8 × Nat) (List (List Nat))) (code : BitVec 8) : Bool :=
  match x.2 with
  | .ok _ => false
  | .error f => f.1 == code

/-- s1 = 0x8000000000000001, s2 = 64, s3 = 0x4008 (POS 8, LEN 64), s4 = -1, s5 = 0. -/
def five : Core → Core := sregs [(1, 0x8000000000000001), (2, 64), (3, 0x4008), (4, 0xFFFFFFFFFFFFFFFF)]

/-- The fields of an A3 word over three scalars. -/
def fa (d a b c : Spec) (fn : BitVec 5 := 0) : A3 := ⟨d, a, false, b, false, c, false, 0, fn, 0⟩

theorem witness_scalar :
    ([(0x01, checkAdd (fa 9 1 2 0), 2), (0x02, checkSub (fa 9 1 2 0), 2), (0x03, checkMul (fa 9 1 2 0), 2), (0x04, checkMulhi (fa 9 1 2 0), 2),
      (0x05, checkMulhs (fa 9 1 2 0), 2), (0x0A, checkAnd (fa 9 1 2 0), 2), (0x0B, checkOr (fa 9 1 2 0), 2), (0x0C, checkXor (fa 9 1 2 0), 2),
      (0x16, checkMin (fa 9 1 2 0), 2), (0x17, checkMax (fa 9 1 2 0), 2), (0x18, checkMins (fa 9 1 2 0), 2), (0x19, checkMaxs (fa 9 1 2 0), 2),
      (0x06, checkDiv (fa 9 1 2 0), 2), (0x07, checkDivs (fa 9 1 2 0), 2), (0x08, checkRem (fa 9 1 2 0), 2), (0x09, checkRems (fa 9 1 2 0), 2),
      (0x0D, checkShl (fa 9 1 2 0), 2), (0x0E, checkShr (fa 9 1 2 0), 2), (0x0F, checkSra (fa 9 1 2 0), 2), (0x10, checkRot (fa 9 1 2 0), 2),
      (0x14, checkBext (fa 9 1 2 0), 2)] : List (Nat × Bool × Nat)).all
        (fun x => (reqScalar x.1 x.2.1 (fa 9 1 2 0) x.2.2).ready (onBase five)) = true
    ∧ (reqScalar 0x1A (checkCmp (fa 9 1 2 0 5)) (fa 9 1 2 0 5) 2).ready (onBase five) = true
    ∧ (reqScalar 0x1A (checkCmp (fa 9 1 0 0 7)) (fa 9 1 0 0 7) 1).ready (onBase five) = true
    ∧ (reqScalar 0x1B (checkSel (fa 9 1 2 3)) (fa 9 1 2 3) 3).ready (onBase five) = true
    ∧ (reqScalar 0x15 (checkBins (fa 9 1 2 3)) (fa 9 1 2 3) 3).ready (onBase five) = true
    ∧ (reqScalar 0x11 (checkClz (fa 9 1 0 0)) (fa 9 1 0 0) 1).ready (onBase five) = true
    ∧ (reqScalar 0x12 (checkCtz (fa 9 1 0 0)) (fa 9 1 0 0) 1).ready (onBase five) = true
    ∧ (reqScalar 0x13 (checkPopc (fa 9 1 0 0)) (fa 9 1 0 0) 1).ready (onBase five) = true := by decide +kernel

/-- O1: the result of a compare under either outcome; sources at the ends of their ranges. -/
theorem witness_ScalarArithmetic :
    condition 5 (0x8000000000000001 : W64) 64 ∧ ¬ condition 2 (0 : W64) 0x8000000000000000 :=
  ⟨(by decide : (64 : W64).toNat ≤ (0x8000000000000001 : W64).toNat), (by decide : ¬ (0 : W64).toInt < (0x8000000000000000 : W64).toInt)⟩

/-- O3: an amount of 64 and of 63, bit by bit. -/
theorem witness_Shifts :
    (∀ i, i < 64 → (0 : W64).getLsbD i = (decide (64 ≤ i) && (0x8000000000000001 : W64).getLsbD (i - 64)))
    ∧ (∀ i, i < 64 → (1 : W64).getLsbD i = (0x8000000000000001 : W64).getLsbD (i + 63))
    ∧ (∀ i, i < 64 → (0xFFFFFFFFFFFFFFFF : W64).getLsbD i = if i + 64 < 64 then (0x8000000000000001 : W64).getLsbD (i + 64) else (0x8000000000000001 : W64).getLsbD 63)
    ∧ (∀ i, i < 64 → (3 : W64).getLsbD ((i + 1) % 64) = (0x8000000000000001 : W64).getLsbD i) := by decide +kernel

/-- O4: a field of 64 bits at 8, and one of 0 bits. -/
theorem witness_BitFields :
    (∀ i, i < 64 → (0x80000000000000 : W64).getLsbD i = (decide (i < 64) && (0x8000000000000001 : W64).getLsbD (i + 8)))
    ∧ (∀ i, i < 64 → (5 : W64).getLsbD i = if 8 ≤ i ∧ i < 8 + 0 then (7 : W64).getLsbD (i - 8) else (5 : W64).getLsbD i) := by decide +kernel

/-- O5: 0, 64 and zeros between. -/
theorem witness_BitCounts :
    ((∀ i, i < 64 → 64 - 63 ≤ i → (1 : W64).getLsbD i = false) ∧ (1 : W64).getLsbD (63 - 63) = true)
    ∧ (∀ i, i < 64 → (0 : W64).getLsbD i = false) ∧ (0x8000000000000000 : W64).getLsbD (63 - 0) = true
    ∧ ((∀ i, i < 63 → (0x8000000000000000 : W64).getLsbD i = false) ∧ (0x8000000000000000 : W64).getLsbD 63 = true) := by decide +kernel

/-- O6: the immediate forms are ready, 63 is the largest amount and 64 is refused. -/
theorem witness_Immediates :
    ([(0x20, checkAddi ⟨9, 1, false, 0, 5, 0⟩, true), (0x21, checkAndi ⟨9, 1, false, 0, 5, 0⟩, true), (0x22, checkOri ⟨9, 1, false, 0, 5, 0⟩, true),
      (0x23, checkXori ⟨9, 1, false, 0, 5, 0⟩, true), (0x24, checkShli ⟨9, 1, false, 0, 63, 0⟩, true), (0x25, checkShri ⟨9, 1, false, 0, 63, 0⟩, true),
      (0x26, checkSrai ⟨9, 1, false, 0, 63, 0⟩, true), (0x28, checkLdih ⟨9, 1, false, 0, 5, 0⟩, true)] : List (Nat × Bool × Bool)).all
        (fun x => (reqImm x.1 x.2.1 ⟨9, 1, false, 0, 5, 0⟩ x.2.2).ready (onBase five)) = true
    ∧ (reqImm 0x27 (checkLdi ⟨9, 0, false, 0, 5, 0⟩) ⟨9, 0, false, 0, 5, 0⟩ false).ready (onBase five) = true
    ∧ (reqImm 0x29 (checkLea ⟨9, 0, false, 0, 5, 0⟩) ⟨9, 0, false, 0, 5, 0⟩ false).ready (onBase five) = true
    ∧ 63 < (64 : BitVec 32).toNat := by decide +kernel

/-- O7: class 1, of latency 3, to s1: slots before and from the landing, and a unit that has its result by then and one that has not. -/
theorem witness_ResultLandsInItsSlot :
    onBase.core.fullEmpty 1 = false ∧ onBase.unstepped ∧ onBase.core.flight = [] ∧ 1 + 1 < onBase.core.latency 1 ∧ onBase.core.latency 1 ≤ 2 + 1
    ∧ onBase.beat + unitLatency 1 ≤ (onBase.beat + 2) + 1 ∧ onBase.beat + 1 < onBase.beat + unitLatency 1 := by
  rw [State.unstepped]
  decide +kernel

/-- One result in flight that arrives. -/
def arriving (op : BitVec 8) : InFlight := { op := op, dest := 1, cls := 2, nsrc := 2, writes := [.s 1 7], land := .arrival, redo := none }

/-- O9: a class that is full/empty, and a result that has arrived, of an operation that is no load and of a load behind another. -/
theorem witness_FullEmptyFill :
    onBase.core.fullEmpty 2 = true ∧ onBase.core.flight = []
    ∧ (onBase fun c => { c with flight := [arriving 6] }).core.running = true
    ∧ (onBase fun c => { c with flight := [arriving 6] }).core.flight[0]? = some (arriving 6) ∧ (arriving 6).due ≤ onBase.beat
    ∧ (onBase fun c => { c with flight := [arriving 6] }).core.overtakes (arriving 6) 0 = false
    ∧ (let g : InFlight := { arriving 0x40 with redo := some { dest := 1, signBits := 0, size := 8, bytes := [(0, 0x3000)] } }
       let t := onBase fun c => { c with flight := [{ g with dest := 2, writes := [.s 2 7] }, g] }
       t.core.flight[1]? = some g ∧ g.redo ≠ none ∧ t.core.overtakes g 1 = false) := by decide +kernel

/-- O10: no loop, a branch taken and not taken, and an annulled slot. -/
theorem witness_TripleMovesOn :
    onBase.core.looping = none ∧ (onBase.core.ss && !onBase.core.tm) = false
    ∧ (onBase fun c => { c with a0 := true }).core.a0 = true ∧ (onBase fun c => { c with a0 := true }).core.looping = none := by decide +kernel

/-- O11: branches and jumps are ready, aligned and misaligned. -/
theorem witness_BranchesAndJumps :
    (reqBr ⟨2, 2, 1, false, 2, false, 4, 0⟩ (onBase five)).ready (onBase five) = true
    ∧ (reqJump 0x31 (checkJ ⟨0, 0, 0, false, 0, false, 0xFFFFFFF, 0⟩) ⟨0, 0, 0, false, 0, false, 0xFFFFFFF, 0⟩ [] (onBase five)).ready (onBase five) = true
    ∧ (reqJump 0x32 (checkCall ⟨0, 0, 0, false, 0, false, 4, 0⟩) ⟨0, 0, 0, false, 0, false, 4, 0⟩ [0x3F] (onBase five)).ready (onBase five) = true
    ∧ (reqRegJump 0x33 (checkJr (fa 0 2 0 0 2)) (fa 0 2 0 0 2) [(2, false)] [] (onBase five)).ready (onBase five) = true
    ∧ (reqRegJump 0x34 (checkCallr (fa 0 2 0 0)) (fa 0 2 0 0) [(2, false)] [0x3F] (onBase five)).ready (onBase five) = true
    ∧ (reqRegJump 0x35 (checkRet (fa 0 0 0 0)) (fa 0 0 0 0) [(0x3F, false)] [] (onBase five)).ready (onBase five) = true
    ∧ ((onBase five).srcS 2).extractLsb' 0 3 = 0 ∧ ((onBase five).srcS 1).extractLsb' 0 3 ≠ 0 := by decide +kernel

/-- O12: a loop of 2^32 − 1 trips of one stage, one of 0, one trip too many, and one in trap mode. -/
theorem witness_Loops :
    let w : LoopF := ⟨5, false, 1, 1, 0, 0⟩
    (reqLoopm w (onBase (sregs [(5, 0xFFFFFFFF)]))).ready (onBase (sregs [(5, 0xFFFFFFFF)])) = true
    ∧ (reqLoopm w (onBase id)).ready (onBase id) = true ∧ (onBase id).core.f1 = (onBase id).core.f0 + 8 ∧ (onBase id).core.f2 = (onBase id).core.f0 + 16
    ∧ (reqLoopm w (onBase (sregs [(5, 0x100000000)]))).ready (onBase (sregs [(5, 0x100000000)])) = true
    ∧ (reqLoopm w (onBase fun c => { c with status := 1 })).ready (onBase fun c => { c with status := 1 }) = true
    ∧ (onBase fun c => { c with status := 1 }).core.tm = true
    ∧ loopAfter { k := 0, m := 0, trips := 1, ii := 1, sc := 2, base := 0x1008 } 3 = some { k := 1, m := 1, trips := 1, ii := 1, sc := 2, base := 0x1008 }
    ∧ (onBase fun c => { c with loop := some { k := 0, m := 0, trips := 1, ii := 1, sc := 2, base := 0x1008 } }).core.looping.isSome = true := by decide +kernel

/-- A memory word whose base is s2 and whose register is s4. -/
def memw (size atom order scope : Nat) : MemF :=
  { d := 4, base := 2, eb := false, size := BitVec.ofNat 2 size, atom := BitVec.ofNat 2 atom, order := BitVec.ofNat 2 order,
    scope := BitVec.ofNat 4 scope, off := 0, pred := 0 }

/-- The addresses of an access that may be made. -/
def reachedAt (x : State × Except (BitVec 8 × Nat) (List (List Nat))) (ps : List (List Nat)) : Bool :=
  match x.2 with
  | .ok qs => qs == ps
  | .error _ => false

/-- The canonical form, evaluated. -/
theorem witness_memoryWf : (cached).memoryWf ∧ ({ cached with wq := [(0x3000, 7)] } : State).memoryWf := by
  simp only [State.memoryWf]
  decide +kernel

/-- A column of the first bytes that does not correct. -/
def flawed (s : State) : State := { s with env := { s.env with badColumns := [0x3000] } }

/-- O13: loads that wait for a refresh and that do not, of 1 and of 16 bytes, of an unmapped address, of a misaligned one and of a bad column. -/
theorem witness_ScalarLoads :
    let s := cached (sregs [(2, 0x3000)])
    (reqLoad 0x40 (checkLd (memw 0 0 0 0)) (memw 0 0 0 0) s).ready s = true
    ∧ (reqLoad 0x41 (checkLdx (memw 3 2 0 0)) (memw 3 2 0 0) s).ready s = true
    ∧ reachedAt (reach s (s.coreAccess .read) [{ va := 0x3000, len := 1, align := 1 }]) [[0x3000]] = true
    ∧ reached (reach s (s.coreAccess .read) [{ va := 0x3000, len := 16, align := 16 }]) 1 = true
    ∧ faulted (reach s (s.coreAccess .read) [{ va := 0x50000000, len := 8, align := 1 }]) 0x05 = true
    ∧ faulted (reach s (s.coreAccess .read) [{ va := 0x3001, len := 16, align := 16 }]) 0x04 = true
    ∧ s.orderWaits (memw 0 0 0 0) false = false ∧ (keptWaiting (sregs [(2, 0x3000)])).orderWaits (memw 0 0 0 0) true = true
    ∧ (reqLoad 0x40 (checkLd (memw 0 0 0 0)) (memw 0 0 0 0) (keptWaiting (sregs [(2, 0x3000)]))).ready (keptWaiting (sregs [(2, 0x3000)])) = true
    ∧ s.eccBad [0x3000] = false ∧ (flawed s).eccBad [0x3000] = true
    ∧ ({ op := 0x43, ok := checkPref { memw 0 0 0 0 with d := 0 }, pred := 0, srcs := [(2, false)] } : Req).ready s = true := by decide +kernel

/-- O14: a release that waits for a refresh and one that does not; plain stores of 1 and of 16 bytes, TAIL, another word of a queue page, RESUME with 1 and with 0, and a fault. -/
theorem witness_ScalarStores :
    let s := cached (sregs [(2, 0x3000), (4, 1)])
    (reqStore (memw 0 0 0 0) s).ready s = true ∧ (reqStore (memw 3 2 2 4) s).ready s = true
    ∧ reachedAt (reachStore s (s.coreAccess .write) [{ va := 0x3000, len := 1, align := 1 }]) [[0x3000]] = true
    ∧ reached (reachStore s (s.coreAccess .write) [{ va := 0x40000018, len := 8, align := 1 }]) 1 = true
    ∧ regionOf 0xC00000000018 = .queuePage ∧ 0xC00000000018 % 4096 = 0x18
    ∧ reached (reachStore s (s.coreAccess .write) [{ va := 0x400007F8, len := 8, align := 1 }]) 1 = true
    ∧ reached (reachStore s (s.coreAccess .write) [{ va := 0x40001038, len := 8, align := 1 }]) 1 = true
    ∧ regionOf 0xC00000400038 = .contextPage ∧ 0xC00000400038 % 4096 = 0x38
    ∧ faulted (reachStore s (s.coreAccess .write) [{ va := 0x50000000, len := 8, align := 1 }]) 0x05 = true
    ∧ s.orderWaits (memw 0 0 2 4) false = false ∧ (keptWaiting (sregs [(2, 0x3000)])).orderWaits (memw 0 0 2 4) false = true
    ∧ (reqStore (memw 0 0 2 4) (keptWaiting (sregs [(2, 0x3000)]))).ready (keptWaiting (sregs [(2, 0x3000)])) = true := by decide +kernel

/-- O15: the first and the last channel of the aperture, a store with an order, the clauses of the data, and a full channel. -/
theorem witness_ApertureStores :
    let s := cached (sregs [(2, 0x40000800), (4, 0)])
    let z := cached (sregs [(2, 0x40000838), (4, 0)]) fun s => { s with ctxs := s.ctxs.set 0 { s.ctxs[0] with tmpltab := some 0x8000 } }
    (reqStore (memw 3 0 0 0) s).ready s = true ∧ (s.ctxAt s.core.ctx).tmpltab = none
    ∧ reachedAt (reachStore s (s.coreAccess .write) [{ va := 0x40000800, len := 8, align := 1 }]) [upFrom 0xC00000000800 8] = true
    ∧ (reqStore (memw 3 0 0 0) z).ready z = true ∧ (z.ctxAt z.core.ctx).tmpltab = some 0x8000
    ∧ reachedAt (reachStore z (z.coreAccess .write) [{ va := 0x40000838, len := 8, align := 1 }]) [upFrom 0xC00000000838 8] = true
    ∧ (reqStore (memw 3 0 2 4) s).ready s = true ∧ (memw 3 0 2 4).order ≠ 0 ∧ s.orderWaits (memw 3 0 2 4) false = false
    ∧ (0x1000000 : W64).extractLsb' 24 8 ≠ 0 ∧ (0x1000000 : W64).getLsbD 17 = false ∧ (0x20000 : W64).getLsbD 17 = true
    ∧ regionOf 0xC00000000838 = .queuePage ∧ z.semOwned 3 z.core.ctx = false
    ∧ (withSem 3 { assigned := true }).semOwned 3 0 = true
    ∧ z.unitLoad (.bte 0 7) < Config.unitQueue
    ∧ Config.unitQueue ≤ ({ z with jobs := List.replicate Config.unitQueue { placedJob 1 with unit := .bte 0 7, phase := .queued } } : State).unitLoad (.bte 0 7) := by
  decide +kernel

/-- O16: vector loads of all lanes, of none but the last, strided, indexed, and with one lane that faults. -/
theorem witness_VectorLoads :
    let s := cached (sregs [(2, 0x3000), (3, 0x100000)])
    let m := cached fun c => (sregs [(2, 0x3000), (3, 4)] c).putK 1 (BitVec.allOnes 128) (2 ^ 124)
    let w : MemF := { memw 2 0 0 0 with d := 0x41 }
    (reqVmem 0x44 (checkVld w) w s false).ready s = true
    ∧ (reqVmem 0x44 (checkVld { w with pred := 1 }) { w with pred := 1 } m false).ready m = true
    ∧ (List.range 32).filter (m.core.laneActive 1 32) = [31]
    ∧ reachedAt (reach m (m.coreAccess .read) [{ va := 0x3000, len := 0, align := 1 }, { va := 0x307C, len := 4 }]) [[], upFrom 0x307C 4] = true
    ∧ checkVlds (fa 0x41 2 3 0 3) = true ∧ checkVgath (fa 0x41 2 0x43 0 3) = true
    ∧ (reqLanes 0x46 (checkVlds (fa 0x41 2 3 0 3)) (fa 0x41 2 3 0 3)).ready s = true
    ∧ (reqLanes 0x47 (checkVgath (fa 0x41 2 0x43 0 3)) (fa 0x41 2 0x43 0 3)).ready s = true
    ∧ s.orderWaits w false = false ∧ s.drainWaits = false ∧ (keptWaiting).drainWaits = true ∧ (keptWaiting).orderWaits w true = true
    ∧ reached (reach s (s.coreAccess .read) [{ va := 0x3000, len := 4 }]) 1 = true
    ∧ faulted (reach s (s.coreAccess .read) [{ va := 0x3000, len := 4 }, { va := 0x103000, len := 4 }]) 0x05 = true := by decide +kernel

/-- O17: one active lane stored, all of them, a scatter, and one active lane on a register page. -/
theorem witness_VectorStores :
    let s := cached (sregs [(2, 0x3000)])
    let m := cached fun c => (sregs [(2, 0x3000)] (vregs [(1, 2 ^ 992)] c)).putK 1 (BitVec.allOnes 128) (2 ^ 124)
    let w : MemF := { memw 2 0 0 0 with d := 0x41 }
    (reqVmem 0x45 (checkVst w) w s true).ready s = true
    ∧ (reqVmem 0x45 (checkVst { w with pred := 1 }) { w with pred := 1 } m true).ready m = true
    ∧ reachedAt (reachStore m (m.coreAccess .write) [{ va := 0x3000, len := 0, align := 1 }, { va := 0x307C, len := 4 }]) [[], upFrom 0x307C 4] = true
    ∧ ((m.srcV 0x41).extractLsb' (32 * 31) 32).toNat = 1
    ∧ checkVscat (fa 0x41 2 0x43 0 3) = true ∧ (reqVscat (fa 0x41 2 0x43 0 3)).ready s = true
    ∧ s.heldAt 0x3000 = false ∧ s.orderWaits w false = false ∧ s.drainWaits = false ∧ (keptWaiting).orderWaits w true = true ∧ (keptWaiting).drainWaits = true
    ∧ (match storeAt s true (upFrom 0xC00000000000 4) 4 1 with | .retire _ _ => true | _ => false) = true
    ∧ faulted (reachStore s (s.coreAccess .write) [{ va := 0x3000, len := 4 }, { va := 0x103000, len := 4 }]) 0x05 = true := by decide +kernel

/-- O18: atomics of 4, 8 and 16 bytes, an ACAS at the last pair of registers, and the faults. -/
theorem witness_Atomics :
    let s := cached (sregs [(2, 0x3000), (4, 5), (5, 6)])
    ([(0x49, checkAadd (memw 2 0 0 0)), (0x4A, checkAmin (memw 2 0 0 0)), (0x4B, checkAmax (memw 2 0 0 0)), (0x4C, checkAand (memw 2 0 0 0)),
      (0x4D, checkAor (memw 2 0 0 0)), (0x4E, checkAxor (memw 2 0 0 0)), (0x4F, checkAxchg (memw 2 0 0 0)), (0x51, checkAfadd (memw 2 0 0 0)),
      (0x52, checkAfamax (memw 2 0 0 0))] : List (Nat × Bool)).all (fun x => (reqAtomic x.1 x.2 false (memw 2 0 0 0) s).ready s) = true
    ∧ (reqAtomic 0x50 (checkAcas (memw 3 0 0 0)) true (memw 3 0 0 0) s).ready s = true
    ∧ (reqAtomic 0x4F (checkAxchg (memw 3 2 0 0)) false (memw 3 2 0 0) s).ready s = true
    ∧ reached (reach s (s.coreAccess .atomic) [{ va := 0x3000, len := 4, align := 4 }]) 1 = true
    ∧ s.orderWaits (memw 2 0 0 0) false = false ∧ (keptWaiting).orderWaits (memw 2 0 3 4) false = true
    ∧ reached (reach s (s.coreAccess .atomic) [{ va := 0x3000, len := 16, align := 16 }]) 1 = true
    ∧ faulted (reach s (s.coreAccess .atomic) [{ va := 0x3002, len := 4, align := 4 }]) 0x04 = true
    ∧ faulted (reach s (s.coreAccess .atomic) [{ va := 0x40000000, len := 4, align := 4 }]) 0x07 = true := by decide +kernel

/-- O19: fences of the narrowest and of the widest scope, with a byte waiting, and with one that a refresh keeps back; a write stream. -/
theorem witness_Ordering :
    let s : State := { cached with wq := [(0x3000, 7)] }
    ({ op := 0x53, ok := checkFence ⟨0, 0, false, 0, 0, 0⟩, pred := 0 } : Req).ready s = true
    ∧ ({ op := 0x54, ok := checkXfence ⟨0, 0, false, 6, 0, 0⟩, pred := 0 } : Req).ready s = true
    ∧ ({ op := 0x55, ok := checkMark ⟨0, 0, false, 0, 0, 0⟩, pred := 0 } : Req).ready s = true
    ∧ (∀ c ∈ s.wq, ¬ s.beat < s.refreshEnd c.1) ∧ (∃ c ∈ (keptWaiting).wq, (keptWaiting).beat < (keptWaiting).refreshEnd c.1)
    ∧ ({ op := 0x53, ok := checkFence ⟨0, 0, false, 6, 0, 0⟩, pred := 0 } : Req).ready keptWaiting = true
    ∧ ({ op := 0x54, ok := checkXfence ⟨0, 0, false, 6 + 16, 0, 0⟩, pred := 0 } : Req).ready keptWaiting = true
    ∧ s.readByte 0x3000 = 7 ∧ s.arrayByte 0x3000 = 0x80 := by decide +kernel

/-- O20: accesses that may be made, and of each fault one. -/
theorem witness_CheckedAccesses :
    let s := cached
    reached (reach s (s.coreAccess .read) [{ va := 0x3000, len := 4 }, { va := 0, len := 0 }]) 2 = true
    ∧ faulted (reach s (s.coreAccess .read) [{ va := 0x3001, len := 2, align := 2 }, { va := 0x200000000000000, len := 1 }]) 0x05 = true
    ∧ faulted (reach s (s.coreAccess .write) [{ va := 0x40001000 + 4096 * 0, len := 8 }]) 0x07 = false
    ∧ faulted (reach s (s.coreAccess .fetch) [{ va := 0x40002000, len := 8, align := 8 }]) 0x07 = true
    ∧ faulted (reach s { s.coreAccess .read with ctx := 1 } [{ va := 0x3000, len := 8 }]) 0x05 = true
    ∧ (match partsFault [⟨0x2000, 0, .error codePermission⟩, ⟨0x3000, 0, .error codeTranslation⟩] with
        | some (c, a) => c == codeTranslation && a == 0x3000
        | none => false) = true := by decide +kernel

/-- The fields of an A3 word over three vectors, and every word of a list ready. -/
def va (d : Spec) (fn : BitVec 5) (a b c : Spec := 0) (p : BitVec 4 := 0) : A3 := ⟨d, a, false, b, false, c, false, 0, fn, p⟩
def vectorsReady (xs : List (Nat × (A3 → Bool) × A3 × Nat)) : Bool := xs.all fun x => (reqVector x.1 (x.2.1 x.2.2.1) x.2.2.1 x.2.2.2).ready onBase

/-- O27: lanes of 8 and of 32 bits, a vector queue as destination. -/
theorem witness_VectorIntegers :
    let two := fun (fn : BitVec 5) => va 0x41 fn 0x42 0x43
    vectorsReady [(0x60, checkVadd, two 1, 2), (0x61, checkVsub, two 2, 2), (0x62, checkVmul, two 3, 2), (0x63, checkVmad, va 0x41 3 0x42 0x43 0x44, 3),
      (0x64, checkVmin, two 1, 2), (0x65, checkVmax, two 1, 2), (0x66, checkVand, two 3, 2), (0x67, checkVor, two 3, 2), (0x68, checkVxor, two 3, 2),
      (0x69, checkVshl, two 1, 2), (0x6A, checkVshr, two 1, 2), (0x6B, checkVsra, two 1, 2), (0x6D, checkVsel, va 0x41 1 0xC2 0x43 0x44, 3),
      (0x6E, checkVabs, va 0x41 1 0x42, 1), (0x6F, checkVpopc, va 0x41 1 0x42, 1), (0x70, checkVclz, va 0x41 1 0x42, 1)] = true
    ∧ elemBits 1 = 8 ∧ elemBits 2 = 16 ∧ elemBits 3 = 32 := by decide +kernel

/-- O28: an integer compare, one with 0, and a float compare; the lanes either way. -/
theorem witness_VectorCompares :
    vectorsReady [(0x6C, checkVcmp, va 0xC1 2 0x42 0x43, 2), (0x6C, checkVcmp, va 0xC1 23 0x42, 1), (0x7E, checkVfcmp, va 0xC1 0 0x42 0x43, 2),
      (0x7E, checkVfcmp, va 0xC1 22 0x42, 1)] = true
    ∧ (fp32.decode 0x7FC00000).eq (fp32.decode 0x7FC00000) = false ∧ (fp32.decode 0).eq (fp32.decode 0x80000000) = true := by decide +kernel

/-- O29: each movement; the number of the lane at its bounds. -/
theorem witness_VectorMoves :
    vectorsReady [(0x88, checkVmov, va 0x41 3 0x42, 1), (0x89, checkVbcast, va 0x41 1 2, 1), (0x8E, checkViota, va 0x41 2 2, 1),
      (0x8C, checkVperm, va 0x41 1 0x42 0x43, 2), (0x8B, checkVins, va 0x41 1 2 3, 2), (0x8D, checkVcomp, va 0x41 1 0x42, 1)] = true
    ∧ (reqWhole 0x8A (checkVext (va 4 1 0x42 3)) (va 4 1 0x42 3) 2).ready onBase = true := by decide +kernel

/-- O30: the three formats; a lane that is a NaN and one that is not. -/
theorem witness_VectorFloats :
    let two := fun (fn : BitVec 5) => va 0x41 fn 0x42 0x43
    vectorsReady [(0x78, checkVfadd, two 8, 2), (0x79, checkVfsub, two 9, 2), (0x7A, checkVfmul, two 10, 2), (0x7B, checkVfma, va 0x41 8 0x42 0x43 0x44, 3),
      (0x7C, checkVfmin, two 8, 2), (0x7D, checkVfmax, two 8, 2), (0x7F, checkVfabs, va 0x41 8 0x42, 1), (0x80, checkVfneg, va 0x41 9 0x42, 1),
      (0x86, checkVeadd, two 8, 2), (0x86, checkVeadd, va 0x41 10 0x42 3, 2)] = true
    ∧ fp32.decode 0x7FC00001 = .nan ∧ fp32.decode 0xFF800000 ≠ .nan ∧ fp32.width = 32 ∧ bf16.width = 16 ∧ fp16.width = 16 := by decide +kernel

/-- O31: each function in each format; the ends of the range of exact powers. -/
theorem witness_Transcendentals :
    vectorsReady [(0x81, checkVexp2, va 0x41 8 0x42, 1), (0x82, checkVlog2, va 0x41 9 0x42, 1), (0x83, checkVrcp, va 0x41 10 0x42, 1),
      (0x84, checkVrsq, va 0x41 8 0x42, 1), (0x85, checkVsqrt, va 0x41 8 0x42, 1)] = true
    ∧ (0 : Nat) < 1 ∧ (-1000 : Int) ≤ -1000 ∧ (1000 : Int) ≤ 1000 := by decide +kernel

/-- O32: reductions with every lane active and with none, over lanes that are all the same: 0 is the largest, the least and the first. -/
theorem witness_Reductions :
    vectorsReady [(0xB0, checkVrsum, va 4 1 0x42, 1), (0xB1, checkVrmax, va 4 2 0x42, 1), (0xB2, checkVrmin, va 4 3 0x42, 1), (0xB3, checkVrfsum, va 4 8 0x42, 1),
      (0xB4, checkVrfmax, va 4 9 0x42, 1), (0xB5, checkVramax, va 4 10 0x42, 1), (0xB6, checkVrarg, va 4 1 0x42, 1), (0xB6, checkVrarg, va 4 10 0x42 0 0 1, 1)] = true
    ∧ (∀ i, i < 32 → predBit onBase 0 (4 * i) = true) ∧ (∀ i, i < 32 → predBit (onBase fun c => c.putK 1 (BitVec.allOnes 128) 0) 1 (4 * i) = false)
    ∧ (∀ i, i < 32 → (srcA onBase (va 4 3 0x42) 32 i).toInt = 0) := by decide +kernel

/-- The fields of a conversion word. -/
def cw (ctl : Nat) : SysF := ⟨0x41, 0x42, false, BitVec.ofNat 12 ctl, 0, 0⟩

/-- O33: a conversion to a narrower and to a wider format, a block of each size, decoding and scaling. -/
theorem witness_Conversions :
    (reqCvt 0xA0 (checkVcvt (cw 0x12)) (cw 0x12) [(0x42, false)]).ready onBase = true
    ∧ (reqCvt 0xA0 (checkVcvt (cw 0x121)) (cw 0x121) [(0x42, false)]).ready onBase = true
    ∧ (reqCvt 0xA1 (checkVqnt { cw 0x19 with a := 0x58 }) { cw 0x19 with a := 0x58 }
        ((List.range (groupRegs 1 9)).map fun i => (0x58 + BitVec.ofNat 8 i, false))).ready onBase = true
    ∧ (reqCvt 0xA1 (checkVqntSc { cw 0x81B with d := 4, a := 0x44 }) { cw 0x81B with d := 4, a := 0x44 }
        ((List.range (groupRegs 1 11)).map fun i => (0x44 + BitVec.ofNat 8 i, false))).ready onBase = true
    ∧ (reqCvt 0xA2 (checkVdqnt (cw 0x91)) (cw 0x91) [(0x42, false)]).ready onBase = true
    ∧ (reqCvt 0xA3 (checkVscl { cw 0x01 with a := 2 }) { cw 0x01 with a := 2 } [(2, false), (0x41, false)]).ready onBase = true := by decide +kernel

/-- O34: masks; counting from the first lane to one past the last. -/
theorem witness_Masks :
    vectorsReady [(0xA8, checkKand, va 0xC1 0 0xC2 0xC3, 2), (0xA9, checkKor, va 0xC1 0 0xC2 0xC3, 2), (0xAA, checkKxor, va 0xC1 0 0xC2 0xC3, 2),
      (0xAB, checkKnot, va 0xC1 0 0xC2, 1), (0xAC, checkKmov, va 0xC1 0 0xC2, 1), (0xAC, checkKmovL64ToMask, va 0xC1 1 2, 1),
      (0xAC, checkKmovH64ToMask, va 0xC1 2 2, 1)] = true
    ∧ ([(0xAC, checkKmovL64ToScalar, va 4 3 0xC2), (0xAC, checkKmovH64ToScalar, va 4 4 0xC2), (0xAD, checkKpop, va 4 1 0xC2), (0xAE, checkKff, va 4 3 0xC2)]
        : List (Nat × (A3 → Bool) × A3)).all (fun x => (reqWhole x.1 (x.2.1 x.2.2) x.2.2 1).ready onBase) = true
    ∧ (onBase.srcK 0xC0).getLsbD 0 = true
    ∧ (∀ i, i < 32 → (onBase.srcK 0xC2).getLsbD (4 * i) = false) := by decide +kernel

/-- O2: quotients at the ends of the range; nothing but readiness is asked. -/
theorem witness_Division :
    ([(0x06, checkDiv (fa 9 1 2 0)), (0x07, checkDivs (fa 9 1 2 0)), (0x08, checkRem (fa 9 1 2 0)), (0x09, checkRems (fa 9 1 2 0))]
      : List (Nat × Bool)).all (fun x => (reqScalar x.1 x.2 (fa 9 1 2 0) 2).ready (onBase five)) = true
    ∧ ((onBase five).srcS 5 = 0) ∧ (onBase five).srcS 4 = BitVec.allOnes 64 := by decide +kernel

/-- O8: the first and the last register. -/
theorem witness_HardWiredRegisters : (0 : Nat) < 1 ∧ (63 : Nat) < 64 ∧ (base.getS 0 = 0) := by decide +kernel

/-- O21: a queue whose first take is covered and whose second is not, and one at whose head an interrupt waits. -/
theorem witness_GrantsInQueueOrder :
    let x : Sem := { assigned := true, count := 3, takes := [{ id := 1, units := 2, who := .core 0 }, { id := 2, units := 2, who := .core 1 }] }
    let j : Sem := { x with takes := [{ id := 1, units := 2, who := .job 7 }, { id := 2, units := 2, who := .job 8 }] }
    x.grant.takes.length = 2 ∧ j.grant.takes.length = 1 ∧ j.grant.granted = [1] ∧ j.grant.count = 1
    ∧ ({ x with takes := [{ id := 1, units := 1, who := .interrupt 0 }] } : Sem).grant.takes.length = 1 := by decide +kernel

/-- A system word of its control field and immediate. -/
def sf (a : Spec) (ctl imm : Nat) : SysF := ⟨0, a, false, BitVec.ofNat 12 ctl, BitVec.ofNat 23 imm, 0⟩

/-- O22: covered and not covered takes, a take granted, sums of 0xFFFF and of one more, a semaphore that a job names. -/
theorem witness_Semaphores :
    let s := withSem 17 { assigned := true, count := 0xFFFE }
    let q := fun (n : Nat) => withSem 17 { assigned := true, count := n, takes := [{ id := 5, units := 1, who := .core 0 }] } fun c => { c with take := some (17, 5) }
    let k := { s with wq := [(0x3000, 7)], pauses := (keptWaiting).pauses }
    let j := { s with jobs := [{ placedJob 1 with sig := some 17 }] }
    s.core.deferred = [] ∧ (s.sem 17).assigned = true ∧ (s.sem 17).ctx = s.core.ctx ∧ (s.sem 17).takes = [] ∧ s.core.take = none
    ∧ (reqBare 0x56 (checkSemw (sf 0 17 0xFFFE)) (sf 0 17 0xFFFE)).ready s = true ∧ (0xFFFE : Nat) ≤ (s.sem 17).count
    ∧ (reqBare 0x56 (checkSemw (sf 0 17 0xFFFF)) (sf 0 17 0xFFFF)).ready s = true ∧ (s.sem 17).count < 0xFFFF
    ∧ (q 1).core.take = some (17, 5) ∧ ((q 1).sem 17).takes.head?.map (·.id) = some 5 ∧ 1 ≤ ((q 1).sem 17).count ∧ ((q 0).sem 17).count < 1
    ∧ (reqBare 0x56 (checkSemw (sf 0 17 1)) (sf 0 17 1)).ready (q 1) = true ∧ (reqBare 0x56 (checkSemw (sf 0 17 1)) (sf 0 17 1)).ready (q 0) = true
    ∧ (∀ c ∈ s.wq, ¬ s.beat < s.refreshEnd c.1) ∧ (∃ c ∈ k.wq, k.beat < k.refreshEnd c.1) ∧ (reqBare 0x57 (checkSems (sf 0 17 1)) (sf 0 17 1)).ready k = true
    ∧ (reqBare 0x57 (checkSems (sf 0 17 1)) (sf 0 17 1)).ready s = true ∧ (s.sem 17).count + 1 ≤ 0xFFFF ∧ 0xFFFF < (s.sem 17).count + 2
    ∧ (reqBare 0x58 (checkSemi (sf 0 17 9)) (sf 0 17 9)).ready s = true
    ∧ (reqBare 0x59 (checkSemr (sf 0 17 0)) (sf 0 17 0)).ready s = true
    ∧ s.jobs = [] ∧ (∃ x ∈ j.jobs, x.cont = j.core.cont ∧ x.sig = some 17)
    ∧ ¬ ((s.sem 18).assigned = true) := by decide +kernel

/-- A state whose core 0 is in pen 3, with that pen's barrier state. -/
def penned (x : Pen) (f : Core → Core := id) : State :=
  { onBase (fun c => f { c with penset := 3, pencnt := 1 }) with pens := vset State.reset.pens 3 x }

/-- O23: outside the pen; an arrival that is not the last; the last; a generation that has completed, and one that has not. -/
theorem witness_PenBarrier :
    let p : Pen := { bitmap := 3 }
    let w := sf 0 3 0
    let c : Core → Core := fun c => { c with pbarGen := [(0x1000, 3, 0)] }
    (reqBare 0x5A (checkPbar w) w).ready (penned p) = true
    ∧ (onBase id).inPen 3 = false ∧ (penned p).inPen 3 = true ∧ ((penned p).pen 3).arr ||| 1 ≠ ((penned p).pen 3).bitmap
    ∧ ((penned { p with arr := 2 }).pen 3).arr ||| 1 = ((penned { p with arr := 2 }).pen 3).bitmap
    ∧ ((penned { p with arr := 1 }).pen 3).arr.getLsbD 0 = true
    ∧ (penned p c).core.pbarGen.find? (fun x => x.1 == (penned p c).core.f0 && x.2.1 == 3) = some (0x1000, 3, 0)
    ∧ ((penned p c).pen 3).gen = 0 ∧ ((penned { p with gen := 1 } c).pen 3).gen ≠ 0 := by decide +kernel

/-- O24: a stage that may be taken, one of another core, one of a dead context. -/
theorem witness_Stages :
    let s := withStage { full := true, owner := 0, ctx := 0 }
    let w := sf 5 (2 + 8) 0
    (reqBare 0x5B (checkAcqs (sf 0 (2 + 8) 0)) (sf 0 (2 + 8) 0)).ready s = true ∧ (s.stage 2).full = true ∧ (s.stage 2).owner = s.subj.core.val % 8
    ∧ (s.stage 2).ctx = s.core.ctx ∧ ((withStage { full := true, ctx := 9 }).ctxAt 9).live = false
    ∧ ({ op := 0x5C, ok := checkRels w, pred := 0, srcs := [(5, false)] } : Req).ready s = true
    ∧ ((withStage { owner := 1 }).stage 2).owner ≠ 0 := by decide +kernel

/-- A deferred fault of a job with a tag. -/
def late (job tag : Nat) : Deferred :=
  { job := job, code := 0x05, sem := none, tag := some tag, unitKind := 1, unitIndex := 2, mpc := 3, va := 0, path := 3 }

/-- O25: masks of 0, of a set tag, of tags that are not all set; of two deferred faults the older; the first tag at 0 and at 64. -/
theorem witness_CopyTags :
    let s := onBase fun c => { sregs [(3, 6)] c with tagmap := 4 }
    let d := onBase fun c => { sregs [(3, 6)] c with deferred := [late 9 1, late 4 2] }
    (reqWaitt (checkWaittAny (sf 3 0 0)) (sf 3 0 0)).ready s = true ∧ (reqWaitt (checkWaittAll (sf 3 1 0)) (sf 3 1 0)).ready s = true
    ∧ s.core.deferred = [] ∧ s.core.tagmap &&& s.srcS 3 ≠ 0 ∧ s.core.tagmap &&& s.srcS 3 ≠ s.srcS 3 ∧ s.srcS 0 = 0
    ∧ late 4 2 ∈ d.core.deferred ∧ (d.srcS 3).getLsbD 2 = true ∧ (reqWaitt (checkWaittAny (sf 3 0 0)) (sf 3 0 0)).ready d = true
    ∧ (∀ e ∈ d.core.deferred, e ≠ late 4 2 → (late 4 2).job < e.job)
    ∧ ({ op := 0x5E, ok := checkFfrt { sf 3 0 0 with d := 4 }, pred := 0, srcs := [(3, false)], dsts := [4] } : Req).ready s = true
    ∧ (∀ i, i < 2 → (s.core.tagmap &&& s.srcS 3).getLsbD i = false) ∧ (s.core.tagmap &&& s.srcS 3).getLsbD 2 = true
    ∧ (∀ i, i < 64 → (s.core.tagmap &&& s.srcS 0).getLsbD i = false) := by decide +kernel

/-- The addresses that a header was read from, or its fault. -/
def header (x : State × Except (BitVec 8 × Nat) (Option Header)) : Option Bool :=
  match x.2 with
  | .ok h => some h.isSome
  | .error _ => none

/-- O26: a code header that is right, one that is not, one that does not translate; a misplaced address; full queues. -/
theorem witness_Spawning :
    let f := sregs [(1, 0x3040), (2, 0x5000), (3, 0x6000), (4, 0x50000000)]
    let s := cached f
    let r : Req := { op := 0xEB, ok := checkSpawn (fa 0 1 2 3), srcs := [(1, false), (2, false), (3, false)], pred := 0 }
    let code := leBytes 4 0x4B594345 ++ leBytes 4 1 ++ leBytes 8 0x0013100646842031 ++ leBytes 4 1 ++ leBytes 4 8 ++ leBytes 40 0
    let h := cached f fun s => { s with mem := storeCode [] 0x3000 code }
    r.ready s = true ∧ (s.srcS 1).toNat % 8 = 0 ∧ (s.srcS 2).toNat % 64 = 0 ∧ (s.srcS 3).toNat < 2 ^ 57
    ∧ header (readHeader s s.core.ctx (.yard s.yardIdx) 0x3040) = some false
    ∧ header (readHeader s s.core.ctx (.yard s.yardIdx) 0x50000040) = none
    ∧ header (readHeader h h.core.ctx (.yard h.yardIdx) 0x3040) = some true
    ∧ s.queuesFull = false ∧ ¬ ((0x5001 : W64).toNat % 64 = 0) := by decide +kernel

/-- Full queues. -/
theorem witness_full_queues (r : ContRec) :
    ({ cached with ready := List.replicate Config.dispatchCapacity r } : State).queuesFull = true := by
  simp [State.queuesFull]

/-- Core 0 with a descriptor at 0x3000 (s2), 64 KiB of the loft at 0x20000000, and its yard's array changed by `g`. -/
def described (bs : List Byte) (f : Core → Core := id) (g : Yard → Yard := id) : State :=
  cached (fun c => f (sregs [(2, 0x3000)] c)) fun s =>
    { s with mem := storeCode [] 0x3000 bs, yards := s.yards.set 0 (g { s.yards[0] with tlb := cachedLeaf 0x20000000 0x800000000000 0x10000 0 :: s.yards[0].tlb }) }

/-- An engine word whose descriptor is at s2. -/
def ef (d : Spec := 0) (wait sig : Nat := 0) (tag : Nat := 0) : EngF :=
  { d := d, desc := 2, e := false, waitsem := BitVec.ofNat 8 wait, sigsem := BitVec.ofNat 8 sig, tag := BitVec.ofNat 6 tag, stampOff := 0,
    stampEn := false, pred := 0 }

/-- The number of jobs after an instruction, and the trap if it took one. -/
def outcome (i : Instr) (s : State) : Option (Nat × W64) :=
  match exec i s with
  | .next t => some (t.jobs.length, t.core.cause)
  | _ => none

/-- A matrix descriptor: ADDR, NROWS, ACCBASE, SCALES, DEPTH, COUNT, FORMAT, FLAGS, PERIOD, LROWS, GROUP, KSTEPS. -/
def matDesc (addr rows acc scales depth count fmt flags : Nat) (period lrows group ksteps : Nat := 0) : List Byte :=
  leBytes 8 addr ++ leBytes 4 384 ++ leBytes 2 rows ++ leBytes 2 acc ++ leBytes 8 scales ++ leBytes 8 0 ++ leBytes 4 depth ++ leBytes 4 count
    ++ leBytes 1 fmt ++ leBytes 1 flags ++ leBytes 2 0 ++ leBytes 2 0 ++ leBytes 2 period ++ leBytes 4 lrows ++ leBytes 2 group ++ leBytes 1 ksteps
    ++ leBytes 9 0

/-- A device on which no job of the array is queued, and one whose queue is full. -/
def armed (c : Core) : Core := { c with tvec := 0x4000 }

/-- O35: each job within its limits at a boundary, one past a limit, a range that does not translate, a full queue, a semaphore that is
not the context's. -/
theorem witness_MatrixJobs :
    outcome (.mstrm (ef)) (described (matDesc 0x20000000 1024 0 0 65536 0 10 0)) = some (1, 0)
    ∧ outcome (.mstrm (ef)) (described (matDesc 0x20000000 1024 1 0 65536 0 10 0) armed) = some (0, 2)
    ∧ outcome (.mstrm (ef)) (described (matDesc 0x30000000 1 0 0 1 0 10 0) armed) = some (0, 0x3005)
    ∧ outcome (.mstrm (ef 0 3)) (described (matDesc 0x20000000 1 0 0 1 0 10 0) armed) = some (0, 6)
    ∧ outcome (.mstrm (ef)) (described (matDesc 0x20000000 1 0 0 1 0 10 8) armed) = some (0, 0x0B)
    ∧ outcome (.mdrn (ef)) (described (matDesc 0x20000000 1 1023 0 0 0 3 0)) = some (1, 0)
    ∧ outcome (.mzero (ef)) (described (matDesc 0 1 1023 0 0 0 0 0)) = some (1, 0)
    ∧ outcome (.meadd (ef)) (described (matDesc 0 1 0 0 0 0 0 0)) = some (1, 0)
    ∧ outcome (.mscl (ef)) (described (matDesc 0x20000000 0 0 0 0 (2 ^ 24) 0 0)) = some (1, 0)
    ∧ outcome (.mlds (ef)) (described (matDesc 0x20000000 0 0 0 0 0 13 0)) = some (1, 0)
    ∧ outcome (.mlds (ef)) (described (matDesc 0x4000 0 0 0x20000000 0 0 10 1)) = some (1, 0)
    ∧ outcome (.mswap { ef with desc := 0 }) (described []) = some (1, 0)
    ∧ outcome (.mlunge (ef)) (described (matDesc 0x20000000 0 0 0 0 0 10 0 8 512 512 1) fun c => { c with lookahead := 1 }) = some (1, 0)
    ∧ outcome (.mlunge (ef)) (described (matDesc 0x20000000 0 0 0 0 0 10 0 8 512 512 1) armed) = some (0, 2) := by decide +kernel

/-- The clauses of a word without any. -/
theorem witness_clauses (s : State) : clausesMine (ef) s := by
  intro n h1 h2
  rcases h2 with h | h <;> exact absurd h h1

/-- A bank descriptor: PROG, PORTS, BTAB, the window, SLOT, ERRSEM. -/
def bankWords_ (prog ports slot errsem : Nat) : List Byte :=
  leBytes 8 prog ++ leBytes 8 ports ++ leBytes 32 0 ++ leBytes 1 slot ++ leBytes 1 errsem ++ leBytes 14 0

/-- A captured block table: one logical block, one layer and head, a pool of 64 blocks. -/
def caught : BlockCache :=
  { ctx := 0, addr := 0x8000, sets := [(0, some 31)],
    header := leBytes 4 1 ++ leBytes 4 16 ++ leBytes 2 1 ++ leBytes 2 1 ++ leBytes 12 0 ++ leBytes 4 64 ++ leBytes 36 0 }

/-- A KVHO descriptor over the table at 0x8000: T0, NTOK, HEAD. -/
def handOver (t0 ntok head : Nat) : List Byte :=
  leBytes 8 0x20000000 ++ leBytes 8 0x20001000 ++ leBytes 8 0x8000 ++ leBytes 4 t0 ++ leBytes 2 ntok ++ leBytes 1 0 ++ leBytes 1 head ++ leBytes 32 0

/-- An INGEST record as a descriptor: one row of 64 raw bytes from handle 1 to handle 2. -/
def ingestRec : List Byte :=
  leBytes 1 4 ++ leBytes 1 1 ++ leBytes 6 0 ++ leBytes 4 1 ++ leBytes 4 2 ++ leBytes 8 0 ++ leBytes 8 0 ++ leBytes 4 1 ++ leBytes 4 64
    ++ leBytes 2 0 ++ leBytes 2 0xFFFF ++ leBytes 20 0

/-- An entry that lists these handles. -/
def listing (hs : List (BitVec 32)) : Entry :=
  { id := 0, queue := 0, ctx := 0, seqno := 0, prio := 0, powerClass := 0, sigsem := 0, vector := 0, irq := false, sig := false, missAbort := false,
    overrun := 0, pinned := false, dl := false, expertTimeout := 0, deadline := 0, budget := {}, opchain := 0, completion := 0, opcount := 1, handles := hs }

/-- The state for an ingest: both handles live, the destination on a stripe unit. -/
def ingesting (base : Nat) : State :=
  let s := described ingestRec armed
  { s with
    entries := [listing [1, 2]]
    ctxs := s.ctxs.set 0 { s.ctxs[0] with live := true, handles := [(1, { st := .set, canRead := true, base := 0x5000, len := 64 }),
      (2, { st := .set, canWrite := true, base := base, len := 384 * 16000 })] } }

/-- O36: a gather, a bank job on the first die, a slot past the last, an invalidation, a KV hand-over of the last token of a table's only
block and one past it, an ingest on a stripe unit and one between two. -/
theorem witness_PackageJobs :
    outcome (.bteg (ef 0x41)) (described (leBytes 16 0 ++ leBytes 4 0 ++ leBytes 4 64 ++ leBytes 40 0)) = some (1, 0)
    ∧ outcome (.bcall (ef)) { described (bankWords_ 0x4000 1 15 0) with
        mcs := State.reset.mcs.set 0 { State.reset.mcs[0] with tlb := [cachedLeaf 0 0 0x100000 0] } } = some (1, 0)
    ∧ outcome (.bcall (ef)) (described (bankWords_ 0x4000 (2 ^ 47) 16 0) armed) = some (0, 2)
    ∧ outcome (.btinv (ef)) (described []) = some (1, 0)
    ∧ outcome (.kvho (ef)) { described (handOver 15 1 0) with blockTabs := [caught] } = some (1, 0)
    ∧ outcome (.kvho (ef)) { described (handOver 15 2 0) armed with blockTabs := [caught] } = some (0, 2)
    ∧ outcome (.lxjob (ef)) (ingesting 32000) = some (1, 0)
    ∧ outcome (.lxjob (ef)) (ingesting 32064) = some (0, 2) := by decide +kernel

/-- A run of the core's entry with an open row 5, a drain demand of group 0, and answers up to row 3. -/
def runOf (f : Lunge → Lunge := id) : Lunge :=
  f { job := 0, cont := 0, entry := 0, ctx := 0, look := 1, start := 0, next := 4, demandRow := 6, open_ := [5], drains := [0],
      demands := [{ kind := 1, index := 5, due := 9 }, { kind := 2, index := 0, due := 11 }],
      desc := { addr := 0, stride := 0, rows := 0, accBase := 0, scales := 0, metadata := 0, depth := 0, count := 0, format := 10, flags := 0,
                qreg := 0, exp := 0, period := 1, lrows := 8, group := 4, ksteps := 1 } }

/-- Core 0 beside that run, stage 0 full for it. -/
def running (f : Core → Core := id) (l : Lunge → Lunge := id) : State :=
  described [] (fun c => f (sregs [(4, 5), (6, 0x20000000)] c)) fun y =>
    { y with stages := y.stages.set 0 { full := true }, arr := { y.arr with lunge := some (runOf l), inexact := true } }

/-- A result of MSTAT or MWAITD in flight. -/
def sampled (op : BitVec 8) : InFlight := { op := op, dest := 9, cls := 14, nsrc := 0, writes := [.s 9 0], land := .arrival, redo := none }

/-- O37: results to sample; a row open, fed and not, and withdrawn; an address that is not aligned; groups to free; a run to stop, one that
stops already, one that has failed, one that waits, and none. -/
theorem witness_LungeAndStatus :
    let s := running
    let w : SysF := ⟨4, 6, false, 0, 0, 0⟩
    let fed := fun (run : Nat) => running fun c => { c with fed := [{ addr := 0x1000, row := 5, run := run, start := 0 }] }
    let gone := { running with yards := (running).yards.set 0 { (running).yards[0] with arr := { (running).yards[0].arr with withdrawn := [(0, 7)] } } }
    let queued : Job := { placedJob 1 with unit := .array 0, phase := .queued, kind := .mlunge (runOf).desc none 1 }
    ({ op := 0xC7, ok := checkMstat { ef 9 with desc := 0 }, pred := 0, dsts := [9] } : Req).ready s = true
    ∧ ({ op := 0xC9, ok := checkMwaitd (fa 9 0 0 0), feature := s.accepts 3, pred := 0, dsts := [9] } : Req).ready s = true
    ∧ (running fun c => { c with flight := [sampled 0xC7] }).matrixBefore (sampled 0xC7).mark = false
    ∧ (running fun c => { c with flight := [sampled 0xC9] }).mwaitdBefore (sampled 0xC9) = false
    ∧ (running fun c => { c with flight := [sampled 0xC9] }).core.overtakes (sampled 0xC9) 0 = false
    ∧ s.yards[s.yardIdx].arr.lunge = some runOf ∧ (runOf).entry = s.core.entry
    ∧ (∀ y ∈ (runOf).demands.take 64, y ≠ { kind := 1, index := 5, due := 9 } → 9 < y.due)
    ∧ ({ op := 0xCA, ok := checkMfeed w, feature := s.accepts 3, pred := 0, srcs := [(6, false), (4, false)] } : Req).ready s = true
    ∧ (s.srcS 4).toNat ∈ (runOf).open_ ∧ s.core.fed = [] ∧ (s.stage 0).full = true ∧ (s.stage 0).owner = s.subj.core.val % 8
    ∧ reached (reach s (arrayAccess s.core.ctx s.yardIdx pathMatrix .read) [{ va := 0x20000000, len := 1 }]) 1 = true
    ∧ (fed 0).core.fed.map (fun x => (x.addr == (fed 0).core.f0, x.row, x.run)) = [(true, 5, (runOf).job)] ∧ (fed 9).core.fed.map (·.run) ≠ [(runOf).job] ∧ (0, 7) ∈ gone.yards[0].arr.withdrawn ∧ 7 ∉ (runOf).open_ ∧ (6 : Nat) ∉ (runOf).open_
    ∧ (runOf fun l => { l with stopAt := some 0 }).stopAt = some 0 ∧ (runOf fun l => { l with failed := true }).failed = true
    ∧ ({ cached with jobs := [queued] } : State).jobs = [] ++ queued :: [] ∧ queued.open_ = true ∧ queued.unit = .array 0
    ∧ (cached).yards[0].arr.lunge = none ∧ (cached).jobs = []
    ∧ faulted (reach s (arrayAccess s.core.ctx s.yardIdx pathMatrix .read) [{ va := 0x30000000, len := 1 }]) 0x05 = true ∧ 0x20000020 % 64 ≠ 0
    ∧ (runOf).next ≤ 5 ∧ 5 < (runOf).limit ∧ (runOf).failed = false ∧ (runOf).stopAt = none
    ∧ ({ op := 0xCB, ok := checkMdack ⟨0, 5, false, 0, 0, 0⟩, feature := s.accepts 3, pred := 0, srcs := [(5, false)] } : Req).ready s = true
    ∧ (s.srcS 5).toNat ∈ (runOf).drains ∧ s.draining = false ∧ 1 ∉ (runOf).drains ∧ (runOf).next < (runOf).limit
    ∧ ({ reqDesc 0xCC (checkMstop { ef with desc := 0 }) { ef with desc := 0 } [] with feature := s.accepts 3 } : Req).ready s = true := by decide +kernel

/-- The row before the run's next row, and one past its end. -/
theorem witness_rows_answered : (3 : Nat) < (runOf).next ∧ (runOf).limit ≤ 8 := by decide +kernel

/-- A read stream of 8-bit elements. -/
def stream (pos : Nat) (w : Bool := false) : Stream :=
  { isWrite := w, fmt := 1, base := 0x20000000, counts := [256, 1, 1, 1], strides := [1, 0, 0, 0], pos := pos, buf := [], fault := none }

/-- O38: free and bound registers; a move to one before the end, to the end and past it; a descriptor that is right; a write stream with
and without vectors; a stream with a fault; transfers, and one that faults. -/
theorem witness_Streams :
    let w : SysF := ⟨0x83, 4, false, 0, 0, 0⟩
    let bs := leBytes 8 0x20000000 ++ leBytes 8 1 ++ leBytes 4 256 ++ leBytes 4 1 ++ leBytes 4 1 ++ leBytes 4 1 ++ leBytes 8 1 ++ leBytes 24 0
    let s := described bs fun c => { sregs [(4, 128)] c with q := c.q.set 3 (some (stream 127)) }
    s.streamHeld 0x83 = false ∧ vget none s.core.q 3 = some (stream 127) ∧ vget none s.core.q 4 = none
    ∧ ({ op := 0xCD, ok := checkStrb { w with a := 2 }, pred := 0, srcs := [(2, false)] } : Req).ready s = true
    ∧ ({ op := 0xCE, ok := checkStru { w with a := 0 }, pred := 0 } : Req).ready s = true
    ∧ ({ op := 0xD0, ok := checkStrs w, pred := 0, srcs := [(4, false)] } : Req).ready s = true
    ∧ ({ op := 0xCF, ok := checkStrq ⟨9, 0x83, false, 0, 0, 0⟩, pred := 0, dsts := [9] } : Req).ready s = true
    ∧ parseStream bs = some (stream 0)
    ∧ reached (reach s (s.coreAccess .read) [{ va := 0x3000, len := 64 }]) 1 = true
    ∧ reached (reach s (s.streamAccess .read) [{ va := 0x20000000, len := 1 }]) 1 = true
    ∧ 127 + (s.srcS 4).toNat < (stream 127).counts.foldl (· * ·) 1 ∧ 128 + 128 = (stream 128).counts.foldl (· * ·) 1
    ∧ (let v := { stream 0 true with buf := [1] }
       let b := described bs fun c => { sregs [(4, 128)] c with q := c.q.set 3 (some v) }
       vget none b.core.q 3 = some v ∧ v.buf ≠ [] ∧ v.fault = none ∧ v.pos + 1 * (1024 / elemBits v.fmt) + 128 = v.counts.foldl (· * ·) 1
       ∧ (match (b.writeElems (b.streamAccess .write) v 0 (List.replicate 128 0)).2 with | none => true | some _ => false) = true
       ∧ (match (b.writeElems (b.streamAccess .write) { v with base := 0x30000000 } 0 (List.replicate 128 0)).2 with | none => false | some _ => true) = true
       ∧ (match (b.readElems (b.streamAccess .read) { stream 0 with base := 0x30000000 } 0 128).2 with | .ok _ => false | .error _ => true) = true
       ∧ ({ stream 0 with fault := some (0x05, 0x30000000) } : Stream).fault = some (0x05, 0x30000000))
    ∧ s.core.running = true ∧ (stream 127).buf.length < Config.streamDepth
    ∧ (match (s.readElems (s.streamAccess .read) (stream 128) 128 128).2 with | .ok xs => xs.length == 128 | .error _ => false) = true := by decide +kernel

/-- O39: templates of two contexts; a slot with a job and without; experts of each owner and state. -/
theorem witness_StatusOfUnits :
    let s := described [] (sregs [(4, 15), (5, 1024), (6, 4095), (7, 4096)])
    let b := bankState
    ({ op := 0xD2, ok := checkTmpli ⟨0, 0, false, 0x3FF, 0, 0⟩, pred := 0 } : Req).ready s = true
    ∧ ({ op := 0xD4, ok := checkBstat (fa 9 4 5 0), pred := 0, srcs := [(4, false), (5, false)], dsts := [9] } : Req).ready s = true
    ∧ (s.srcS 4).toNat ≤ 15 ∧ (s.srcS 5).toNat ≤ 1024 ∧ 15 < (s.srcS 5).toNat ∧ (b.bankJob? 1).isSome = true
    ∧ ({ op := 0xD7, ok := checkExpf ⟨0, 6, false, 0, 0, 0⟩, feature := s.accepts 1, pred := 0, srcs := [(6, false)] } : Req).ready s = true
    ∧ ({ op := 0xD8, ok := checkExpq ⟨9, 6, false, 1, 0, 0⟩, feature := s.accepts 1, pred := 0, srcs := [(6, false)], dsts := [9] } : Req).ready s = true
    ∧ (s.srcS 6).toNat ≤ 4095 ∧ 4095 < (s.srcS 7).toNat ∧ (s.expert 4095).state = 0
    ∧ (({ s with experts := [(4095, { state := 1 })] } : State).expert 4095).state = 1
    ∧ (({ s with experts := [(4095, { state := 3, refs := 65535 })] } : State).expert 4095).refs < 65536 := by decide +kernel

/-- A state whose prefix slot 0xFFFF holds `p`, which core 0's entry refers to. -/
def indexed (p : Prefix) : State :=
  { described [] fun c => vregs [(1, 0xFFFF)] (sregs [(4, 0xFFFF), (5, 7), (6, 17), (8, 0x1FFFF)] c) with
    prefixes := [(0xFFFF, p)], prefixRefs := [(0xFFFF, 0)], sems := vset State.reset.sems 17 { assigned := true } }

/-- O40: a window that begins at the last slot; a match that is built and one that is READY; an empty slot; a window that is full, with and
without an entry to put out; references that cannot be taken; live and stale handles, and one that is not the entry's. -/
theorem witness_PrefixIndex :
    let e := indexed {}
    let b := indexed { state := 1, tag := 0xFFFF, block := 9, refs := 1 }
    let r := indexed { state := 2, tag := 0xFFFF, block := 9, refs := 65534 }
    let full := fun (p : Prefix) => { indexed p with prefixes := (List.range 7).map (fun i => (i, { state := 1, tag := 5 })) ++ [(0xFFFF, p)], prefixRefs := [] }
    let all := fun (t : State) => (List.range 8).all fun i => (t.prefix_ ((0xFFFF + i) % 65536)).state != 0
    let o := full { state := 2, tag := 4, refs := 0 }
    (reqIndex 0xDA (checkPxhash (fa 0x41 0x42 0x43 0)) (fa 0x41 0x42 0x43 0) 2 [0x41] e).ready e = true
    ∧ (reqIndex 0xDA (checkPxhashRoot (fa 0x41 0x42 0 0 1)) (fa 0x41 0x42 0 0 1) 1 [0x41] e).ready e = true
    ∧ (reqIndex 0xDB (checkPxlook (fa 10 0x41 0 0)) (fa 10 0x41 0 0) 1 [10, 11] r).ready r = true
    ∧ (reqIndex 0xDC (checkPxins (fa 10 0x41 5 6)) (fa 10 0x41 5 6) 3 [10, 11] e).ready e = true
    ∧ (reqIndex 0xDD (checkPxpub (fa 10 4 0 0)) (fa 10 4 0 0) 1 [10] b).ready b = true
    ∧ (reqIndex 0xDE (checkPxrel (fa 10 4 0 0)) (fa 10 4 0 0) 1 [10] r).ready r = true
    ∧ ((r.srcV 0x41).setWidth 128).toNat % 65536 = 0xFFFF ∧ (r.prefix_ 0xFFFF).tag = (r.srcV 0x41).setWidth 128 ∧ (r.prefix_ 0xFFFF).state = 2
    ∧ (b.prefix_ 0xFFFF).state = 1 ∧ (b.prefix_ 0xFFFF).builder = b.core.entry ∧ (b.prefix_ 0xFFFF).waiters = 0
    ∧ (List.range 8).all (fun i => (e.prefix_ ((0xFFFF + i) % 65536)).state == 0) = true ∧ (e.srcS 6).toNat < 2 ^ 9 ∧ e.semOwned 17 e.core.ctx = true
    ∧ all o = true ∧ (o.prefix_ 0xFFFF).state = 2 ∧ (o.prefix_ 0xFFFF).refs = 0 ∧ all (full { state := 1, tag := 4 }) = true
    ∧ (reqIndex 0xDC (checkPxins (fa 10 0x41 5 6)) (fa 10 0x41 5 6) 3 [10, 11] o).ready o = true
    ∧ ((full { state := 2, tag := 0xFFFF, refs := 65535 }).prefix_ 0xFFFF).refs = 65535 ∧ (full { state := 2 }).prefixRefs = []
    ∧ (indexed { state := 1, refs := 1, builder := 3 }).core.entry ≠ 3 ∧ (indexed { state := 1, refs := 1, waiters := 2, readySem := 17 }).sem 17 = { assigned := true }
    ∧ (2 ^ 8 + 17 : Nat).testBit 8 = true ∧ e.semOwned 18 e.core.ctx = false ∧ 2 ^ 9 ≤ (e.srcS 4).toNat
    ∧ (r.prefix_ 0xFFFF).refs ≠ 65535 ∧ (0xFFFF, 0) ∈ r.prefixRefs ∧ (0xFFFF, 1) ∉ r.prefixRefs ∧ r.prefixRefs.length < 4096
    ∧ (r.prefix_ 0xFFFF).gen = (r.srcS 4).toNat % 2 ^ 32 / 65536 ∧ (r.prefix_ 0xFFFF).gen ≠ (r.srcS 8).toNat % 2 ^ 32 / 65536 := by decide +kernel

/-- The state after an instruction or an event, or the state itself where it has none. -/
def next (i : Instr) (s : State) : State := (event i s).getD s

/-- O41: a core with a handler and one without, two codes that TRAP may name and one that it may not, returns with nothing, with a
loaded, a landing and a scoreboarded result in flight. -/
theorem witness_TrapEntryAndReturn :
    let h := onBase armed
    let t := onBase fun c => { c with status := 1 }
    let f := onBase fun c => { c with status := 1, flight := [arriving 6] }
    let g := onBase fun c => { c with status := 1, flight := [{ arriving 1 with land := .slot 3 }] }
    h.core.tm = false ∧ h.core.tvec &&& ~~~7 ≠ 0 ∧ h.core.take = none ∧ onBase.core.tvec &&& ~~~7 = 0
    ∧ (reqBare 0xE0 (checkTrap ⟨0, 0, false, 0, 1, 0⟩) ⟨0, 0, false, 0, 1, 0⟩).ready h = true
    ∧ (reqBare 0xE0 (checkTrap ⟨0, 0, false, 0, 0x3E, 0⟩) ⟨0, 0, false, 0, 0x3E, 0⟩).ready h = true ∧ checkTrap ⟨0, 0, false, 0, 0x0C, 0⟩ = false
    ∧ (reqBare 0xE5 (checkBkpt ⟨0, 0, false, 0, 0, 0⟩) ⟨0, 0, false, 0, 0, 0⟩).ready h = true
    ∧ (reqBare 0xE1 (checkReti ⟨0, 0, false, 0, 0, 0⟩ && !t.inLoop) ⟨0, 0, false, 0, 0, 0⟩).ready t = true ∧ t.core.tm = true ∧ t.core.flight = []
    ∧ (reqBare 0xE1 (checkReti ⟨0, 0, false, 0, 0, 0⟩ && !f.inLoop) ⟨0, 0, false, 0, 0, 0⟩).ready f = true ∧ (f.core.flight.all fun x => decide (x.land = .arrival)) = true
    ∧ (reqBare 0xE1 (checkReti ⟨0, 0, false, 0, 0, 0⟩ && !g.inLoop) ⟨0, 0, false, 0, 0, 0⟩).ready g = true ∧ (g.core.flight.all fun x => decide (x.land ≠ .arrival) && !(x.passed g.core.slot)) = true
    ∧ ({ arriving 1 with land := .slot 0 } : InFlight).passed g.core.slot = true
    ∧ (reqBare 0xE1 (checkReti ⟨0, 0, false, 0, 0, 0⟩ && !h.inLoop) ⟨0, 0, false, 0, 0, 0⟩).ready h = true := by decide +kernel

/-- O42: the first and the last of the numbered registers, an LFMT of no owner, of a live one and of a dead one, an enabled INTSEM. -/
theorem witness_SystemWords :
    let s := withSem 17 { assigned := true } (sregs [(4, 0x111), (5, 0x0B), (6, 0x0C), (7, 0x112)])
    let m := fun (n : Nat) => (⟨9, 0, false, BitVec.ofNat 12 n, 0, 0⟩ : SysF)
    let t := fun (a : Spec) (n : Nat) => (⟨0, a, false, BitVec.ofNat 12 n, 0, 0⟩ : SysF)
    let owned : State := { onBase with ctxs := State.reset.ctxs.set 7 { State.reset.ctxs[7] with live := true } }
    [0, 0x0C, 0x010, 0x011, 0x01C, 0x020, 0x023, 0x030, 0x031, 0x040, 0x042, 0x400, 0x43F].all (fun n =>
      ({ op := 0xE8, ok := checkMfc (m n), pred := 0, dsts := [9] } : Req).ready s) = true
    ∧ [0, 0x0C, 0x010, 0x011, 0x01C, 0x020, 0x041, 0x400, 0x43F].all (fun n => (reqSource 0xE9 (checkMtc (t 4 n)) (t 4 n)).ready s) = true
    ∧ (reqBare 0xE4 (checkNop (m 0 |> fun w => { w with d := 0 })) { m 0 with d := 0 }).ready s = true
    ∧ ({ op := 0xEA, ok := checkBeat (m 0), pred := 0, dsts := [9] } : Req).ready s = true
    ∧ (s.srcS 4).getLsbD 8 = true ∧ (s.sem (((s.srcS 4).extractLsb' 0 8).toNat)).assigned = true
    ∧ (s.srcS 7).getLsbD 8 = true ∧ (s.sem (((s.srcS 7).extractLsb' 0 8).toNat)).assigned = false
    ∧ ((s.srcS 5).extractLsb' 0 4).toNat = 11 ∧ ((s.srcS 6).extractLsb' 0 4).toNat = 12
    ∧ (owned.ctxAt 7).live = true ∧ (owned.ctxAt 8).live = false := by decide +kernel

/-- An entry and a dispatch record of it. -/
def entryOf (id prio : Nat) (pens : List Nat := []) : Entry :=
  { listing [] with id := id, prio := prio, pensReleased := pens, released := pens.isEmpty, started := true }
def recordOf (entry : Nat) (penset : BitVec 32 := 0) (pencnt : Nat := 0) : ContRec :=
  { num := 0, code := 0x3040, frame := 0, joinblk := 0, penset := penset, pencnt := pencnt, entry := entry, ctx := 0, launch := 0, index := 0, ready := 0 }

/-- Core 0 runs a continuation of entry 0; one of entry 1, which its pen lets core 0 alone take, is ready. -/
def rivals (a b : Nat) (f : Core → Core := id) : State :=
  { cached (fun c => f { sregs [(1, 0x5000), (2, 0x3000), (3, 0x4000)] c with joinblk := 0x3000 }) with
    entries := [entryOf 0 a, entryOf 1 b [3]], ready := [recordOf 1 3 1], pens := vset State.reset.pens 3 { bitmap := 1 },
    boot := { State.reset.boot with state := 0x0A } }

/-- O43: each end with nothing outstanding and with a job outstanding; a gate with a unit and without; a misplaced successor; a join block
of 0, and one whose count is more than 1; a rival that precedes and one that does not. -/
theorem witness_EndsOfContinuations :
    let s := withSem 17 { assigned := true, count := 1 } (sregs [(1, 0x5000), (2, 0x3000), (3, 0x4001)])
    let z := rivals 2 1
    let busy := { s with jobs := [placedJob 1] }
    let c : SysF := ⟨0, 2, false, 17, 0, 0⟩
    s.core.deferred = [] ∧ s.core.anyStreamFault = none ∧ s.jobs = [] ∧ s.core.streamsBusy = false
    ∧ (reqBare 0xE2 (checkHalt ⟨0, 0, false, 0, 0, 0⟩ && !s.inLoop) ⟨0, 0, false, 0, 0, 0⟩).ready s = true
    ∧ (∃ j ∈ busy.jobs, j.cont = busy.core.cont)
    ∧ ({ op := 0xE3, ok := checkCont c && !s.inLoop, pred := 0, srcs := [(2, false), (1, false)] } : Req).ready s = true
    ∧ (s.sem 17).assigned = true ∧ (s.sem 17).takes = [] ∧ 1 ≤ (s.sem 17).count ∧ (s.sem 18).assigned = false
    ∧ (s.srcS 2).toNat % 8 = 0 ∧ (s.core.getS 1).toNat % 64 = 0 ∧ (s.srcS 3).toNat % 8 ≠ 0 ∧ s.core.take = none ∧ s.core.intTake = none
    ∧ (withSem 17 { assigned := true } id).fresh ∉ ((withSem 17 { assigned := true } id).sem 17).granted
    ∧ (reqBare 0xEC (checkJoin ⟨0, 0, false, 0, 0, 0⟩) ⟨0, 0, false, 0, 0, 0⟩).ready z = true ∧ s.core.joinblk = 0 ∧ z.core.joinblk ≠ 0
    ∧ reachedAt (reach z (z.coreAccess .atomic) [{ va := 0x3000, len := 4, align := 4 }]) [upFrom 0x3000 4] = true
    ∧ 2 ≤ fromBytes ((upFrom 0x3000 4).map z.readByte)
    ∧ (reqSource 0xE6 (checkYield ⟨0, 0, false, 0, 0, 0⟩ && !z.inLoop) ⟨0, 0, false, 0, 0, 0⟩).ready z = true
    ∧ (rivals 1 2).yieldsTo ≠ (rivals 2 1).yieldsTo
    ∧ (reqSource 0xE7 (checkCkpt ⟨0, 2, false, 0, 0, 0⟩) ⟨0, 2, false, 0, 0, 0⟩).ready z = true ∧ z.core.tm = false ∧ z.core.flight = [] := by
  decide +kernel

/-- The last count of a join block, whose parent's record is in order; and a count of 0. -/
theorem witness_last_join :
    let parent := leBytes 4 1 ++ leBytes 28 0 ++ leBytes 8 0x4000 ++ leBytes 8 0x5000 ++ leBytes 16 0
    let z := described parent fun c => { c with joinblk := 0x3000 }
    (reqBare 0xEC (checkJoin ⟨0, 0, false, 0, 0, 0⟩) ⟨0, 0, false, 0, 0, 0⟩).ready z = true
    ∧ fromBytes ((upFrom 0x3000 4).map z.readByte) = 1
    ∧ (parentRecord z.core z.beat ((upFrom 0x3020 32).map z.readByte)).isSome = true
    ∧ ((next (.join ⟨0, 0, false, 0, 0, 0⟩) z).ready.map fun r => (r.code, r.frame)) = [(0x4000, 0x5000)] := by decide +kernel

/-- A live table that keeps s1, v31, k7, q0 and one range. -/
def liveTable : List Byte :=
  leBytes 8 2 ++ leBytes 4 0x80000000 ++ leBytes 1 0x80 ++ leBytes 1 1 ++ leBytes 2 1 ++ leBytes 16 0 ++ leBytes 8 0x20000000 ++ leBytes 4 64 ++ leBytes 212 0

/-- O44: a table that can be used, one that is misplaced, and no table. -/
theorem witness_Saves :
    let s := described liveTable
    (s.readTable 0x3000).2.isSome = true ∧ (s.readTable 0x3001).2 = none ∧ s.core.ckpttab = 0
    ∧ ((s.readRanges [(0x20000000, 64)]).2.map fun x => x.map fun r => r.2.length) = some [64]
    ∧ (parseTable liveTable).map (fun t => (t.smask.testBit 1, t.vmask.testBit 31, t.kmask.testBit 7, t.qmask.testBit 0, t.smask.testBit 63))
        = some (true, true, true, true, false) := by decide +kernel

/-- O45: nothing to pop; a record and a saved continuation to pop; an interrupt to take; a fetch that faults; each kind of victim. -/
theorem witness_CoreEvents :
    let code := leBytes 4 0x4B594345 ++ leBytes 4 1 ++ leBytes 8 0x0013100646842031 ++ leBytes 4 1 ++ leBytes 4 8 ++ leBytes 40 0
    let idle : State := { rivals 2 1 (fun c => { c with running := false }) with mem := storeCode [] 0x3000 code }
    let saved : State := { idle with ready := [{ recordOf 1 3 1 with saved := some { base with status := 4 } }] }
    let int := withSem 17 { assigned := true, count := 1, takes := [{ id := 5, units := 1, who := .interrupt 0 }] } fun c => { c with intTake := some (17, 5) }
    let due := onBase fun c => { c with preemptReq := true, ckptAt := 0, ckptInt := 0 }
    idle.core.running = false ∧ idle.boot.state = 0x0A ∧ ({ idle with ready := [] } : State).popChoice idle.subj.core.val = none
    ∧ idle.popChoice idle.subj.core.val = some (.record (recordOf 1 3 1))
    ∧ (next .continuationPop idle).core.running = true ∧ (next .continuationPop idle).core.getS 1 = 0
    ∧ header (readHeader { idle.noteDispatch 1 with fresh := idle.fresh + 1 } 0 (.yard idle.yardIdx) 0x3040) = some true
    ∧ saved.popChoice saved.subj.core.val = some (.record { recordOf 1 3 1 with saved := some { base with status := 4 } })
    ∧ due.core.running = true ∧ due.core.ckptAt + due.core.ckptInt ≤ due.beat
    ∧ int.core.running = true ∧ int.core.tm = false ∧ (int.sem 17).takes.head?.map (·.id) = some 5 ∧ 1 ≤ (int.sem 17).count
    ∧ (match onBase.fetch.2 with | .error _ => true | .ok _ => false) = true
    ∧ (rivals 2 1).coreVictim 0 ≠ (rivals 1 2).coreVictim 0 := by decide +kernel

/-- A lunge run and a bank job that give way to jobs of an earlier entry. -/
theorem witness_unit_victims :
    let run : State := { described [] id (fun y => { y with arr := { y.arr with shadow := { valid := true }, lunge := some (runOf fun l => { l with job := 1 }) } }) with
      entries := [entryOf 0 1, entryOf 1 2],
      jobs := [{ placedJob 1 with unit := .array 0 }, { placedJob 2 with unit := .array 0, entry := 1, phase := .queued, begun := false, kind := .mswap }] }
    run.runVictim 0 (runOf fun l => { l with job := 1 }) = true := by decide +kernel

/-- A port of a running bank job has its turn, evaluated. -/
def turnOf (s : State) : Bool :=
  match s.job? s.subj.job, s.bankJob? s.subj.job with
  | some j, some b => match b.port? s.subj.port with
    | some p => s.portRuns j p
    | none => false
  | _, _ => false

/-- The state with every feature accepted and package memory mapped for die 0. -/
def channel (f : Port → Port := id) (g : State → State := id) : State :=
  g (bankState f { cached with mcs := State.reset.mcs.set 0 { State.reset.mcs[0] with tlb := [cachedLeaf 0 0 0x100000 0] } })

/-- O46: a port with its turn; four loops and three, a count of 1 and of more; registers at the ends of their ranges; a semaphore of the
job's context, of none, one that overflows; a take granted. -/
theorem witness_BankControlWords :
    let s := channel
    let sem := fun (x : Sem) => channel id fun s => { s with sems := vset s.sems 9 x, fresh := 7 }
    turnOf s = true ∧ turnOf (sem { assigned := true, count := 4 }) = true
    ∧ checkNopw ⟨5, 0, 0⟩ = true ∧ checkLoopw ⟨0, 0, 0⟩ = true ∧ checkEndw ⟨0, 0, 0⟩ = true ∧ checkJmpw ⟨0, 0xFFFE, 0⟩ = true ∧ checkHaltw ⟨0, 0, 0⟩ = true
    ∧ checkSemww ⟨4, 0, 9⟩ = true ∧ checkSemsw ⟨1, 0, 9⟩ = true ∧ checkMarkw ⟨0, 0, 0⟩ = true ∧ checkNopw ⟨5, 1, 0⟩ = false
    ∧ checkBset ⟨0, 255, 5⟩ = true ∧ checkBsetAdd ⟨0, 1, 0x89⟩ = true ∧ checkBsetAdd ⟨0, 1, 0x86⟩ = false
    ∧ turnOf (channel fun p => { p with loops := [(2, 0), (1, 0), (1, 0), (1, 0)] }) = true
    ∧ ((sem { assigned := true, count := 4 }).sem 9).assigned = true ∧ ((sem { assigned := true, count := 0xFFFF }).sem 9).count = 0xFFFF
    ∧ (7 : Nat) ∉ ((sem { assigned := true }).sem 9).granted ∧ 6 ∈ ((sem { assigned := true, granted := [6] }).sem 9).granted := by decide +kernel

/-- The bytes read, or the fault that suspends the job. -/
def wordRead (x : State × Except CopyStop (List Byte)) : Option (Option (BitVec 8)) :=
  match x.2 with
  | .ok _ => some none
  | .error (.suspend c _) => some (some c)
  | .error (.fail _ _) => none

/-- O47: a broadcast of a block that is mapped and of one that is not; columns that can be moved; a slot to free whose lane 0 holds a row. -/
theorem witness_BankDataWords :
    let s := channel fun p => { p with ra := 0x4000, wa := 0x5000, em := 1 }
    let j := placedJob 1
    let full := channel fun p => { p with wa := 0x5000 }.setLane 0 (({} : Lane).setSlot 63 { assigned := true, rho := 3 })
    turnOf s = true ∧ wordRead (ordBytes s j 0 0x4000 129) = some none ∧ wordRead (ordBytes s j 0 0x50000000 129) = some (some 5)
    ∧ checkBcast ⟨1, 0, 0⟩ = true ∧ checkRdw ⟨1, 1, 5⟩ = true ∧ checkWrw ⟨1, 1, 5⟩ = true ∧ checkCvt ⟨0, 0, 0⟩ = true
    ∧ checkAccz ⟨64, 0, 0⟩ = true ∧ checkDrn ⟨1, 0, 63⟩ = true ∧ checkDrn ⟨2, 0, 63⟩ = false
    ∧ (match (columnAt s j 0 none .read 0x3000).2 with | .ok pa => pa == 0x3000 | .error _ => false) = true
    ∧ (match (columnAt s j 0 none .write 0x3040).2 with | .ok pa => s.heldAt pa == false | .error _ => false) = true
    ∧ turnOf full = true ∧ reached (reach full (bankAccess 0 0 .write) [{ va := 0x5030, len := 16 }]) 1 = true := by decide +kernel

/-- O48: products within their limits and past them, into slots that are free and that are not, with and without a table, and the words
of the key-value rows. -/
theorem witness_BankProducts :
    let p : Port := { freshPort bankDesc {} 0 with ra := 0x3000, em := 1, rsz := 129 }
    let s := channel fun _ => p
    let x := k4Columns (placedJob 1) false 64 1 3 s p
    turnOf s = true ∧ checkDotK4 ⟨3, 1, 0⟩ = true ∧ checkDotK4Cont ⟨3, 1, 2⟩ = true ∧ x.2.2.isNone = true ∧ x.2.1.done = 3 ∧ x.2.1.blocks.length = 8 ∧ 64 * 3 / p.rsz = 1
    ∧ p.rsz % 129 = 0 ∧ p.ra.toNat % 64 = 0 ∧ p.enabled = [0] ∧ ((p.lane 0).slot 0).assigned ≠ true
    ∧ (((p.setLane 0 (({} : Lane).setSlot 0 { assigned := true, rho := 3 })).lane 0).slot 0).assigned = true
    ∧ checkDotKv ⟨1, 0, 1⟩ = true ∧ checkAxpy ⟨1, 0, 1⟩ = true ∧ checkKvwK ⟨1, 0, 0⟩ = true ∧ checkKvwV ⟨1, 0, 1⟩ = true := by decide +kernel

/-- A bank job over a table of one block, of layer 0 and head 0. -/
def tabled (f : Port → Port := id) : State :=
  let d : BankDesc := { bankDesc with btab := 0x8000, blkCount := 1 }
  let t : BlockTab := { addr := 0x8000, seqLen := 16, layers := 1, heads := 1, poolF := 0, poolBlocks := 64, first := 0, sets := [0] }
  let s := channel
  { s with jobs := [{ placedJob 1 with kind := .bcall d t }], bankJobs := [{ id := 1, desc := d, tab := t, ports := [f (freshPort d t 0)] }] }

/-- A table whose block lies on the pool, and a layer past the table. -/
theorem witness_key_blocks :
    let d : BankDesc := { bankDesc with btab := 0x8000, blkCount := 1 }
    let t : BlockTab := { addr := 0x8000, seqLen := 16, layers := 1, heads := 1, poolF := 0, poolBlocks := 64, first := 0, sets := [0] }
    let j := { placedJob 1 with kind := .bcall d t }
    turnOf tabled = true ∧ (match (kvPlaces tabled j (freshPort d t 0) d t 0 .read 0 1).2 with | .ok xs => xs.length == 1 | .error _ => false) = true
    ∧ (match (kvPlaces tabled j { freshPort d t 0 with layer := 1 } d t 0 .read 0 1).2 with | .error (.fail c _) => c == 2 | _ => false) = true := by decide +kernel

/-- A block of one product in flight. -/
def pending (word : BitVec 40) : Block :=
  { lane := 0, slot := 63, batch := 3, word := word, cw := 127, ca := 127, k4 := true, bank := 0, dramRow := 0, index := 0 }

/-- O49: a block that is right and one whose residue is not, over a clear and a poisoned accumulator; a job that has ended; writes
that wait; a refresh of the last bank group; a reference taken, and one to wait for. -/
theorem witness_BankEvents :
    let s := channel (fun p => { p with blocks := [pending (residueWord 5 false)] }) fun s =>
      { s with wq := [(0x3000, 7)], subj := { s.subj with bgu := 383 }, experts := [(7, { state := 3, refs := 65534 }), (8, { state := 1 })] }
    let e := channel (fun p => { p with halted := true }) fun s => s
    turnOf s = true ∧ residueValue (residueWord 5 false) = some 5 ∧ residueValue (residueWord 5 false ^^^ 1) = none
    ∧ (pending (residueWord 5 false)).word.getLsbD 39 = false
    ∧ ((e.bankJob? 1).map (·.finished)) = some true ∧ ((e.job? 1).map (·.phase)) = some .running
    ∧ s.wq ≠ [] ∧ s.subj.bgu < 384 ∧ s.pauses = [] ∧ (SMap.get (0, 0) s.pauses s.subj.bgu).2 ≤ s.beat
    ∧ s.accepts 1 = true ∧ checkResw ⟨0, 7, 0⟩ = true ∧ (s.expert 7).state = 3 ∧ (s.expert 7).refs < 65535 ∧ (s.expert 8).state = 1
    ∧ (s.expert 9).state = 0 ∧ checkResw ⟨1, 7, 0⟩ = false ∧ (bankState).accepts 1 = false := by decide +kernel

/-- A state whose event acts on these jobs of core 0. -/
def jobs (js : List Job) (g : Yard → Yard := id) : State := { described [] id g with jobs := js, subj := { State.reset.subj with job := 1 } }

/-- A landing of row 3, due now. -/
def landing (row : Option Nat := none) : Landing :=
  { job := 1, cont := 0, accRow := 3, terms := List.replicate 64 [0x3F800000], lungeRow := row, at_ := 0 }

/-- O50: jobs to begin, to end, cancelled; a landing of a stream and of a run; a stamp on its beat and past it; rows due with an answer and
without; a fetch with a clear way and a bank job that has waited too long. -/
theorem witness_ArrayEvents :
    let j : Job := { placedJob 1 with unit := .array 0, kind := .mzero (runOf).desc, phase := .queued, begun := false, cont := 1 }
    let q := jobs [j]
    let land := jobs [] fun y => { y with arr := { y.arr with landings := [landing] } }
    let row := jobs [] fun y => { y with arr := { y.arr with landings := [landing (some 3)], lunge := some (runOf fun l => { l with job := 1 }) } }
    let late : State := { jobs [{ j with kind := .mstrm (runOf).desc (some 4) }] with beat := 5 }
    let due : State := { late with beat := 4 }
    let run : State := { jobs [{ j with phase := .running, id := 0, kind := .mlunge (runOf).desc none 1 }] fun y =>
      { y with arr := { y.arr with lunge := some (runOf fun l => { l with answers := [{ row := 4, addr := 0x20000000, beat := 1, remote := false }] }) } } with beat := 12 }
    let drain := jobs [{ j with kind := .mdrn { (runOf).desc with rows := 2 }, phase := .running, begun := true }]
    let copy : Job := { j with phase := .running, begun := true, run := some { pair := 0 } }
    let fetch : State := { jobs [] with experts := [(0, { state := 2, units := 1 })] }
    q.job? 1 = some j ∧ q.cancelled j = none ∧ q.nextOnUnit j = true ∧ j.pending = true
    ∧ ((jobs [{ j with phase := .done }]).job? 1).map (·.phase) = some .done ∧ j.cont ≠ 0
    ∧ land.landingDue land.subj.yard = true ∧ row.landingDue row.subj.yard = true ∧ ((land.yards[land.subj.yard]).arr.landings.length = 1) ∧ (landing).terms.length ≤ 64
    ∧ (drain.jobs.find? (fun x => x.unit == .array drain.subj.yard.val && x.phase == .running && x.unread.isSome)).map (·.id) = some 1
    ∧ ({ drain with jobs := [{ copy with unit := .bte 0 0 }] } : State).copyGoesOn { copy with unit := .bte 0 0 } = true
    ∧ ((row.arr row.subj.yard).lunge.map (·.job)) = some (landing (some 3)).job
    ∧ (late.stampDue { j with kind := .mstrm (runOf).desc (some 4) }).map (·.2) = some false ∧ 4 < late.beat
    ∧ (due.stampDue { j with kind := .mstrm (runOf).desc (some 4) }).map (·.2) = some true
    ∧ (run.job? 0).map (·.phase) = some .running ∧ (runOf).next < (runOf).limit ∧ (runOf).due (runOf).next ≤ run.beat
    ∧ run.rowOnTime run.subj.yard (runOf fun l => { l with answers := [{ row := 4, addr := 0x20000000, beat := 1, remote := false }] }) 4 = true
    ∧ run.rowOnTime run.subj.yard runOf 4 = false
    ∧ fetch.fetchClear fetch.subj.expert = true := by decide +kernel

/-- A demand that falls due: a run whose rows are behind its look-ahead. -/
theorem witness_demand_due :
    let l := runOf fun l => { l with demandRow := 7, next := 8 }
    l.demandRow < l.limit ∧ l.limit ≤ l.next ∧ l.due l.demandRow ≤ 40 + l.look := by decide +kernel

/-- A device that boots. -/
def booting (n : Nat) (f : Boot → Boot := id) (e : Env → Env := id) : State :=
  { State.reset with boot := f { State.reset.boot with state := n }, env := e State.reset.env }

/-- An image header for 128 bytes in all. -/
def imageHeader : List Byte := leBytes 8 0 ++ leBytes 4 0 ++ leBytes 52 0

/-- O51: each state of a start with and without its failure, the key and another one, the last step before READY and after. -/
theorem witness_StartEvents :
    (booting 0x0A fun b => { b with memoryUp := true }).boot.memoryUp = true ∧ (booting 0 id fun e => { e with refreshClean := true }).env.refreshClean = true
    ∧ (booting 1).env.romFails = false ∧ (booting 5).env.trainFails = none ∧ (booting 5 id fun e => { e with trainFails := some 95 }).env.trainFails = some 95
    ∧ (booting 6 id fun e => { e with selfTestFails := some (383, true) }).env.selfTestFails = some (383, true)
    ∧ (booting 7).env.loftFails = none ∧ (booting 8).env.calibrationFails = false
    ∧ (booting 9 fun b => { b with commit := true }).boot.commit = true ∧ (booting 9).boot.committed = false
    ∧ (booting 4 fun b => { b with image := some imageHeader }).boot.image = some imageHeader ∧ numAt imageHeader 0x0C 4 = 0
    ∧ (booting 3).boot.mbStatus ≠ 1 ∧ (booting 3).busError 0 64 = false ∧ imageHeaderOk ((booting 3).readBus 0 64) 128 = false
    ∧ (booting 0x0A).boot.mbArg0.toNat % 4096 = 0 ∧ (booting 0x0A).busError 0 4096 = false := by decide +kernel

/-- A step that lasts too long. -/
theorem witness_step_late : ({ booting 5 with beat := 10 ^ 15 } : State).stepLate = true := by decide +kernel

/-- A device with a session and a TDI state. -/
def bound (t : Tdi) (up : Bool := true) (f : State → State := id) : State :=
  f { State.reset with link := { State.reset.link with tdi := t, session := up } }

/-- O52: a bound and an unbound requester, the last byte of the package and one past it, registers by halves, queues enabled and not,
contexts and slots at the ends of their ranges, keys set and not, each state of the TDI. -/
theorem witness_HostRequests :
    let p : Requester := ⟨true, none⟩
    let live := bound .run true fun s => { s with ctxs := s.ctxs.set 63 { s.ctxs[63] with live := true, bound := true } }
    let busy := bound .unlocked true fun s => s.setQueue 1023 { s.queue 1023 with busy := true }
    (bound .run).link.tdi = .run ∧ p.stream = none ∧ (bound .run).subj.src.stream = none ∧ (bound .unlocked).link.tdi ≠ .locked ∧ (bound .unlocked).link.tdi ≠ .run
    ∧ Config.packageBytes - 1 + 1 ≤ Config.packageBytes ∧ Config.packageBytes < Config.packageBytes + 1
    ∧ (bound .unlocked).foreignStage 64 0 8 = false ∧ (bound .unlocked).heldAt 7 = false ∧ 8 % 8 = 0
    ∧ 0x3FFFFF8 < 0x4000000 ∧ 0x3FFFFF8 % 8 = 0 ∧ 0x3FFFFFC % 4 = 0
    ∧ (1023 : Nat) < 1024 ∧ ((bound .run).queue 1023).enable = false ∧ ((bound .run).setQueue 3 { (bound .run).queue 3 with enable := true }).queue 3 ≠ (bound .run).queue 3
    ∧ (busy.queue 1023).busy = true ∧ (live.ctxAt 63).live = true ∧ (live.ctxAt 0).live = false ∧ live.queues = []
    ∧ (live.ctxAt 5).invalBusy = false ∧ (live.ctxAt 63).bound = true ∧ vget none live.link.keys 15 = none ∧ live.bindingInUse 63 = false ∧ live.slotInUse 15 = false
    ∧ (bound .unlocked).accepts featTdisp = false ∧ (cached).accepts featTdisp = true ∧ (bound .run false).link.session = false := by decide +kernel

/-- A queue 0 of context 0 whose ring of 16 slots lies at 0x3000, and an entry of it. -/
def fed (seq : Nat) (f : WorkQueue → WorkQueue := id) : State :=
  let s := described (leBytes 4 seq ++ leBytes 124 0)
  { s with
    boot := { s.boot with state := 0x0A }, ctxs := s.ctxs.set 0 { s.ctxs[0] with live := true },
    queues := [(0, f { s.queue 0 with base := 0x3000, log2 := 4, enable := true, tail := 1, loc := true })] }

/-- The state of an entry that waits to begin a record. -/
def waiting (r : OpRec) (e : Entry := entryOf 0 1) (p : OpPhase := .shadow) : State :=
  { described [] with entries := [{ e with op := some (r, p) }] }

/-- O53: a slot at HEAD, one of the round before and another; each record waiting, running and ended; an entry whose work is done, one
past its budget, one past its deadline; samples that are due. -/
theorem witness_EntryEvents :
    let s := fed 0
    let l : LaunchRec := ⟨0x3040, 0x5000, 64, 1, 0, 0, 0, 0, []⟩
    let c : CopyRec := ⟨0, 0, 0, 0, 1, 0, 0, none, none, 0⟩
    let h : HandleSetRec := ⟨1, false, true, true, 0, 64, 0x3000⟩
    let done : State := { waiting (.copy c) (entryOf 0 1) .running with jobs := [{ placedJob 1 with kind := .recordCopy c, unit := .frontEnd, phase := .done, cont := 0 }] }
    s.consumes 0 = true ∧ (s.queue 0).parked = none
    ∧ (s.readSlot 0).2.map (fun bs => numAt bs 0 4) = some (s.queue 0).head ∧ ((fed (2 ^ 32 - 16)).readSlot 0).2.map (fun bs => numAt bs 0 4) = some (2 ^ 32 - (s.queue 0).ring)
    ∧ ((fed 0 fun q => { q with parked := some 0 }).rereads 0 = true ∨ (fed 0 fun q => { q with parked := some 0 }).beat < 2600)
    ∧ (waiting (.launch l)).entries.map (fun e => (e.op, e.status)) = [(some (.launch l, .shadow), none)] ∧ (waiting (.launch l)).pensOk 0 l = true
    ∧ (waiting (.launch l) (entryOf 1 1) .running).working 1 = false ∧ (waiting (.copy c)).powerFits 0 = true
    ∧ (done.recordJob? 0).map (·.phase) = some .done
    ∧ (waiting (.handleSet h)).recordOk (entryOf 0 1) (.handleSet h) = true
    ∧ ((waiting (.handleFree 1)).ctxAt 0).liveHandle 1 = false ∧ ((ingesting 32000).ctxAt 0).liveHandle 1 = true
    ∧ ({ entryOf 0 1 with status := some 1 } : Entry).isOver = true ∧ ({ entryOf 0 1 with budget := { cores := 1 }, used := { cores := 2 } } : Entry).overruns .cores = true
    ∧ ({ entryOf 0 1 with dl := true, deadline := 4 } : Entry).misses 5 = true
    ∧ s.gov.thermalAt ≤ s.beat ∧ s.gov.sampleAt ≤ s.beat ∧ s.env.temperature < 1050 := by decide +kernel

/-- O56: Two addresses are in order. -/
theorem witness_ResetState : State.reset.boot.state = 0 ∧ State.reset.agenda = [] := by decide +kernel

/-- O54: words of the lists. -/
theorem witness_DecodedWords : coreWords ≠ [] ∧ bankWords ≠ [] ∧ decodeCore 0x1C00000000000000 = .illegalOpcode 0x1C00000000000000 := by decide +kernel

/-- O55: a turn of a core, of a port between words and within one, an event, a word in the place of an event, and a tick. -/
theorem witness_StepRunsTheDecodedInstruction :
    let s := cached
    let b := channel
    s.gov.stopped = false ∧ s.core.running = true ∧ s.core.hollow = false ∧ boundaryCause s = none ∧ s.core.a0 = false
    ∧ s.core.looping.any LoopSt.squashed = false ∧ (s.core.resumed && !s.core.tm) = false
    ∧ reached (reach s (s.coreAccess .fetch) [{ va := s.core.f0.toNat, len := 8, align := 8 }]) 1 = true
    ∧ faulted (reach s (s.coreAccess .fetch) [{ va := 0x50000000, len := 8, align := 8 }]) 0x05 = true
    ∧ turnOf b = true ∧ ((b.bankJob? 1).bind (·.port? 0)).map (fun p => (p.word, p.pc.toNat % 64)) = some (none, 0)
    ∧ encode .thermalSample = none ∧ encode (.nop ⟨0, 0, false, 0, 0, 0⟩) ≠ none := by decide +kernel

/-- O57: a well-formed instruction of each length, with its word. -/
theorem witness_DecodeAndEncodeAgree :
    (Instr.add ⟨3, 4, false, 5, true, 0, false, 0, 0, 0⟩).wellFormed = true
    ∧ encode (.add ⟨3, 4, false, 5, true, 0, false, 0, 0, 0⟩) = some (.core 0x01030402C0000000)
    ∧ (Instr.bset ⟨0, 129, 6⟩).wellFormed = true ∧ encode (.bset ⟨0, 129, 6⟩) = some (.bank 0x020000008106) := by decide +kernel

/-- O58: reset is in the form. -/
theorem witness_MemoryFormKept : State.reset.memoryWf := by
  simp only [State.memoryWf]
  decide +kernel

/-- O59: each cause that keeps an instruction from its effect, and one that is ready and leaves the other registers alone. -/
theorem witness_IssueAndRetire :
    let s := onBase fun c => { c with sFull := ~~~(2 : BitVec 64) }
    let r : Req := { op := 1, ok := true, pred := 0, srcs := [(2, false)], dsts := [9] }
    r.ready s = true ∧ ({ r with feature := false } : Req).feature = false ∧ s.core.predHolds 8 = false ∧ s.core.predHolds 0 = true
    ∧ s.core.isFull 1 = false ∧ s.core.isFull 2 = true ∧ s.core.streamRead 0x83 = 2 ∧ s.core.streamWrite 0x83 = 2 ∧ (s.core.ss && !s.core.tm) = false
    ∧ (onBase fun c => { c with flight := [{ arriving 1 with writes := [.k 1 1 1], land := .slot 0 }] }).core.awaits (predSpec 1) = true
    ∧ s.core.awaits (predSpec 1) = false ∧ s.core.awaits 2 = false ∧ s.core.maskPending 9 = false := by
  decide +kernel

/-- O60: stopped clocks, and an action that ends the stop. -/
theorem witness_EveryInstructionAnswers :
    let s : State := { State.reset with gov := { State.reset.gov with stopped := true } }
    State.reset.gov.stopped = false ∧ s.gov.stopped = true
    ∧ wakes ({ s with agenda := [.event (.bootCtlColdStart 0x4B59) s.subj] } : State).nextMove.1 = true
    ∧ wakes ({ s with agenda := [.tick] } : State).nextMove.1 = false := by decide +kernel

/-! ### States for the clauses of a statement that its first witness does not reach -/

/-- O41, O43: an entry that a trap without a handler charges, a core told to yield, and a join block whose counter is 0. -/
theorem witness_charged_entry :
    let z : State := { onBase with entries := [entryOf 0 1] }
    let told := rivals 2 1 fun c => { c with preemptReq := true }
    let zero := described (leBytes 64 0) fun c => { c with joinblk := 0x3000 }
    ((z.takeTrap { code := 2 }).entry? z.core.entry).isSome = true ∧ ((z.entry? z.core.entry).map (·.firstFault)) = some 0
    ∧ told.core.preemptReq = true ∧ told.core.running = true ∧ (told.core.ss && !told.core.tm) = false
    ∧ fromBytes ((upFrom 0x3000 4).map zero.readByte) = 0 ∧ (upFrom 0x3000 4).all (fun a => !(zero.heldAt a)) = true := by decide +kernel

/-- O44: an entry that has ended and one that has not, a stream with vectors to write, a core with a table and without, and a range out of
the loft. -/
theorem witness_Saves_more :
    let s := described liveTable
    let gone : State := { s with entries := [{ entryOf 0 1 with status := some 3 }] }
    let writes := described liveTable fun c => { c with q := c.q.set 3 (some { stream 0 true with buf := [1] }) }
    let kept := described liveTable fun c => { c with ckpted := true, ckpttab := 0x3000 }
    s.performStreams.drainWrites.hasEnded s.performStreams.drainWrites.core.entry = false
    ∧ gone.performStreams.drainWrites.hasEnded gone.performStreams.drainWrites.core.entry = true
    ∧ ((writes.core.getQ 3).map fun b => (b.isWrite, b.buf)) = some (true, [1]) ∧ ((writes.performStreams.core.getQ 3).map (·.buf)) = some []
    ∧ s.core.ckpted = false ∧ kept.core.ckpted = true ∧ (kept.readTable kept.core.ckpttab).2.isSome = true
    ∧ reached (reach s (s.coreAccess .read) [{ va := 0x3000, len := 64 }]) 1 = true ∧ (regionOf 0x3000 != .loft) = true := by decide +kernel

/-- one item that a core it may take must yield to, and a bank job that yields, with a take that is not granted and with none. -/
theorem witness_victims :
    let s := rivals 1 2
    let one := { placedJob 1 with kind := .bcall bankDesc {} }
    let b := bankState (fun p => { p with take := some (9, 6) }) { State.reset with entries := [entryOf 0 1, entryOf 1 2] }
    let busy : State := { b with
      jobs := [one, { one with id := 2, entry := 1, phase := .queued, begun := false }]
      bankJobs := b.bankJobs ++ [{ id := 2, desc := bankDesc, tab := {}, ports := [freshPort bankDesc {} 0] }] }
    s.items = [.record (recordOf 1 3 1)] ∧ 1 ≤ (PopItem.record (recordOf 1 3 1)).count ∧ s.mayPop 0 (.record (recordOf 1 3 1)) = true
    ∧ keyPrecedes ((PopItem.record (recordOf 1 3 1)).key s) (s.runKey 0) = true
    ∧ ((List.range 64).all fun i => !(s.mayPop i (.record (recordOf 1 3 1))) || ((s.coreAt i).running && !(s.coreAt i).preemptReq
        && !(keyLess (s.runKey 0) (s.runKey i)))) = true
    ∧ s.coreVictim 0 = true ∧ (s.core.hollow || s.core.budgetTrap || s.core.resumed) = false
    ∧ busy.job? 1 = some one ∧ busy.bankVictim one = true ∧ (busy.bankJob? 1).map (fun b => b.ports.map (·.take)) = some [some (9, 6)]
    ∧ busy.granted 9 6 = false := by decide +kernel

/-- O46, O47: a take of SEMWW that is granted and one that is not; a row with a poisoned accumulator at an index that has a poison bit
and at one that has none. -/
theorem witness_bank_words_more :
    let t := fun (ids : List Nat) => channel (fun p => { p with take := some (9, 6) }) fun s => { s with sems := vset s.sems 9 { assigned := true, granted := ids } }
    let bad := fun (rho : Nat) => channel fun p =>
      { p with wa := 0x5000 }.setLane 0 (({} : Lane).setSlot 63 { assigned := true, rho := rho, acc := Vector.replicate 4 (0, true) })
    turnOf (t [6]) = true ∧ 6 ∈ ((t [6]).sem 9).granted ∧ turnOf (t []) = true ∧ 6 ∉ ((t []).sem 9).granted
    ∧ turnOf (bad 3) = true ∧ turnOf (bad 70000) = true
    ∧ (∃ a ∈ (({ assigned := true, rho := 3, acc := Vector.replicate 4 (0, true) } : RowSlot)).acc.toList, a.2 = true) := by decide +kernel

/-- The job and the port of `tabled`, with every die among its ports and its pool at `pool`; and the first block of its table. -/
def pooled (pool : Nat) : Job × Port × BankDesc × BlockTab :=
  let d : BankDesc := { bankDesc with btab := 0x8000, blkCount := 1, ports := BitVec.allOnes 48 }
  let t : BlockTab := { addr := 0x8000, seqLen := 16, layers := 1, heads := 1, poolF := pool, poolBlocks := 64, first := 0, sets := [0] }
  ({ placedJob 1 with kind := .bcall d t }, freshPort d t 0, d, t)
def firstBlock (pool kind : Nat) (need : Need) : List KvPlace :=
  let x := pooled pool
  match (kvPlaces tabled x.1 x.2.1 x.2.2.1 x.2.2.2 kind need 0 1).2 with
  | .ok xs => xs
  | .error _ => []

/-- the blocks of a key-value word lie on a port's die and are sound, and one lies on another die; a row slot of a token is free and is
taken; the probabilities of all tokens are there. -/
theorem witness_key_value_words :
    let p := (pooled 0).2.1
    let b : BankJob := { id := 1, desc := bankDesc, tab := {}, ports := [p] }
    (firstBlock 0 0 .read).map (fun x => (x.bgu / 8, x.pas.length)) = [(0, 2112)]
    ∧ (firstBlock 47 1 .read).map (fun x => (x.bgu / 8, x.pas.length)) = [(0, 2112)]
    ∧ (firstBlock 47 0 .write).map (fun x => (x.bgu / 8, x.pas.length)) = [(47, 2112)]
    ∧ p.pbase ≤ 0 ∧ 15 - p.pbase < 8192 ∧ p.seq = 16 ∧ p.tpos = 16 ∧ ((List.range 64).all fun z => !((p.lane 0).slot z).assigned) = true
    ∧ (((({} : Lane).setSlot 5 { assigned := true, rho := 5 })).slot 5).assigned = true
    ∧ b.chains = [] ∧ (b.chainOf p).acc.length = 256 ∧ ((b.chainOf p).acc.all fun a => !a.2) = true
    ∧ (firstBlock 47 1 .read).all (fun x => x.pas.all fun a => !(tabled.eccBad [a])) = true
    ∧ (firstBlock 0 0 .write).all (fun x => x.pas.all fun a => !(tabled.heldAt a)) = true
    ∧ wordRead (ordBytes tabled (placedJob 1) 0 0x4000 129) = some none := by decide +kernel

/-- the addresses of such a block are all different, as they rise. -/
theorem witness_block_nodup : (firstBlock 0 0 .write).all (fun x => x.pas == List.range 2112) = true := by decide +kernel

/-- O49: a block that met an uncorrectable error, with one of its group and one that is not; a job that has raised SEQLEN; waiting writes to
a bank in refresh and to one that is not; a refresh of the bank group; a job that waits at RESW. -/
theorem witness_BankEvents_more :
    let bad := residueWord 5 true
    let other : Block := { pending bad with lane := 1 }
    let p := channel fun p => { p with blocks := [pending bad, { pending bad with batch := 2 }, other] }
    let last := tabled fun p => { p with halted := true, kvwRaised := true, seq := 20 }
    let wet := channel id fun s => { s with wq := [(0x3000, 7)], pauses := [((placeOf 0x3000).bgu, (placeOf 0x3000).bank, 100)] }
    let resw := channel (fun p => { p with onExpert := some (8, 0) }) fun s => { s with experts := [(8, { state := 3, waiting := [(1, 0)] })] }
    bad.getLsbD 39 = true ∧ ((p.bankJob? 1).bind (·.port? 0)).map (fun p => p.blocks.map fun b => (b.lane, b.batch)) = some [(0, 3), (0, 2), (1, 3)]
    ∧ ((last.bankJob? 1).map (·.finished)) = some true ∧ ((last.bankJob? 1).map fun b => b.ports.map fun p => (p.kvwRaised, p.seq)) = some [(true, 20)]
    ∧ reached (reach last (bankAccess 0 0 .atomic) [{ va := 0x8004, len := 4 }]) 1 = true
    ∧ wet.wq.getLast? = some (0x3000, 7) ∧ wet.beat < wet.refreshEnd 0x3000 ∧ (channel).refreshEnd 0x3000 ≤ (channel).beat
    ∧ (wet.pauses.any fun x => x.1 / 4 == wet.subj.bgu / 4) = true ∧ ((channel).pauses.any fun x => x.1 / 4 == (channel).subj.bgu / 4) = false
    ∧ ((resw.bankJob? 1).bind (·.port? 0)).map (·.onExpert) = some (some (8, 0)) ∧ ((resw.takeRef 8 1).job? 1).map (·.phase) = some .queued := by decide +kernel

/-- O50: an array to clear; a job of an ended entry; a row to drain behind a landing, and one that nothing precedes; a stamp to come; a
miss of a strict run; a fetch without a body and one that places its rows. -/
theorem witness_ArrayEvents_more :
    let j : Job := { placedJob 1 with unit := .array 0, kind := .mzero (runOf).desc, phase := .queued, begun := false, cont := 1 }
    let old := jobs [j] fun y => { y with arr := { y.arr with lastCtx := some 9 } }
    let gone : State := { jobs [{ j with phase := .done }] with entries := [{ entryOf 0 1 with status := some 3 }] }
    let drain : Job := { j with kind := .mdrn { (runOf).desc with rows := 2, accBase := 3, addr := 0x20000000, format := 3 }, phase := .running, begun := true }
    let behind := jobs [drain] fun y => { y with arr := { y.arr with landings := [{ landing with job := 0 }] } }
    let stamped : Job := { j with kind := .mstrm (runOf).desc (some 4) }
    let strict := jobs [{ j with phase := .running, id := 0, kind := .mlunge { (runOf).desc with flags := 0x40 } none 1 }] fun y =>
      { y with arr := { y.arr with lunge := some (runOf fun l => { l with desc := { l.desc with flags := 0x40 } }) } }
    let fetch := fun (b : Option IngestRec) => ({ jobs [] with experts := [(0, { state := 2, units := 1, body := b })] } : State)
    (old.clearDue j).isSome = true ∧ old.cancelled j = none ∧ old.copyGoesOn j = false
    ∧ (gone.hasEnded 0 && ({ j with phase := .done } : Job).isOver) = true ∧ (jobs [j]).hasEnded 0 = false
    ∧ (jobs [drain]).rowBefore 0 1 3 Job.unchanged = false ∧ (behind.yards[behind.subj.yard].arr.landings.any fun l => l.job < 1 && l.accRow == 3) = true
    ∧ reached (reach (jobs [drain]) (arrayAccess 0 0 pathMatrix .write) [{ va := 0x20000000, len := 256, unit := 4 }]) 1 = true
    ∧ stamped.stampOn = some (0, 4) ∧ (jobs [stamped]).beat < 4
    ∧ (strict.arr 0).lunge.map (fun l => (l.desc.strict, l.failed)) = some (true, false)
    ∧ (fetch none).fetchClear 0 = true ∧ ((fetch none).evictOver 0).expert 0 = (fetch none).expert 0 ∧ ((fetch none).expert 0).body = none := by decide +kernel

/-- O52: requests that the TDI shuts out and one that it does not; a reset and an invalidation with nothing left to perform, and with a
write that a refresh keeps; a bound context with a key. -/
theorem witness_HostRequests_more :
    let mine : State := { bound .run with env := { State.reset.env with ideBound := [2] }, subj := { State.reset.subj with src := ⟨true, some 2⟩ } }
    let reset := bound .unlocked true fun s => s.setQueue 0 { s.queue 0 with busy := true }
    let inval := bound .unlocked true fun s => s.setCtx 0 { s.ctxAt 0 with invalBusy := true }
    let keyed : State := bound .run true fun s => { s with
      ctxs := s.ctxs.set 3 { s.ctxs[3] with live := true, bound := true }
      link := { s.link with keys := s.link.keys.set 5 (some { key := 1, ctx := 3, stream := 7, nextCtr := 1 }) } }
    ((bound .run).link.tdi, (bound .run).subj.src.stream) = (.run, none) ∧ mine.subj.src.stream = some 2 ∧ 2 ∈ mine.env.ideBound ∧ mine.link.tdi = .run
    ∧ reset.resetEnds 0 = true ∧ inval.invalEnds 0 = true ∧ (reset.experts).length = 0
    ∧ (let wet := keptWaiting; (wet.setQueue 0 { wet.queue 0 with busy := true }).resetEnds 0) = false
    ∧ (vget none keyed.link.keys 5).isSome = true ∧ (keyed.ctxAt 3).bound = true ∧ vget none keyed.link.keys 4 = none ∧ keyed.link.session = true
    ∧ keyed.bindingInUse 3 = false ∧ keyed.slotInUse 5 = false := by decide +kernel

/-- O53: a copy and an ingest that do not fit and ask for ramp slots, an ingest that is malformed, one that is right, and a confidential copy
whose key, counter and staging range are right, with its check to come. -/
theorem witness_EntryEvents_more :
    let e : Entry := { listing [1, 2] with prio := 1, released := false }
    let c : CopyRec := ⟨0, 0, 0, 0, 1, 0, 0, none, none, 0⟩
    let i : IngestRec := { src := 1, dst := 2, srcOff := 0, dstOff := 0, rows := 1, elems := 64, sfmt := 0, dfmt := 0, expert := none, sig := none, err := none,
                           defer := false, codetab := 0, resultAt := 0 }
    let x : ConfRec := { src := 1, slot := 5, stageOff := 0, len := 64, stream := 7, counter := 1, resultAt := 0 }
    let wide := fun (r : OpRec) (s : State) => ({ s with
      entries := [{ e with op := some (r, .shadow) }]
      subj := { s.subj with entry := 0 }
      gov := { s.gov with board := { s.gov.board with peak := 10000, rampUp := 10000 }, budgetDw := 100000, ceilingDw := 100000 } } : State)
    let conf : State := wide (.confCopy x) (ingesting 32000)
    let keyed : State := { conf with
      boot := { conf.boot with accFeat := conf.boot.accFeat.set 0 Config.devFeat0 }
      ctxs := conf.ctxs.set 0 { conf.ctxs[0] with live := true, bound := true, stageBase := 0, stageLen := 4096, handles := [(1, { st := .set, bus := true, canRead := true, base := 0x5000, len := 80 })] }
      link := { conf.link with tdi := .run, session := true, keys := conf.link.keys.set 5 (some { key := 1, ctx := 0, stream := 7, nextCtr := 1 }) } }
    let tight := fun (r : OpRec) (s : State) => ({ wide r s with
      entries := [{ e with op := some (r, .shadow), released := false, started := false, powerClass := 15 }]
      gov := State.reset.gov } : State)
    (tight (.copy c) (ingesting 32000)).powerFits 0 = false ∧ (tight (.copy c) (ingesting 32000)).asksSlots { e with powerClass := 15 } = true
    ∧ (wide (.copy c) (ingesting 32000)).powerFits 0 = true
    ∧ (wide (.ingest i) (ingesting 32000)).recordOk e (.ingest i) = true ∧ (wide (.ingest i) (ingesting 32000)).recordOk e (.ingest { i with src := 3 }) = false
    ∧ (wide (.ingest i) (ingesting 32000)).ingestWaits e i = false ∧ (tight (.ingest i) (ingesting 32000)).ingestWaits e i = true
    ∧ keyed.recordOk e (.confCopy x) = true ∧ (keyed.listed e x.src).map (fun h => (h.bus, h.base)) = some (true, 0x5000)
    ∧ keyed.busError 0x5000 80 = false := by decide +kernel

/-- O55, O59: arrays at rest; a stream that has stopped with a fault; an access behind a result that is still to come; a full pipe, whose
results have come and have not. -/
theorem witness_issue_more :
    let pipe := fun (due : Nat) => onBase fun c => { c with flight := List.replicate 12 { arriving 1 with land := .slot 3, due := due } }
    let stopped := onBase fun c => { c with q := c.q.set 3 (some { stream 0 with fault := some (0x05, 0x30000000) }) }
    let slow := onBase fun c => { c with flight := [{ arriving 1 with holds := true }] }
    let r : Req := { op := 1, ok := true, pred := 0, srcs := [], dsts := [9], touches := true }
    (State.reset.jobs = [] ∧ (State.reset.yards.toList.all fun y => y.arr.landings.isEmpty && y.arr.drained.isEmpty && y.arr.lunge.isNone) = true)
    ∧ stopped.core.streamFault 0x83 ≠ none ∧ slow.core.heldBack r = true ∧ (onBase).core.heldBack r = false
    ∧ 12 ≤ (pipe 0).core.flight.length ∧ (pipe 0).core.resultsToCome 5 = false ∧ (pipe 9).core.resultsToCome 5 = true := by decide +kernel

/-- A column of 384 equal bytes, and a plane of one such column. -/
def flatColumn (b : Byte) (metadata : Byte := 0) : PlaneCol := { bytes := List.replicate 384 b, scales := [127, 128, 126], metadata := List.replicate 96 metadata }
def flatPlane (fmt : Nat) (b : Byte) (sparse : Bool := false) : Plane := { fmt := fmt, valid := true, sparse := sparse, cols := [flatColumn b 0xEE] }

/-- O50: groups that are finite, zero, infinite of one sign and of both, and with a NaN; columns of the five formats; a dense row and a
sparse one, worked by hand: 32 products of 1 and 2, with scales 1, 2 and 1/2, give 64, 128 and 32. -/
theorem witness_ArrayEvents_sums :
    let one : Machine.Num := .fin false 1 0
    let ones := fun (n : Nat) => (List.replicate n (0x38 : Byte))
    groupTerm 128 127 [(.fin false 1 0, one), (.fin false 2 0, .fin false 3 0)] = (0x41600000, {})
    ∧ groupTerm 127 127 [(one, one), (.fin true 1 0, one)] = (0, {}) ∧ (groupTerm 255 0 [(one, one)]).1 = 0x7FC00000
    ∧ groupTerm 127 127 [(.inf true, one), (one, one)] = (0xFF800000, {}) ∧ (groupTerm 127 127 [(.inf true, one), (.inf false, one)]).2.invalid = true
    ∧ (groupTerm 127 127 [(.inf true, .fin false 0 0)]).2.invalid = true ∧ (groupTerm 127 127 [(.nan, one)]).1 = 0x7FC00000
    ∧ formatPair 11 12 = true ∧ formatPair 9 10 = false
    ∧ ((columnTerms (flatPlane 11 0x40) 11 (elemsOf 11 (ones 384)) [] (flatColumn 0x40)).map (·.1)) =
        List.replicate 4 0x42800000 ++ List.replicate 4 0x43000000 ++ List.replicate 4 0x42000000
    ∧ densePos (flatPlane 11 0 true) (flatColumn 0 0xEE) 4 = 10 ∧ densePos (flatPlane 11 0 true) (flatColumn 0 0xEE) 5 = 11
    ∧ ((columnTerms (flatPlane 11 0x40 true) 11 (elemsOf 11 ((List.range 768).map fun i => if i % 4 = 3 then 0x38 else 0)) [] (flatColumn 0x40 0xEE)).map (·.1)).take 5 =
        List.replicate 4 0x42000000 ++ [0x42800000] := by decide +kernel

/-- O50: an array whose row 3 holds 1.0 in column 5, drained, scaled and cleared; a plane of three K4 blocks a column; a row that a
template names past the end of the address space. -/
theorem witness_ArrayEvents_rows :
    let b : MatArray := { acc := [(197, 0x3F800000)], live := [(3, 1)] }
    let d : MatDesc := { (runOf).desc with rows := 2, accBase := 3, addr := 0x20000000, format := 11 }
    let j : Job := { placedJob 1 with unit := .array 0, kind := .mstrm d none, phase := .running, begun := true, cont := 1 }
    let s := jobs [j] fun y => { y with arr := { y.arr with stationary := flatPlane 11 0x40 } }
    b.word 3 5 = 0x3F800000 ∧ (b.scaleRows 1 3 1).word 3 5 = 0x40000000 ∧ (b.zeroRows 3 1).word 3 5 = 0 ∧ (b.zeroRows 3 1).isLive 3 = false
    ∧ (drainBytes 9 (List.replicate 64 0x3F800000)).1.take 4 = [0x80, 0x3F, 0x80, 0x3F] ∧ (drainBytes 13 (List.replicate 64 0x3F800000)).1.take 2 = [0x22, 0x22]
    ∧ (drainBytes 3 (List.replicate 64 0x40400000)).1.take 5 = [3, 0, 0, 0, 3]
    ∧ reached (reach s (arrayAccess j.ctx 0 pathMatrix .read) [{ va := 0x20000000, len := 384, unit := 4 }]) 1 = true
    ∧ ((s.streamRow j 0 d none).arr 0).landings.map (fun l => (l.accRow, l.at_, l.terms.length)) = [(3, 16, 1)] := by decide +kernel

/-- O20: an address that the tables lead to its leaf and one that they do not; a leaf of sixteen entries; a read and a write of a page, one
that is not allowed, one whose type does not fit, and one past the address space. -/
theorem witness_CheckedAccesses_more :
    let s := walked [1, 2]
    let c := cached
    let a := c.coreAccess .read
    (walk s 0 0x3000).map (fun l => (l.size, l.pa)) = some (0x40000000, 0) ∧ walk s 0 0x8000000000 = none
    ∧ (match (translate s a 0x3001).2 with | .ok x => x.1 == 0x3001 | .error _ => false) = true
    ∧ (match (translate c a 0x3001).2 with | .ok x => x.1 == 0x3001 | .error _ => false) = true
    ∧ (match (translate c { a with path := 1 } 0x40000000).2 with | .ok _ => false | .error e => e == 0x07) = true
    ∧ (match (translate c { a with ctx := 0 } 0x40000000).2 with | .ok x => x.1 == 0xC00000000000 | .error _ => false) = true
    ∧ (match (translate c a 0x200000000000000).2 with | .ok _ => false | .error e => e == 0x05) = true := by decide +kernel

/-- O45: a deadline entry before a best-effort one of higher priority, and the aged of two others first. -/
theorem witness_CoreEvents_keys :
    let e := { entryOf 0 1 with dl := true, deadline := 500 }
    let f := entryOf 1 200
    let s : State := { State.reset with entries := [e, f, { entryOf 2 10 with wait := 8320000 }, entryOf 3 12] }
    keyLess (s.keyOf 0 9 0) (s.keyOf 1 0 0) = true ∧ ({ entryOf 2 10 with wait := 8320000 } : Entry).effective = 13
    ∧ keyLess (s.keyOf 2 0 0) (s.keyOf 3 0 0) = true ∧ keyLess (s.keyOf 3 1 0) (s.keyOf 3 1 1) = true ∧ f.effective = 200 := by decide +kernel

/-- O50: one row of a copy, plain, with its CRC right, and with it wrong; CRC32C of nine digits is that of the standard. -/
theorem witness_ArrayEvents_copy :
    let digits : List Byte := [0x31, 0x32, 0x33, 0x34, 0x35, 0x36, 0x37, 0x38, 0x39]
    let p : CopyPlan := { ctx := 0, yard := 0, srcBus := false, dstBus := false, rows := [(0x3000, 0x4000)], rowBytes := 9, conv := 0, crcList := none,
                          template := true, entry := 0 }
    let j : Job := { placedJob 1 with unit := .bte 0 0, phase := .running, begun := true, run := some { pair := 0 } }
    let s := fun (crc : Nat) => ({ mapped (digits ++ List.replicate 7 0 ++ leBytes 4 crc) with jobs := [j] } : State)
    let ends := fun (t : State) => ((t.job? 1).map (·.phase), t.readByte 0x4000, t.readByte 0x4008)
    crc32c digits = 0xE3069283
    ∧ ends (p.goOn (s 0) j) = (some .done, 0x31, 0x39)
    ∧ ends ({ p with crcList := some 0x3010 }.goOn (s 0xE3069283) j) = (some .done, 0x31, 0x39)
    ∧ ends ({ p with crcList := some 0x3010 }.goOn (s 0) j) = (some (.failed 0x24), 0, 0) := by decide +kernel

/-- O33: the group of the example of R219 under both rules, a group of zeros, one with a NaN, one with an infinity, and one whose scale is
clamped; the largest numbers and ties of the formats (Table 11.2). -/
theorem witness_Conversions_blocks :
    let group : List Machine.Num := .fin false 300 0 :: .fin false 1 0 :: List.replicate 126 (.fin false 0 0)
    ((quantiseBlock false group).1, (quantiseBlock false group).2.1.take 3) = (129, [75, 0, 0])
    ∧ ((quantiseBlock true group).1, (quantiseBlock true group).2.1.take 3) = (133, [6, 0, 0])
    ∧ ((quantiseBlock false [.fin false 1 (-130)]).1, (quantiseBlock false [.fin false 1 (-130)]).2.2.scaleUnderflow) = (0, true)
    ∧ (quantiseBlock true [.nan, .inf false]).1 = 0xFF ∧ quantiseBlock true [.inf true] = (254, [0xF], { saturate := true })
    ∧ quantiseBlock false [.inf true] = (254, [0x81], { saturate := true }) ∧ (quantiseBlock true [.fin true 0 0]).1 = 0
    ∧ (e2m1.encode (.fin false 1 (-2))).1 = 0 ∧ (e2m1.encode (.fin false 5 (-2))).1 = 2 ∧ (e2m1.encode (.fin true 5 0)).1 = 0xE
    ∧ e2m1.encode (.fin false 13 (-1)) = (7, { saturate := true, inexact := true }) ∧ e4m3.encode (.fin false 464 0) = (0x7E, { inexact := true })
    ∧ e5m2.encode (.fin true 61440 0) = (0xFB, { saturate := true, inexact := true }) ∧ encodeInt 8 (.fin true 257 (-1)) = (0x80, { inexact := true })
    ∧ encodeInt 32 (.fin false 5 (-1)) = (2, { inexact := true }) ∧ blockValue true 127 7 = .fin false 3 1 ∧ blockValue false 129 75 = .fin false 75 2 := by decide +kernel

/-- O53: entries that each of checks 4 to 8 rejects, and one that passes; the admission test with no code, with each code, and with the
slots of a pinned entry. -/
theorem witness_EntryEvents_tests :
    let s : State := { ingesting 32000 with
      boot := { State.reset.boot with accFeat := State.reset.boot.accFeat.set 0 Config.devFeat0 }
      ctxs := State.reset.ctxs.set 0 { State.reset.ctxs[0] with live := true, dlclass := 1 }
      gov := { State.reset.gov with windowAt := 0, board := { State.reset.gov.board with rampUp := 8, sustain := 250, peak := 300, window := 2600 }, temperature := 250 } }
    let e : Entry := { entryOf 7 1 with dl := true, deadline := 100000000, handles := [], budget := { cores := 1000 } }
    let halted := s.setQueue e.queue { s.queue e.queue with halt := true }
    halted.rejection e = 6 ∧ s.rejection { e with handles := [9] } = 7 ∧ s.rejection { e with budget := { copy := 1 } } = 5
    ∧ s.rejection { e with deadline := 0 } = 3 ∧ s.rejection { e with budget := {} } = 4 ∧ s.rejection e = 0
    ∧ s.admission { e with dl := false } = (0, []) ∧ s.admission e = (0, []) ∧ (s.admission { e with deadline := 1 }).1 = 1
    ∧ (s.admission { e with powerClass := 15, deadline := 100000000 }).1 = 0
    ∧ (({ s with gov := { s.gov with board := { s.gov.board with sustain := 13 } } } : State).admission { e with powerClass := 15 }).1 = 2
    ∧ s.admission { e with pinned := true, powerClass := 5 } = (0, [2600, 5200])
    ∧ (({ s with gov := { s.gov with board := { s.gov.board with rampUp := 1 } } } : State).admission
        { e with pinned := true, powerClass := 9, deadline := s.beat + 80000, budget := { cores := 64 } }).1 = 8
    ∧ thermalBudget 300 1000 = 2250 ∧ e.record.length = 64 := by decide +kernel

/-- O50: a head-row of 1.0 and zeros, handed over to slot 3 of block 0 of a pool from stripe unit 1: 64 with scale code 121 (R145); the
example of R94, and row 1,000 of that of R95. -/
theorem witness_ArrayEvents_handover :
    let t : BlockTab := { addr := 0x8000, seqLen := 0, layers := 1, heads := 1, poolF := 1, poolBlocks := 64, first := 0, sets := [0] }
    let d : KvhoDesc := { ksrc := 0x20000000, vsrc := 0x20000400, btab := 0x8000, t0 := 3, ntok := 1, layer := 0, head := 0 }
    let j : Job := { placedJob 1 with unit := .bte 0 0, kind := .kvho d t, phase := .running, begun := true }
    let s : State := { described [] with jobs := [j], mem := [(0x800000000001, 0x3C)] }
    let w := s.runKvho j d t
    (w.job? 1).map (·.mpc) = some 1 ∧ w.readByte 16384 = 64 ∧ w.readByte 16385 = 0 ∧ w.readByte 18051 = 121
    ∧ ((placeOf 24596057700).bgu, (placeOf 24596057700).bank, (placeOf 24596057700).row, (placeOf 24596057700).col, (placeOf 24596057700).byte) = (41, 3, 10006, 1, 36)
    ∧ placedAt 768 2064 1000 = 16004128 ∧ (placeOf 16004128).bgu = 322
    ∧ (match (placeBlock s { ctx := 0, path := pathBte, need := .write, cache := .yard 0 } t 0).2 with
        | .ok p => p.pas == upFrom 16000 2112 && p.bgu == 8
        | .error _ => false) = true ∧ (s.ctxs.toList.all fun c => c.held.isEmpty) = true := by decide +kernel

/-- O53: the example of R140: blocks 0 to 6 with scale code 127, block 7 with 129 and the element 6.0. -/
theorem witness_EntryEvents_rows :
    let mx := fun (first : Byte) (scale : Byte) => first :: List.replicate 15 0 ++ [scale]
    let bs := mx 0x13 127 ++ (List.range 6).flatMap (fun _ => mx 0 127) ++ mx 0x07 129
    bs.length = 136 ∧ ((mxToK4 bs).1.take 1, (mxToK4 bs).1.getD 112 0, (mxToK4 bs).1.getD 128 0, (mxToK4 bs).2) = ([0x01], 0x07, 129, 0)
    ∧ (mxToK4 (mx 0x05 127 ++ (List.range 7).flatMap (fun _ => mx 0 127))).1.take 1 = [0x07]
    ∧ (mxToK4 (mx 0x01 0 ++ (List.range 7).flatMap (fun _ => mx 0 0))).2 = 1 := by decide +kernel

/-! ### States in which a turn waits for a refresh of a bank (R13), and other clauses that are met there alone -/

/-- The bank of the first bytes is in refresh. -/
def inRefresh (s : State) : State := { s with pauses := [((placeOf 0x3000).bgu, (placeOf 0x3000).bank, 100)] }

/-- A vector result on its way to queue register q3. -/
def onItsWay : InFlight := { op := 0x60, dest := 0x83, cls := 2, nsrc := 2, writes := [.q 3 0], land := .arrival, redo := none }

/-- A write stream on q3 with one vector to perform. -/
def appended (c : Core) : Core := { c with q := c.q.set 3 (some { stream 0 true with buf := [1] }) }

/-- O7: results of one and of two scalar registers, of a vector and of a mask register, each at the ends of its range; a result that a
refresh holds past its latency. -/
theorem witness_ResultLandsInItsSlot_more :
    oneResult [.s 1 7] ∧ oneResult [.s 62 7, .s 63 8] ∧ oneResult [.v 0 1 1] ∧ oneResult [.v 31 1 1] ∧ oneResult [.k 1 1 1] ∧ oneResult [.k 7 1 1]
    ∧ max (onBase.beat + unitLatency 1) 100 = 100 := by
  refine ⟨?_, ?_, ?_, ?_, ?_, ?_, by decide +kernel⟩ <;> simp [oneResult, writesRegister, Write.spec]

/-- O9: the two registers of a 16-byte load, a vector and a mask register that arrive. -/
theorem witness_FullEmptyFill_more :
    let f := fun (ws : List Write) => ({ arriving 0x40 with writes := ws } : InFlight)
    (∀ ws ∈ [[Write.s 62 7, .s 63 8], [.v 31 1 1], [.k 7 1 1]],
      let t := onBase fun c => { c with flight := [f ws] }
      t.core.running = true ∧ t.core.flight[0]? = some (f ws) ∧ (f ws).due ≤ t.beat ∧ t.core.overtakes (f ws) 0 = false)
    ∧ (f []).op ≠ 0xC7 ∧ (f []).op ≠ 0xC9 := by decide +kernel

/-- Elements stored one after the other, evaluated. -/
def storesInTurn (n : Nat) (s : State) (es : List (List Nat × Nat)) : Option State :=
  es.foldl (fun o e => o.bind fun v => match storeAt v true e.1 n e.2 with
    | .retire m _ => some m
    | _ => none) (some s)

/-- O17: two elements on register pages; an element that the aperture refuses after one that is stored. -/
theorem witness_VectorStores_more :
    let s := cached (sregs [(2, 0x3000)])
    (storesInTurn 8 s [(upFrom 0xC00000000000 8, 1), (upFrom 0xC00000001000 8, 2)]).isSome = true
    ∧ (storesInTurn 8 s [(upFrom 0xC00000000000 8, 1), (upFrom 0xC00000000800 8, 0)]).isSome = false
    ∧ (match storeAt s true (upFrom 0xC00000000800 8) 8 0 with | .trap _ _ => true | _ => false) = true := by decide +kernel

/-- O19: a result on its way to a stream, before an XFENCE whose first path is STREAM, and appended elements that a refresh keeps. -/
theorem witness_Ordering_more :
    let w : SysF := ⟨0, 0, false, BitVec.ofNat 12 (6 + 16), 0, 0⟩
    let s := cached fun c => { c with flight := [onItsWay] }
    let k := { inRefresh (described [] appended) with wq := [(0x3000, 7)] }
    ({ op := 0x54, ok := checkXfence w, pred := 0 } : Req).ready s = true
    ∧ (s.core.flight.any fun f => f.dest == 0x83 && decide (f.land = .arrival)) = true
    ∧ (k.performStreams.wq.any fun c => decide (k.performStreams.beat < k.performStreams.refreshEnd c.1)) = true
    ∧ ({ op := 0x54, ok := checkXfence w, pred := 0 } : Req).ready k = true := by decide +kernel

/-- O26: a code header in a bank in refresh, and one that is served. -/
theorem witness_Spawning_more :
    let code := leBytes 4 0x4B594345 ++ leBytes 4 1 ++ leBytes 8 0x0013100646842031 ++ leBytes 4 1 ++ leBytes 4 8 ++ leBytes 40 0
    let s := cached (sregs [(1, 0x3040), (2, 0x5000), (3, 0x6000)]) fun s => { s with mem := storeCode [] 0x3000 code }
    let r := inRefresh s
    (readHeader s s.core.ctx (.yard s.yardIdx) 0x3040).1.unserved = false
    ∧ header (readHeader r r.core.ctx (.yard r.yardIdx) 0x3040) = some true ∧ (readHeader r r.core.ctx (.yard r.yardIdx) 0x3040).1.unserved = true := by
  decide +kernel

/-- What a read of 64 bytes of a core comes to: served or not, or the code of its fault. -/
def coreRead (s : State) (va align : Nat) : Option (Bool ⊕ BitVec 8) :=
  match readCore s { va := va, len := 64, align := align } with
  | (t, .ok _) => some (.inl t.unserved)
  | (_, .error f) => some (.inr f.1)

/-- O35: O35, O36, O38: a descriptor that is served, one in a bank in refresh, one that does not translate, a misplaced one, and one with an
uncorrectable error; a gather whose conversion is none; a write that a refresh keeps from BTINV. -/
theorem witness_MatrixJobs_more :
    let d := matDesc 0x20000000 1 0 0 1 0 10 0
    let s := described d
    coreRead s 0x3000 64 = some (.inl false) ∧ coreRead (inRefresh s) 0x3000 64 = some (.inl true)
    ∧ coreRead s 0x50000000 64 = some (.inr 0x05) ∧ coreRead s 0x3004 64 = some (.inr 0x04) ∧ coreRead (flawed s) 0x3000 64 = some (.inr 0x21)
    ∧ outcome (.mstrm (ef)) (inRefresh s) = some (0, 0) ∧ (next (.mstrm (ef)) (inRefresh s)).core.f0 = s.core.f0 := by decide +kernel

theorem witness_PackageJobs_more :
    let b := described (leBytes 16 0 ++ leBytes 4 0 ++ leBytes 4 64 ++ leBytes 24 0 ++ leBytes 1 0xFF ++ leBytes 15 0)
    let k := keptWaiting (sregs [(2, 0x8000)])
    coreRead b 0x3000 1 = some (.inl false) ∧ pairOk (parseTmpl (b.readBytes 0x3000 64)).conv.toNat = false
    ∧ (reqDesc 0xD6 (checkBtinv (ef)) (ef) [(2, false)]).ready k = true
    ∧ (k.wq.any fun c => decide (k.beat < k.refreshEnd c.1)) = true := by decide +kernel

/-- O37: an MWAITD behind another; no run and none to come; a run with nothing to demand yet; two demands of one due beat; no run for a
row or a group. -/
theorem witness_LungeAndStatus_more :
    let none_ := cached fun c => { c with flight := [sampled 0xC9] }
    let behind : State := { none_ with cores := none_.cores.set 1 none_.cores[0], subj := { none_.subj with core := 1 } }
    let quiet := running (fun c => { c with flight := [sampled 0xC9] }) fun l => { l with demands := [], demandRow := 6 }
    let tie := runOf fun l => { l with demands := [{ kind := 1, index := 5, due := 9 }, { kind := 2, index := 0, due := 9 }] }
    none_.yards[none_.yardIdx].arr.lunge = none ∧ none_.jobs = [] ∧ none_.mwaitdBefore (sampled 0xC9) = false
    ∧ behind.mwaitdBefore (sampled 0xC9) = true ∧ behind.core.flight[0]? = some (sampled 0xC9)
    ∧ (quiet.yards[0].arr.lunge.map fun l => (l.demands.length, l.failed, decide (l.rows ≤ l.demandRow))) = some (0, false, false)
    ∧ (next (.fullEmptyResultFill 0) none_).core.isFull 9 = true ∧ (next (.fullEmptyResultFill 0) none_).core.getS 9 = 0
    ∧ (next (.fullEmptyResultFill 0) quiet).core.flight = quiet.core.flight
    ∧ tie.demands[0]?.map (·.due) = tie.demands[1]?.map (·.due) := by decide +kernel

/-- O38: a descriptor of a stream that is none, one whose first byte does not translate, one in a bank in refresh; a move to the end; STRQ of a
stream with a fault. -/
theorem witness_Streams_more :
    let bs := fun (base fmt : Nat) => leBytes 8 base ++ leBytes 8 fmt ++ leBytes 4 256 ++ leBytes 4 1 ++ leBytes 4 1 ++ leBytes 4 1 ++ leBytes 8 1 ++ leBytes 24 0
    let s := described (bs 0x20000000 1) fun c => { sregs [(4, 128)] c with q := c.q.set 3 (some { stream 0 with fault := some (0x05, 0x30000000) }) }
    parseStream (bs 0x20000000 15) = none ∧ parseStream (bs 0x30000000 1) ≠ none
    ∧ faulted (reach s { s.streamAccess .read with probe := true } [{ va := 0x30000000, len := 1 }]) 0x05 = true
    ∧ coreRead (inRefresh s) 0x3000 1 = some (.inl true)
    ∧ (s.core.getQ 3).bind (·.fault) = some (0x05, 0x30000000)
    ∧ ({ op := 0xCF, ok := checkStrq ⟨9, 0x83, false, 0, 0, 0⟩, pred := 0, dsts := [9] } : Req).ready s = true
    ∧ (stream 128).isWrite = false ∧ (stream 128).pos + (s.srcS 4).toNat = (stream 128).total := by decide +kernel

/-- O40: a result on its way to a stream, and appended elements that a refresh keeps, before a PXPUB. -/
theorem witness_PrefixIndex_more :
    let b := indexed { state := 1, tag := 0xFFFF, block := 9, refs := 1 }
    let late : State := { b with cores := b.cores.set 0 { b.cores[0] with flight := [onItsWay] } }
    let kept := inRefresh { b with cores := b.cores.set 0 (appended b.cores[0]), wq := [(0x3000, 7)] }
    (reqIndex 0xDD (checkPxpub (fa 10 4 0 0)) (fa 10 4 0 0) 1 [10] late).ready late = true
    ∧ (late.core.flight.any fun f => f.dest == 0x83 && decide (f.land = .arrival)) = true
    ∧ (kept.performStreams.wq.any fun c => decide (kept.performStreams.beat < kept.performStreams.refreshEnd c.1)) = true
    ∧ b.performStreams.wq = [] := by decide +kernel

/-- O43: a join block, and a table of a save, in a bank in refresh and served. -/
theorem witness_EndsOfContinuations_more :
    let z := rivals 2 1
    let r := inRefresh z
    let counter : List Span := [{ va := 0x3000, len := 4, align := 4 }]
    (z.ordinaryRead (upFrom 0x3000 4)).unserved = false ∧ (r.ordinaryRead (upFrom 0x3000 4)).unserved = true
    ∧ reachedAt (reach r { r.coreAccess .atomic with probe := true } counter) [upFrom 0x3000 4] = true
    ∧ (z.tableSave 0x3000 0).unserved = false ∧ (r.tableSave 0x3000 0).unserved = true := by decide +kernel

/-- O48: O46 to O48: a word whose columns lie in a bank in refresh, and one that is served; a column of every lane; a row that begins in a column
and finds its slot taken; a write that a refresh keeps from SEMSW. -/
theorem witness_BankProducts_more :
    let p : Port := { freshPort bankDesc {} 0 with ra := 0x3000, em := 1, rsz := 129 }
    let s := channel fun _ => p
    let taken := p.setLane 0 (({} : Lane).setSlot 0 { assigned := true, rho := 3 })
    let first := fun (q : Port) => (k4Columns (placedJob 1) false 64 1 1 s q)
    let kept := channel id fun s => { s with wq := [(0x3000, 7)], pauses := [((placeOf 0x3000).bgu, (placeOf 0x3000).bank, 100)] }
    (laneCols s (placedJob 1) 0 (fun _ => 0x3000) p.enabled).2.toOption = some [0x3000]
    ∧ (first p).2.1.done = 1 ∧ (first p).2.2.isNone = true ∧ (first taken).2.1.done = 0
    ∧ (match (first taken).2.2 with | some (.fail c _) => c == 2 | _ => false) = true
    ∧ 129 ≤ p.rsz ∧ p.rsz % 129 = 0 ∧ p.slot + 1 ≤ 64 ∧ (∀ c ∈ p.stream, c.index < p.done)
    ∧ (kept.wq.any fun c => decide (kept.beat < kept.refreshEnd c.1)) = true := by decide +kernel

/-- O47: DRN goes over two assigned slots of different lanes, a free one, and one whose row does not translate. -/
theorem witness_BankDataWords_more :
    let s := channel fun p => { p with wa := 0x5000 }
    let p := ({ freshPort bankDesc {} 0 with wa := 0x5000 }.setLane 0 (({} : Lane).setSlot 0 { assigned := true, rho := 3 })).setLane 7
      (({} : Lane).setSlot 1 { assigned := true, rho := 4 })
    let far := ({ freshPort bankDesc {} 0 with wa := 0x5000000000 } : Port).setLane 0 (({} : Lane).setSlot 0 { assigned := true, rho := 3 })
    (drainSlots s (placedJob 1) p [((0, 0), 0), ((0, 1), 1), ((1, 7), 15)]).2.isNone = true
    ∧ reached (reach s (bankAccess 0 0 .write) [{ va := 0x5000 + 16 * 4, len := 16 }]) 1 = true
    ∧ ((drainSlots s (placedJob 1) far [((0, 0), 0)]).2.map (·.2)) = some 0 ∧ p.wa.toNat % 16 = 0 := by decide +kernel

/-- O49: a bank job that ends and that a refresh, and an earlier look, hold back. -/
theorem witness_BankEvents_held :
    let e := channel (fun p => { p with halted := true }) fun s => { s with wq := [(0x3000, 7)], pauses := [((placeOf 0x3000).bgu, (placeOf 0x3000).bank, 100)] }
    let h := channel fun p => { p with halted := true }
    (e.wq.any fun c => decide (e.beat < e.refreshEnd c.1)) = true ∧ h.wq = [] ∧ ((h.job? 1).map fun j => decide (j.holdOff ≤ h.beat)) = some true
    ∧ ((h.modJob 1 fun j => { j with holdOff := 9 }).job? 1).map (fun j => decide (h.beat < j.holdOff)) = some true ∧ h.unserved = false := by decide +kernel

/-- O50: two due landings, of which the one on a row that a drain has still to read waits; the last landing of a group, and one before it. -/
theorem witness_ArrayEvents_landings :
    let d : MatDesc := { (runOf).desc with rows := 2, accBase := 3, addr := 0x20000000, format := 3 }
    let drain : Job := { placedJob 0 with unit := .array 0, kind := .mdrn d, phase := .running, begun := true, cont := 1 }
    let on := fun (row : Nat) => ({ landing with accRow := row } : Landing)
    let s := jobs [drain] fun y => { y with arr := { y.arr with landings := [on 3, on 9] } }
    let l := runOf fun l => { l with job := 1, next := 4, drains := [], demands := [] }
    let b : MatArray := { landings := [landing (some 3)], lunge := some l }
    let before : MatArray := { landings := [landing (some 2), landing (some 3)], lunge := some l }
    (landing).at_ ≤ s.beat ∧ s.rowUnread 0 1 3 = true ∧ s.rowUnread 0 1 9 = false
    ∧ ((next .matrixRowLand s).arr 0).landings.map (·.accRow) = [3]
    ∧ ((b.land (landing (some 3)) 7).lunge.map fun l => (l.drains, l.landed)) = some ([0], 1)
    ∧ ((before.land (landing (some 2)) 7).lunge.map fun l => (l.drains, l.landed)) = some ([], 1) := by decide +kernel

/-- O50: a turn of a copy that waits for a refresh, a copy of a row with an uncorrectable error, and one whose list of CRCs holds one. -/
theorem witness_ArrayEvents_copy_more :
    let digits : List Byte := [0x31, 0x32, 0x33, 0x34, 0x35, 0x36, 0x37, 0x38, 0x39]
    let p : CopyPlan := { ctx := 0, yard := 0, srcBus := false, dstBus := false, rows := [(0x3000, 0x4000)], rowBytes := 9, conv := 0, crcList := none,
                          template := true, entry := 0 }
    let j : Job := { placedJob 1 with unit := .bte 0 0, phase := .running, begun := true, run := some { pair := 0 } }
    let s : State := { mapped (digits ++ List.replicate 55 0 ++ leBytes 4 0xE3069283) with jobs := [j] }
    let ends := fun (t : State) => ((t.job? 1).map (·.phase), t.readByte 0x4000)
    ends (p.goOn (flawed s) j) = (some (.failed 0x21), 0)
    ∧ ends ({ p with crcList := some 0x3040 }.goOn s j) = (some .done, 0x31)
    ∧ ends ({ p with crcList := some 0x3040 }.goOn { s with env := { s.env with badColumns := [0x3040] } } j) = (some (.failed 0x21), 0)
    ∧ (p.goOn (inRefresh s) j).unserved = true ∧ ((p.goOn (inRefresh s) j).orJob (inRefresh s) 1).jobs.map (fun j => (j.phase, j.holdOff)) = [(.running, 100)]
    ∧ p.badChunk s 0 [(0x3000, 0x4000)] = none := by decide +kernel

/-- O51: a device that has failed twice, and one that has failed three times; a digest of an image that is not accepted. -/
theorem witness_StartEvents_more :
    (booting 0xF0 fun b => { b with failCount := 2 }).boot.failCount < 3 ∧ 3 ≤ (booting 0xE0 fun b => { b with failCount := 3 }).boot.failCount
    ∧ (booting 0xF0).gov.stopped = false
    ∧ (next (.bootCtlWarmStart 0x4B59) (booting 0xE0 fun b => { b with failCount := 3 })).boot.state = 0xE0
    ∧ (next (.bootCtlWarmStart 0x4B59) (booting 0xF0 fun b => { b with failCount := 2 })).boot.state = 1 := by decide +kernel

/-- O52: a request of the window in a bank in refresh and one that is served; loads in flight of the context and of another. -/
theorem witness_HostRequests_waits :
    let s := bound .unlocked
    let r := inRefresh s
    let load := fun (ctx : Nat) => cached fun c => { c with ctx := ctx, flight := [{ arriving 0x40 with redo := some { dest := 1, signBits := 0, size := 8, bytes := [(0, 0x3000)] } }] }
    (s.ordinaryRead (upFrom 0x3000 8)).unserved = false ∧ (r.ordinaryRead (upFrom 0x3000 8)).unserved = true
    ∧ (next (.linearWindowRead ⟨true, none⟩ 0x3000 8) r).link.reads = [.linearWindowRead ⟨true, none⟩ 0x3000 8]
    ∧ s.unserved = false ∧ (load 3).cores[0].ctx = 3 ∧ ((load 3).cores[0].flight.any fun f => f.redo.isSome) = true := by decide +kernel

/-- O53: a work entry in a bank in refresh, and one that is served. -/
theorem witness_EntryEvents_waits :
    let s := fed 0
    let r := inRefresh s
    s.consumes 0 = true ∧ (s.consume 0).unserved = false ∧ (r.consume 0).unserved = true
    ∧ (next .workEntryRead r).firmAt = 100 ∧ (next .workEntryRead r).queues = r.queues ∧ (next .workEntryRead s).firmAt = 0 := by decide +kernel

/-- O55: a word in a bank in refresh, and one that is served. -/
theorem witness_StepRunsTheDecodedInstruction_waits :
    let s := cached
    let r : State := { s with pauses := [((placeOf 0x1000).bgu, (placeOf 0x1000).bank, 100)] }
    (s.ordinaryRead (upFrom 0x1000 8)).unserved = false ∧ (r.ordinaryRead (upFrom 0x1000 8)).unserved = true ∧ boundaryCause r = none
    ∧ s.link.reads = [] := by decide +kernel

/-- O60: a cold start and a loss of power while the clocks stand. -/
theorem witness_EveryInstructionAnswers_more :
    let s := fun (i : Instr) => ({ State.reset with gov := { State.reset.gov with stopped := true }, agenda := [.event i State.reset.subj] } : State)
    wakes (.event (.bootCtlColdStart 0x4B59) State.reset.subj) = true ∧ wakes (.event .powerLoss State.reset.subj) = true
    ∧ (s .powerOn).agenda = .event .powerOn State.reset.subj :: [] ∧ (s .powerOn).link.tdi = .unlocked ∧ (s .powerOn).boot.state = 0 := by decide +kernel

end Sys2Proof.Tests
end

section
/-! SUPPORT. Shifts and bit fields of the scalar instructions (R250, R251): each result bit by bit, and the statements O3 and O4. -/

namespace Sys2Proof.Machine
open Sys2Proof.Claims

/-! ### What a scalar instruction gives -/

/-- An instruction whose meaning is the shared scalar operation gives every word that agrees with its value function bit by bit. -/
theorem givesScalar_of_bits {i : Instr} {op cls n : Nat} {ok : Bool} {f : W64 → W64 → W64 → W64} {w : A3} {s : State} {r : W64}
    (hexec : exec i s = scalarOp op cls n ok f w s)
    (hbits : ∀ j < 64, r.getLsbD j = (f (s.srcS w.a) (s.srcS w.b) (s.srcS w.c)).getLsbD j) :
    givesScalar i op cls n ok w s r := by
  intro hready
  rw [BitVec.eq_of_getLsbD_eq hbits, hexec]
  exact issue_retire hready rfl

/-! ### Shifts (R250) -/

theorem getLsbD_shiftL (x : W64) (n : Nat) {i : Nat} (hi : i < 64) :
    (shiftL x n).getLsbD i = (decide (n ≤ i) && x.getLsbD (i - n)) := by
  simp only [shiftL_eq, BitVec.getLsbD_shiftLeft, hi, decide_true, Bool.true_and, ← decide_not, Nat.not_lt]

theorem getLsbD_shiftR (x : W64) (n i : Nat) : (shiftR x n).getLsbD i = x.getLsbD (i + n) := by
  rw [shiftR_eq, BitVec.getLsbD_ushiftRight, Nat.add_comm]

theorem getLsbD_shiftA (x : W64) (n : Nat) {i : Nat} (hi : i < 64) :
    (shiftA x n).getLsbD i = if i + n < 64 then x.getLsbD (i + n) else x.getLsbD 63 := by
  have hin : ¬ 64 ≤ i := by omega
  simp only [shiftA_eq, BitVec.getLsbD_sshiftRight, BitVec.msb_eq_getLsbD_last, hin, decide_false, Bool.not_false, Bool.true_and, Nat.add_comm]

theorem rotL_eq (x : W64) (n : Nat) : rotL x n = x.rotateLeft n := by
  rw [rotL, shiftL_eq, shiftR_eq, BitVec.rotateLeft_def]
  split
  · next h =>
    have hout : x >>> (64 - 0) = 0#64 := BitVec.ushiftRight_eq_zero (Nat.le_refl 64)
    simp only [h, hout, BitVec.shiftLeft_zero, BitVec.ofNat_eq_ofNat, BitVec.or_zero]
  · rfl

/-- Bit `i` of a word stands `n` places higher after a rotation left by `n`, places taken modulo 64. -/
theorem getLsbD_rotL (x : W64) (n : Nat) {i : Nat} (hi : i < 64) : (rotL x n).getLsbD ((i + n) % 64) = x.getLsbD i := by
  rw [rotL_eq, BitVec.getLsbD_rotateLeft]
  by_cases hwrap : i + n % 64 < 64
  · have hplace : (i + n) % 64 = i + n % 64 := by omega
    have hhigh : ¬ i + n % 64 < n % 64 := by omega
    simp only [hplace, hwrap, hhigh, decide_false, decide_true, Nat.add_sub_cancel, Bool.true_and, cond_false]
  · have hplace : (i + n) % 64 = i + n % 64 - 64 := by omega
    have hlow : i + n % 64 - 64 < n % 64 := by omega
    have hback : 64 - n % 64 + (i + n % 64 - 64) = i := by omega
    simp only [hplace, hlow, hback, decide_true, cond_true]

/-- Every bit of a word is the bit some places below it, places taken modulo 64, moved up by them. -/
theorem exists_rotated (n : Nat) {j : Nat} (hj : j < 64) : ∃ i < 64, (i + n) % 64 = j :=
  ⟨(j + (64 - n % 64)) % 64, Nat.mod_lt _ (by decide), by omega⟩

/-! ### Bit fields (R251) -/

theorem fieldPos_eq (c : W64) : fieldPos c = (c.extractLsb' 0 6).toNat := by
  simp only [fieldPos, fld, Nat.pow_zero, Nat.div_one, BitVec.extractLsb'_toNat, Nat.shiftRight_zero]

theorem fieldLen_eq (c : W64) : fieldLen c = min (c.extractLsb' 8 7).toNat 64 := by
  simp only [fieldLen, fld, BitVec.extractLsb'_toNat, Nat.shiftRight_eq_div_pow]

/-- A field mask has ones from POS on, LEN of them, cut off at bit 63. -/
theorem getLsbD_fieldMask (c : W64) {i : Nat} (hi : i < 64) :
    (fieldMask c).getLsbD i = decide (fieldPos c ≤ i ∧ i < fieldPos c + fieldLen c) := by
  have hlow : fieldPos c ≤ i → (i - fieldPos c < fieldLen c ↔ i < fieldPos c + fieldLen c) := by omega
  simp only [fieldMask, BitVec.getLsbD_ofNat, hi, Nat.testBit_mul_two_pow, Nat.testBit_two_pow_sub_one]
  by_cases h : fieldPos c ≤ i
  · simp only [h, hlow h, decide_true, Bool.true_and, true_and]
  · simp only [h, decide_false, decide_true, Bool.false_and, Bool.and_false, false_and]

theorem getLsbD_valBext (x y z : W64) {i : Nat} (hi : i < 64) :
    (valBext x y z).getLsbD i = (decide (i < fieldLen y) && x.getLsbD (i + fieldPos y)) := by
  rw [valBext, BitVec.getLsbD_and, getLsbD_shiftR, BitVec.getLsbD_ofNat, Nat.testBit_two_pow_sub_one, Bool.and_comm]
  simp only [hi, decide_true, Bool.true_and]

theorem getLsbD_valBins (x y z : W64) {i : Nat} (hi : i < 64) :
    (valBins x y z).getLsbD i =
      if fieldPos z ≤ i ∧ i < fieldPos z + fieldLen z then y.getLsbD (i - fieldPos z) else x.getLsbD i := by
  rw [valBins, BitVec.getLsbD_or, BitVec.getLsbD_and, BitVec.getLsbD_and, BitVec.getLsbD_not, getLsbD_shiftL y _ hi,
    getLsbD_fieldMask z hi]
  by_cases hin : fieldPos z ≤ i ∧ i < fieldPos z + fieldLen z
  · simp only [hin, and_self, decide_true, Bool.not_true, Bool.and_false, Bool.true_and, Bool.and_true, Bool.false_or, if_true]
  · simp only [hin, hi, decide_true, decide_false, Bool.not_false, Bool.and_true, Bool.and_false, Bool.or_false, if_false]

/-! ### The statements -/

/-- Settles O3: each shift is given bit by bit, and a rotation by where each bit of the source goes. -/
theorem shifts : Obligations.Shifts := by
  intro w s
  refine ⟨fun r hr => ?shl, fun r hr => ?shr, fun r hr => ?sra, fun r hr => ?rot⟩
  case shl => exact givesScalar_of_bits (f := valShl) rfl fun j hj => (hr j hj).trans (getLsbD_shiftL _ _ hj).symm
  case shr => exact givesScalar_of_bits (f := valShr) rfl fun j hj => (hr j hj).trans (getLsbD_shiftR _ _ j).symm
  case sra => exact givesScalar_of_bits (f := valSra) rfl fun j hj => (hr j hj).trans (getLsbD_shiftA _ _ hj).symm
  case rot =>
    refine givesScalar_of_bits (f := valRot) rfl fun j hj => ?_
    obtain ⟨i, hi, rfl⟩ := exists_rotated (s.srcS w.b).toNat hj
    exact (hr i hi).trans (getLsbD_rotL _ _ hi).symm

/-- Settles O4: the field taken, and the field put in under its mask, bit by bit. -/
theorem bitFields : Obligations.BitFields := by
  intro w s
  simp only [← fieldPos_eq, ← fieldLen_eq]
  constructor
  case left =>
    exact fun r hr => givesScalar_of_bits (f := valBext) rfl fun j hj => (hr j hj).trans (getLsbD_valBext _ _ _ hj).symm
  case right =>
    exact fun r hr => givesScalar_of_bits (f := valBins) rfl fun j hj => (hr j hj).trans (getLsbD_valBins _ _ _ hj).symm

end Sys2Proof.Machine
end
